-- ==== Sys2Proof/Word.lean ====
section
/-! DEFINITION. Word.lean: the word types of the BQ8840 (R11: a word is 32 bits, a halfword 16, a byte 8) and the
numbering of its units (R2, Table 2). Nothing here is arithmetic of the device: every helper a test could show wrong
lives under Sys2Proof/Machine/. -/

namespace Sys2Proof

/-- A 32-bit word (R11). -/
abbrev Word := BitVec 32

/-- A byte (R11). -/
abbrev Byte := BitVec 8

/-- A core: 0 to 35 are the Roslet cores C0 to C35, 36 is the service core SC (R2, Table 6). -/
abbrev CoreId := Fin 37

/-- The number of SC among the cores (Table 6). -/
def scId : CoreId := 36

end Sys2Proof
end

