-- ==== Sys2Proof/Syntax.lean ====
section
/-! DEFINITION. Syntax.lean: the commands of the BQ8840, one constructor for each row of spec/opcode_table.json, and the
types of their operands. An instruction row carries the core that executes it and its operand fields (R199, Tables 37 to 41);
an event row carries what the outside world decides about it (a converted value, a sampled output, a packet's bytes); a
register row carries the bus master that makes the access. -/

namespace Sys2Proof

/-! ## Operands of instructions -/

/-- Condition codes, the byte after 0xF2 (Table 41). -/
inductive Cond where
  | eq | ne | hs | lo | mi | pl | vs | vc | hi | ls | ge | lt | gt | le | al
  deriving DecidableEq, Repr

/-- The optional condition prefix of an instruction (Table 40). -/
abbrev CC := Option Cond

/-- A register field of five bits (Table 37). -/
abbrev Reg := Fin 32

/-- The length of an immediate or displacement in bytes (R199). -/
inductive ImmSize where
  | b1 | b2 | b4
  deriving DecidableEq, Repr

/-- An immediate: its length and its bits, of which the low 8, 16 or 32 are encoded. -/
structure Imm where
  size : ImmSize
  bits : Word
  deriving DecidableEq, Repr

/-- The second operand of an instruction with a register form and immediate forms (Table 38). -/
inductive Src where
  | reg (c : Reg)
  | imm (i : Imm)
  deriving DecidableEq, Repr

/-- A shift amount: register form, or one immediate byte whose bits [4:0] give it (Table 39). -/
inductive ShAmt where
  | reg (c : Reg)
  | imm (n : BitVec 5)
  deriving DecidableEq, Repr

/-- The size of a data access: word, or with 0xF0 halfword and byte (R208). -/
inductive MemSize where
  | word | half | byte
  deriving DecidableEq, Repr

/-- The count of a LOOP: register with opcode 0x74, immediate with 0x75 (R211). -/
inductive LoopCount where
  | reg (b : Reg)
  | imm (n : BitVec 16)
  deriving DecidableEq, Repr

/-! ## Masters, transports and the operands of events -/

/-- Who makes a bus access (Table 6). A core, and SC, acts in its current world and level, a DMA channel in those its descriptor
names. -/
inductive Master where
  | core (n : Fin 36)
  | sc
  | dma (n : Fin 16)
  | link (n : Fin 4)
  | debug
  | redundancy
  | ethRing
  | canRing
  deriving DecidableEq, Repr

/-- The sampled output of a window comparator (Table 27). -/
inductive CmpState where
  | inside | above | below | both
  deriving DecidableEq, Repr

/-- A timer with a sync input: a PWM timer (R148) or a general timer (R151). -/
inductive SyncTarget where
  | pt (n : Fin 48)
  | gt (n : Fin 32)
  deriving DecidableEq, Repr

/-- A low word whose read latches its high word (R157, R462, the time stamps of R428). -/
inductive LowWord where
  | gtCnt (k : Fin 16)
  | gtCcr (k : Fin 16) (i : Fin 4)
  | ts64
  | pm (n : Fin 64)
  | ethTs (p : Fin 2) (tx : Bool)
  deriving DecidableEq, Repr

/-- A low word of a cascade whose bus write is staged (R156). -/
inductive CascadeLow where
  | rld (k : Fin 16)
  | ccr (k : Fin 16) (i : Fin 4)
  deriving DecidableEq, Repr

/-- The abandonable instructions: those that Table 42 marks with A (R186, R207). An interrupt may find one before its
commit point. -/
inductive Abandonable where
  | ret | div | divu | rem | remu | callr | call | fdiv | fsqrt | lawpi | lawpid | sincos | svpwm | lawfoc
  deriving DecidableEq, Repr

/-- What a conversion finds (R71): the voltage at its input, signed, and the reference, in microvolts. Errors of the converter are
taken as part of the input. -/
structure Volts where
  vin  : Word
  vref : Word
  deriving DecidableEq, Repr

/-- What a software-fire write names: SWFn (R41), or the event register of a core, source 448 + 2n (Table 12). -/
inductive FireTarget where
  | swf (n : Fin 16)
  | coreEvent (n : Fin 36)
  deriving DecidableEq, Repr

/-- What a sparge tests: a quadrant of shared SRAM or a local memory (R338). -/
inductive SpargeTarget where
  | quadrant (q : Fin 8)
  | local (c : CoreId)
  deriving DecidableEq, Repr

/-- How the pulses of a flash operation came out: verified after `pulses`, or not after 8 (R352, R353). -/
inductive FlashOutcome where
  | verified (pulses : Fin 9)
  | failed
  deriving DecidableEq, Repr

/-- A register of a pin-engine group that accepts writes only while every engine of the group is stopped (R389). -/
inductive PeTarget where
  | store (i : Fin 48)
  | cfg (e : Fin 4)
  | lanes (e : Fin 4)
  | cr (e : Fin 4)
  | pc (e : Fin 4)
  deriving DecidableEq, Repr

/-- Where an Ozgan packet travels (R391): the SPI host port, a UDP peer, or a link. -/
inductive Transport where
  | spih
  | udp (port : Fin 2) (ip : Word) (udpPort : BitVec 16)
  | link (n : Fin 4)
  deriving DecidableEq, Repr

/-- The header fields by which a reply names its request (Table 72), with the transport the request came on. -/
structure ReqHdr where
  via     : Transport
  session : BitVec 8
  seq     : BitVec 16
  deriving DecidableEq, Repr

/-- A MEMRD or MEMWR request flit (Table 90, R417): the devices of ROUTE, the tag, the offset and the data. -/
structure MemReq where
  dst    : Fin 8
  src    : Fin 8
  tag    : BitVec 16
  offset : Word
  data   : Word
  mask   : BitVec 4
  service : Bool
  deriving DecidableEq, Repr

/-- What the core side of a bank does to the same word in the same tb cycle as a link-side access (Table 62). -/
inductive CoreSide where
  | idle
  | read (m : Master)
  | write (m : Master) (data : Word)
  | atomic (m : Master) (new : Word)
  | writeBack
  /-- The copy read and the restore write of a sparge. -/
  | copy
  | restore
  deriving DecidableEq, Repr

/-- A NUMBER flit's announcement (R416). The bit layout of its body is not given; its contents are. -/
inductive NumberMsg where
  | request (pref : Fin 8) (hops : Fin 8)
  | grant (num : Fin 8) (preferred : Bool)
  | noNumber
  | announce (num : Fin 8) (hops : Fin 8)
  deriving DecidableEq, Repr

/-- A port with frame rings (R430). -/
inductive RingPort where
  | eth (p : Fin 2)
  | can (c : Fin 6)
  deriving DecidableEq, Repr

/-- A CAN frame (R429, R430). -/
structure CanFrame where
  ident : BitVec 29
  ide   : Bool
  fdf   : Bool
  brs   : Bool
  esi   : Bool
  dlc   : BitVec 4
  data  : List Byte
  deriving DecidableEq, Repr

/-- The errors a CAN controller records in LEC (CANc_STAT): 1 to 6. -/
inductive CanError where
  | stuff | form | ack | bit1 | bit0 | crc
  deriving DecidableEq, Repr

/-- A qualified wake source (Table 99). -/
inductive WakeSource where
  | comparator (n : Fin 32)
  | nwake
  | link (n : Fin 4)
  | spih
  deriving DecidableEq, Repr

/-- The spaces of a debug access (R456). -/
inductive DbgSpace where
  | mem | reg | priv | dbg
  deriving DecidableEq, Repr

/-- What BOOT finds in the parts it tests (R337, R441, R444): checkers that fail, the addresses of the words that fail their march, and
cores whose self-test fails. -/
structure BootFindings where
  checkerFailQ : BitVec 8
  checkerFailL : BitVec 37
  failing      : List Nat
  coreFail     : BitVec 37
  deriving DecidableEq, Repr

/-! ## The commands -/

/-- The commands of the BQ8840: one constructor per row of spec/opcode_table.json, in the table's order. -/
inductive Instr where
  /-- NOP (R207): executes no operation in its fixed states. -/
  | nop (c : CoreId) (cc : CC)
  /-- FDONE (R48): sets the core's done flag and activates its FDONE event source. -/
  | fdone (c : CoreId) (cc : CC)
  /-- CHKPT (R283): ends a signature window with a checkpoint record in a paired mode. -/
  | chkpt (c : CoreId) (cc : CC)
  /-- LBFLUSH (R192): releases the loop-buffer capture at its last state. -/
  | lbflush (c : CoreId) (cc : CC)
  /-- RET (R217): restores masked registers and pops the return stack to return. -/
  | ret (c : CoreId)
  /-- RETX (R264): returns from an exception or interrupt by reading ST, pc and the loop word from the frame. -/
  | retx (c : CoreId)
  /-- RSPUSH (R218): moves the top return-stack entry to the memory stack. -/
  | rspush (c : CoreId)
  /-- RSPOP (R218): moves an entry from the memory stack onto the return stack. -/
  | rspop (c : CoreId)
  /-- SETLVL (R206): sets the level and interrupt mask from the next instruction boundary. -/
  | setlvl (c : CoreId) (l : Bool) (im : BitVec 4)
  /-- GATE (R252): enters the other world at a registered gate entry. -/
  | gate (c : CoreId) (n : Fin 16)
  /-- WAITS (R182): places the core in a wait for an early or final result in a sample register and prefetches the next instruction.
  -/
  | waits (c : CoreId) (n : Fin 16) (final : Bool)
  /-- PUSH (R207): decrements sp and stores a register. -/
  | push (c : CoreId) (cc : CC) (a : Reg)
  /-- POP (R203): loads a register from the stack and increments sp, with a load shadow. -/
  | pop (c : CoreId) (cc : CC) (a : Reg)
  /-- JR (R207): jumps to the address in a register. -/
  | jr (c : CoreId) (cc : CC) (a : Reg)
  /-- ADD (R207): adds a register or immediate. -/
  | add (c : CoreId) (cc : CC) (a b : Reg) (x : Src)
  /-- SUB (R207): subtracts a register or immediate. -/
  | sub (c : CoreId) (cc : CC) (a b : Reg) (x : Src)
  /-- AND (R207): bitwise AND with a register or zero-extended immediate. -/
  | and (c : CoreId) (cc : CC) (a b : Reg) (x : Src)
  /-- OR (R207): bitwise OR with a register or zero-extended immediate. -/
  | or (c : CoreId) (cc : CC) (a b : Reg) (x : Src)
  /-- XOR (R207): bitwise XOR with a register or zero-extended immediate. -/
  | xor (c : CoreId) (cc : CC) (a b : Reg) (x : Src)
  /-- SHL (R207): shifts left by an amount modulo 32. -/
  | shl (c : CoreId) (cc : CC) (a b : Reg) (x : ShAmt)
  /-- SHR (R207): logical right shift. -/
  | shr (c : CoreId) (cc : CC) (a b : Reg) (x : ShAmt)
  /-- SAR (R207): arithmetic right shift. -/
  | sar (c : CoreId) (cc : CC) (a b : Reg) (x : ShAmt)
  /-- MUL (R207): writes the low 32 bits of a product. -/
  | mul (c : CoreId) (cc : CC) (a b : Reg) (x : Src)
  /-- MIN (R207): writes the signed minimum. -/
  | min (c : CoreId) (cc : CC) (a b : Reg) (x : Src)
  /-- MAX (R207): writes the signed maximum. -/
  | max (c : CoreId) (cc : CC) (a b : Reg) (x : Src)
  /-- CMP (R198): sets N, Z, C and V from a subtraction. -/
  | cmp (c : CoreId) (cc : CC) (b : Reg) (x : Src)
  /-- MULH (R207): writes the high word of a signed product. -/
  | mulh (c : CoreId) (cc : CC) (a b r : Reg)
  /-- MULHU (R207): writes the high word of an unsigned product. -/
  | mulhu (c : CoreId) (cc : CC) (a b r : Reg)
  /-- DIV (R219): signed division without faulting, abandonable. -/
  | div (c : CoreId) (cc : CC) (a b r : Reg)
  /-- DIVU (R219): unsigned division without faulting. -/
  | divu (c : CoreId) (cc : CC) (a b r : Reg)
  /-- REM (R219): signed remainder with the sign of the dividend. -/
  | rem (c : CoreId) (cc : CC) (a b r : Reg)
  /-- REMU (R219): unsigned remainder. -/
  | remu (c : CoreId) (cc : CC) (a b r : Reg)
  /-- ADDS (R219): saturating addition that sets Q on saturation. -/
  | adds (c : CoreId) (cc : CC) (a b r : Reg)
  /-- SUBS (R219): saturating subtraction that sets Q on saturation. -/
  | subs (c : CoreId) (cc : CC) (a b r : Reg)
  /-- MULQ (R219): rounded saturating Q1.31 multiply. -/
  | mulq (c : CoreId) (cc : CC) (a b r : Reg)
  /-- ABS (R219): saturating absolute value. -/
  | abs (c : CoreId) (cc : CC) (a b : Reg)
  /-- CLZ (R207): counts leading zeros. -/
  | clz (c : CoreId) (cc : CC) (a b : Reg)
  /-- SAT (R219): limits a value to a signed range of n bits. -/
  | sat (c : CoreId) (cc : CC) (a b : Reg) (n : Fin 32)
  /-- ROR (R207): rotates right. -/
  | ror (c : CoreId) (cc : CC) (a b r : Reg)
  /-- MOV (R207): copies a register. -/
  | mov (c : CoreId) (cc : CC) (a b : Reg)
  /-- TST (R198): sets N and Z from an AND and clears C and V. -/
  | tst (c : CoreId) (cc : CC) (b r : Reg)
  /-- MFS (R213): reads a system register. -/
  | mfs (c : CoreId) (cc : CC) (a : Reg) (sr : Fin 32)
  /-- MTS (R213): writes a system register; writing 0 to lc ends a loop level. -/
  | mts (c : CoreId) (cc : CC) (a : Reg) (sr : Fin 32)
  /-- RDS (R226): reads a sample register and clears its fresh flags. -/
  | rds (c : CoreId) (cc : CC) (a : Reg) (n : Fin 32)
  /-- ADDP (R207): adds signed increments to two pointer registers. -/
  | addp (c : CoreId) (cc : CC) (a b : Reg) (ia ib : Byte)
  /-- MOVI (R207): loads a sign-extended immediate. -/
  | movi (c : CoreId) (cc : CC) (a : Reg) (i : Imm)
  /-- LD (R208): loads a word, halfword or byte from the effective address. -/
  | ld (c : CoreId) (cc : CC) (a b : Reg) (x : Src) (sz : MemSize) (una : Bool)
  /-- ST (R208): stores a word, halfword or byte to the effective address. -/
  | st (c : CoreId) (cc : CC) (a b : Reg) (x : Src) (sz : MemSize) (una : Bool)
  /-- LDS (R208): loads a narrow value with sign extension. -/
  | lds (c : CoreId) (cc : CC) (a b : Reg) (x : Src) (sz : MemSize) (una : Bool)
  /-- ATADD (R210): bank-atomic fetch-and-add in shared SRAM. -/
  | atadd (c : CoreId) (cc : CC) (a b r : Reg) (i : Imm)
  /-- ATSWP (R210): bank-atomic swap in shared SRAM. -/
  | atswp (c : CoreId) (cc : CC) (a b r : Reg) (i : Imm)
  /-- J (R205): jumps by a displacement from the first byte of the instruction. -/
  | j (c : CoreId) (cc : CC) (disp : Imm)
  /-- CALLR (R216): calls the address in a register, pushing an entry and saving masked registers. -/
  | callr (c : CoreId) (cc : CC) (b : Reg) (mask : BitVec 16)
  /-- CALL (R216): calls by displacement, pushing an entry and saving masked registers. -/
  | call (c : CoreId) (cc : CC) (disp : Imm) (mask : BitVec 16)
  /-- LOOP (R211): sets up a hardware loop level and starts or keeps a loop-buffer capture. -/
  | loop (c : CoreId) (level : Fin 2) (len : BitVec 16) (count : LoopCount)
  /-- MAC (R221): adds a signed product to an accumulator. -/
  | mac (c : CoreId) (cc : CC) (acc : Fin 4) (b r : Reg)
  /-- MSU (R221): subtracts a signed product from an accumulator. -/
  | msu (c : CoreId) (cc : CC) (acc : Fin 4) (b r : Reg)
  /-- MACQ (R221): adds a doubled product to an accumulator. -/
  | macq (c : CoreId) (cc : CC) (acc : Fin 4) (b r : Reg)
  /-- ACCCLR (R221): clears an accumulator. -/
  | accclr (c : CoreId) (cc : CC) (acc : Fin 4)
  /-- ACCPT (R221): writes a part of an accumulator. -/
  | accpt (c : CoreId) (cc : CC) (acc : Fin 4) (b : Reg) (part : Fin 32)
  /-- ACCRD (R219): reads an accumulator rounded, shifted and saturated. -/
  | accrd (c : CoreId) (cc : CC) (a : Reg) (acc : Fin 4) (sh : Fin 32)
  /-- ACCGT (R221): reads a part of an accumulator. -/
  | accgt (c : CoreId) (cc : CC) (a : Reg) (acc : Fin 4) (part : Fin 32)
  /-- FADD (R220): float addition. -/
  | fadd (c : CoreId) (cc : CC) (a b r : Reg)
  /-- FSUB (R220): float subtraction. -/
  | fsub (c : CoreId) (cc : CC) (a b r : Reg)
  /-- FMUL (R220): float multiplication. -/
  | fmul (c : CoreId) (cc : CC) (a b r : Reg)
  /-- FMADD (R220): fused float multiply-add. -/
  | fmadd (c : CoreId) (cc : CC) (a b r : Reg)
  /-- FDIV (R220): float division, abandonable. -/
  | fdiv (c : CoreId) (cc : CC) (a b r : Reg)
  /-- FSQRT (R220): float square root, abandonable. -/
  | fsqrt (c : CoreId) (cc : CC) (a b : Reg)
  /-- FCMP (R220): sets flags from a float comparison. -/
  | fcmp (c : CoreId) (cc : CC) (b r : Reg)
  /-- FCVTF (R220): converts a signed integer to float. -/
  | fcvtf (c : CoreId) (cc : CC) (a b : Reg)
  /-- FCVTI (R220): converts a float to a saturated signed integer. -/
  | fcvti (c : CoreId) (cc : CC) (a b : Reg)
  /-- FCVTQ (R220): converts a float to Q1.31. -/
  | fcvtq (c : CoreId) (cc : CC) (a b : Reg)
  /-- FCVTFQ (R220): converts Q1.31 to float. -/
  | fcvtfq (c : CoreId) (cc : CC) (a b : Reg)
  /-- FMIN (R220): float minimum. -/
  | fmin (c : CoreId) (cc : CC) (a b r : Reg)
  /-- FMAX (R220): float maximum. -/
  | fmax (c : CoreId) (cc : CC) (a b r : Reg)
  /-- FABS (R220): clears the float sign. -/
  | fabs (c : CoreId) (cc : CC) (a b : Reg)
  /-- FNEG (R220): inverts the float sign. -/
  | fneg (c : CoreId) (cc : CC) (a b : Reg)
  /-- LAWPI (R238): computes a PI law with anti-windup on its descriptor. -/
  | lawpi (c : CoreId) (cc : CC) (a b r : Reg) (lc : Byte)
  /-- LAWPID (R238): computes a PID law on its descriptor. -/
  | lawpid (c : CoreId) (cc : CC) (a b r : Reg) (lc : Byte)
  /-- CLARKE (R237): computes the Clarke transform. -/
  | clarke (c : CoreId) (cc : CC) (a b r : Reg) (lc : Byte)
  /-- PARK (R237): computes the Park transform. -/
  | park (c : CoreId) (cc : CC) (a b r : Reg) (lc : Byte)
  /-- IPARK (R237): computes the inverse Park transform. -/
  | ipark (c : CoreId) (cc : CC) (a b r : Reg) (lc : Byte)
  /-- SINCOS (R237): computes sine and cosine by CORDIC. -/
  | sincos (c : CoreId) (cc : CC) (a b r : Reg) (lc : Byte)
  /-- SVPWM (R239): computes three duties from alpha and beta by space-vector modulation. -/
  | svpwm (c : CoreId) (cc : CC) (a b r : Reg) (lc : Byte)
  /-- LAWFOC (R239): computes a full field-oriented current loop on its descriptor. -/
  | lawfoc (c : CoreId) (cc : CC) (a b r : Reg) (lc : Byte)
  /-- SETTLE (R242): corrects a speculative pass with final inputs and writes ST.SF. -/
  | settle (c : CoreId) (cc : CC) (a b r : Reg) (lc : Byte)
  /-- DUTY (R230): writes a duty register, which reaches the timer shadows or releases staged values. -/
  | duty (c : CoreId) (cc : CC) (d r : Reg)
  /-- DUTYC (R230): writes a compare pair to both shadows at one edge. -/
  | dutyc (c : CoreId) (cc : CC) (d b r : Reg)
  /-- ADC_TRIGGER (R76): an active trigger input starts a sequence or slot, or is ignored as TRIG_OVR. -/
  | adcTrigger (n : Fin 16)
  /-- HOLD_EDGE (R76): a conversion's hold edge falls when its offset or spacing expires. -/
  | holdEdge (n : Fin 16)
  /-- GAP_MARKER_WRITE (R85): a pending gap marker is written into the place freed by a removal. -/
  | gapMarkerWrite (n : Fin 16)
  /-- CALIBRATION_DUE (R90): a converter's calibration period expires and it joins its group's queue. -/
  | calibrationDue (n : Fin 16)
  /-- CALIBRATION_SERVICE_START (R91): a relief converter begins serving the next queued target with a cross-check. -/
  | calibrationServiceStart (g : Fin 2)
  /-- CROSS_CHECK_COMPLETE (R92): the 64th parallel conversion completes the cross-check, which passes or fails. -/
  | crossCheckComplete (g : Fin 2)
  /-- CALIBRATION_END (R94): the target's 16,000-cycle calibration ends at C. -/
  | calibrationEnd (g : Fin 2)
  /-- RELIEF_SELF_CALIBRATION_END (R94): a relief converter finishes its own 16,000-cycle calibration. -/
  | reliefSelfCalibrationEnd (g : Fin 2)
  /-- IN_PLACE_CALIBRATION_END (R96): a disabled converter finishes calibrating in place. -/
  | inPlaceCalibrationEnd (n : Fin 16)
  /-- DECIMATOR_OUTPUT (R100): after D bits a sinc3 output reaches SDg_DATA and bound sample registers. -/
  | decimatorOutput (g : Fin 8)
  /-- SD_SYNC (R101): a sync activation sets the decimator's bit count to PHASE. -/
  | sdSync (g : Fin 8)
  /-- DECIMATOR_STALL (R102): no bit for 1,024 tb cycles sets STALL. -/
  | decimatorStall (g : Fin 8)
  /-- DECIMATOR_STUCK (R102): 4 × D equal bits set STUCK. -/
  | decimatorStuck (g : Fin 8)
  /-- ARM_POINT_REACHED (R110): eLAPSED reaches the arm point and the latch becomes armed. -/
  | armPointReached (n : Fin 32)
  /-- HOLD_OFF_END (R113): the 1,600-cycle enable hold-off ends and the latch is armed. -/
  | holdOffEnd (n : Fin 32)
  /-- ZERO_EVENT (R127): a PWM counter reaches zero: source activates, reload and ZERO transfers follow. -/
  | zeroEvent (n : Fin 48)
  /-- COMPARE_MATCH (R129): a counter takes a compare value and the pin action is applied. -/
  | compareMatch (n : Fin 48) (cmpB : Bool)
  /-- TRIP_ENTRY (R140): an active trip line puts the timer into the tripped state. -/
  | tripEntry (n : Fin 48)
  /-- DEAD_TIME_EXPIRY (R139): a dead time expires and the pin rises if its level still holds. -/
  | deadTimeExpiry (n : Fin 48) (pinB : Bool)
  /-- SYNC_EVENT (R149): a sync input acts on a slave timer by GATE, RESET or CLOCK. -/
  | syncEvent (t : SyncTarget)
  /-- GT_ZERO (R151): a general timer or cascade reaches zero and reloads. -/
  | gtZero (n : Fin 32)
  /-- GT_COMPARE_MATCH (R152): a general-timer compare channel matches. -/
  | gtCompareMatch (n : Fin 32) (i : Fin 4)
  /-- GT_CAPTURE (R153): a capture channel records the counter. -/
  | gtCapture (n : Fin 32) (i : Fin 4)
  /-- TS64_WRAP (R158): tS64 wraps to zero and activates source 989. -/
  | ts64Wrap
  /-- TICK (R45): the frame counter returns to 0: FRAME_NUM increments and cores are judged. -/
  | tick
  /-- PLL_LOCK (R482): the PLL locks to its reference and leaves holdover. -/
  | pllLock
  /-- REFERENCE_FAIL (R44): the link reference fails and the PLL enters holdover. -/
  | referenceFail
  /-- SWAP_CHECK_COMPLETE (R56): the swap checker finishes and the swap is ARMED or REFUSED. -/
  | swapCheckComplete
  /-- SWAP_EXCHANGE (R58): at tick N the active and shadow sets exchange. -/
  | swapExchange
  /-- TICK_LOST (R67): a marker does not arrive in time and the follower ticks on its own. -/
  | tickLost
  /-- STATE_COPY_END (R291): the state copy into the receiving core ends. -/
  | stateCopyEnd (k : Fin 16)
  /-- PAIRED_MODE_ENTRY (R278): at the first tick after the copy the new paired mode takes effect. -/
  | pairedModeEntry (k : Fin 16)
  /-- SPLIT_RETURN (R278): at the next tick a pair returns to SPLIT. -/
  | splitReturn (k : Fin 16)
  /-- CHECKPOINT_COMPARE (R283): at M + O the two copies' checkpoint signatures are compared. -/
  | checkpointCompare (k : Fin 16)
  /-- SLUICE_TIMEOUT (R284): no checker output O + 8 cycles after the main's is a mismatch. -/
  | sluiceTimeout (k : Fin 16)
  /-- PAIR_RESUME (R292): at the first tick after the copy both roles begin at RM_RESUMEk.ADDR. -/
  | pairResume (k : Fin 16)
  /-- TRANSIENT_WINDOW_EXPIRY (R294): tWIN ticks pass without a transient and the count falls to zero. -/
  | transientWindowExpiry (k : Fin 16)
  /-- CELL_OUTPUT_CHANGE (R307): a logic cell's output changes through its flip-flop or filter. -/
  | cellOutputChange (n : Fin 128)
  /-- DMA_REQUEST (R344): a request on a DMA consumer input moves one element or a descriptor. -/
  | dmaRequest (n : Fin 16)
  /-- DMA_ELEMENT (R343): a DMA element read and write complete. -/
  | dmaElement (n : Fin 16)
  /-- DMA_STARVE (R328): a DMA wait beyond DMA_MON.THR activates source 937. -/
  | dmaStarve (n : Fin 16) (bank : Fin 64)
  /-- WRITE_BACK_FORCED (R325): a write-back that has waited 16 cycles takes priority over processors. -/
  | writeBackForced (bank : Fin 64)
  /-- SPARGE_REGION_START (R340): the sparge pace expires and a region test starts. -/
  | spargeRegionStart (t : SpargeTarget)
  /-- FLASH_RESUME (R354): a suspended bank resumes its operation. -/
  | flashResume (b : Fin 5)
  /-- BACKGROUND_ERASE_START (R362): the data-flash engine starts erasing a queued sector when idle. -/
  | backgroundEraseStart
  /-- PE_SET (R381): pin-engine SET writes pins, directions or CT. -/
  | peSet (g : Fin 8) (e : Fin 4)
  /-- PE_OUT (R382): pin-engine OUT shifts bits out of SR. -/
  | peOut (g : Fin 8) (e : Fin 4)
  /-- PE_IN (R382): pin-engine IN shifts bits into SR or the decimator. -/
  | peIn (g : Fin 8) (e : Fin 4)
  /-- PE_PUSH (R383): pin-engine PUSH moves SR to the input FIFO. -/
  | pePush (g : Fin 8) (e : Fin 4)
  /-- PE_PULL (R383): pin-engine PULL loads SR from the output FIFO. -/
  | pePull (g : Fin 8) (e : Fin 4)
  /-- PE_MOV (R381): pin-engine MOV forms and moves a value. -/
  | peMov (g : Fin 8) (e : Fin 4)
  /-- PE_WAIT (R381): pin-engine WAIT stalls on a lane level, edge or flag. -/
  | peWait (g : Fin 8) (e : Fin 4)
  /-- PE_JMP (R378): pin-engine JMP jumps within the window on a condition. -/
  | peJmp (g : Fin 8) (e : Fin 4)
  /-- PE_FLAG (R385): pin-engine FLAG sets, clears or toggles a shared flag. -/
  | peFlag (g : Fin 8) (e : Fin 4)
  /-- PE_EVT (R381): pin-engine EVT activates the engine's event source. -/
  | peEvt (g : Fin 8) (e : Fin 4)
  /-- HELLO (R397): opens a session. -/
  | hello (h : ReqHdr) (p : List Byte)
  /-- BYE (R402): closes the session. -/
  | bye (h : ReqHdr) (p : List Byte)
  /-- PING (R409): echoes its payload. -/
  | ping (h : ReqHdr) (p : List Byte)
  /-- JOB (R406): returns the state of a job. -/
  | job (h : ReqHdr) (p : List Byte)
  /-- BATCH (R408): executes a sequence of sub-commands in order. -/
  | batch (h : ReqHdr) (p : List Byte)
  /-- GET_MODE (R409): returns the mode, TICK_STAT and FRAME_NUM. -/
  | getMode (h : ReqHdr) (p : List Byte)
  /-- SET_MODE (R435): requests a mode change. -/
  | setMode (h : ReqHdr) (p : List Byte)
  /-- RELEASE (R52): ends overrun or tick-loss safe-hold of the named cores. -/
  | release (h : ReqHdr) (p : List Byte)
  /-- FIRE_HEV (R409): fires host event sources at one edge. -/
  | fireHev (h : ReqHdr) (p : List Byte)
  /-- SET_LOAD (R63): loads a configuration-set image chunk by chunk into the shadow set. -/
  | setLoad (h : ReqHdr) (p : List Byte)
  /-- SET_WRITE (R55): writes words of the shadow set. -/
  | setWrite (h : ReqHdr) (p : List Byte)
  /-- SET_READ (R409): reads words of a configuration set. -/
  | setRead (h : ReqHdr) (p : List Byte)
  /-- SWAP_SET (R56): arms a swap at a named tick. -/
  | swapSet (h : ReqHdr) (p : List Byte)
  /-- SWAP_CANCEL (R57): cancels a checking or armed swap. -/
  | swapCancel (h : ReqHdr) (p : List Byte)
  /-- SWAP_STATUS (R409): returns the swap state and set identities. -/
  | swapStatus (h : ReqHdr) (p : List Byte)
  /-- SET_COPY (R55): copies the active set to the shadow set. -/
  | setCopy (h : ReqHdr) (p : List Byte)
  /-- CORE_HALT (R409): halts the named cores. -/
  | coreHalt (h : ReqHdr) (p : List Byte)
  /-- CORE_START (R409): starts the named cores at an address. -/
  | coreStart (h : ReqHdr) (p : List Byte)
  /-- CORE_LOAD (R409): writes bytes into a halted core's local memory. -/
  | coreLoad (h : ReqHdr) (p : List Byte)
  /-- PAIR_MODE (R278): sets a pair's mode and offset. -/
  | pairMode (h : ReqHdr) (p : List Byte)
  /-- READMIT (R297): requests readmission of a fenced core. -/
  | readmit (h : ReqHdr) (p : List Byte)
  /-- PE_LOAD (R389): loads pin-engine instructions into a group's store. -/
  | peLoad (h : ReqHdr) (p : List Byte)
  /-- IMAGE_INFO (R445): returns the verified slot and manifest digest. -/
  | imageInfo (h : ReqHdr) (p : List Byte)
  /-- READ_BLOCK (R409): reads a block of words as SC. -/
  | readBlock (h : ReqHdr) (p : List Byte)
  /-- SUBSCRIBE (R409): opens a periodic subscription. -/
  | subscribe (h : ReqHdr) (p : List Byte)
  /-- UNSUBSCRIBE (R409): closes a subscription. -/
  | unsubscribe (h : ReqHdr) (p : List Byte)
  /-- FL_PROGRAM (R352): programs flash units in order. -/
  | flProgram (h : ReqHdr) (p : List Byte)
  /-- FL_ERASE (R353): starts a sector-erase job. -/
  | flErase (h : ReqHdr) (p : List Byte)
  /-- FL_LOG_ERASE (R360): performs a logical erase of a data-flash sector. -/
  | flLogErase (h : ReqHdr) (p : List Byte)
  /-- FL_BLANK (R351): starts a blank-check job. -/
  | flBlank (h : ReqHdr) (p : List Byte)
  /-- FL_READ (R366): reads flash units. -/
  | flRead (h : ReqHdr) (p : List Byte)
  /-- FL_PROT (R367): sets the protection level. -/
  | flProt (h : ReqHdr) (p : List Byte)
  /-- DF_HEALTH (R409): returns data-flash health and mapping. -/
  | dfHealth (h : ReqHdr) (p : List Byte)
  /-- OTP_READ (R368): reads OTP bytes with secret bytes as zero. -/
  | otpRead (h : ReqHdr) (p : List Byte)
  /-- BURN_GEN (R370): starts a job that burns an OTP generation. -/
  | burnGen (h : ReqHdr) (p : List Byte)
  /-- REVOKE (R371): revokes an OTP generation. -/
  | revoke (h : ReqHdr) (p : List Byte)
  /-- OTP_STATUS (R409): returns OTP_STAT. -/
  | otpStatus (h : ReqHdr) (p : List Byte)
  /-- CAL_REQ (R95): starts a calibration job for converters and relief converters. -/
  | calReq (h : ReqHdr) (p : List Byte)
  /-- SPARGE_REQ (R341): starts a fast sparge job. -/
  | spargeReq (h : ReqHdr) (p : List Byte)
  /-- LINK_STATUS (R409): returns a link's status. -/
  | linkStatus (h : ReqHdr) (p : List Byte)
  /-- LINK_RETRAIN (R424): starts a job that retrains a link. -/
  | linkRetrain (h : ReqHdr) (p : List Byte)
  /-- LINK_UNQUARANTINE (R424): lifts a HOSTILE link's quarantine and retrains it. -/
  | linkUnquarantine (h : ReqHdr) (p : List Byte)
  /-- DIAG_READ (R409): returns a diagnostic group of counts. -/
  | diagRead (h : ReqHdr) (p : List Byte)
  /-- DIAG_CLEAR (R409): clears a diagnostic group's counts. -/
  | diagClear (h : ReqHdr) (p : List Byte)
  /-- REG_READ (R409): reads registers as SC. -/
  | regRead (h : ReqHdr) (p : List Byte)
  /-- REG_WRITE (R409): writes registers as SC and reads them back. -/
  | regWrite (h : ReqHdr) (p : List Byte)
  /-- REG_MODIFY (R409): read-modify-writes one register as SC. -/
  | regModify (h : ReqHdr) (p : List Byte)
  /-- DBG_HALT (R458): halts a core through the debug port. -/
  | dbgHalt (h : ReqHdr) (p : List Byte)
  /-- DBG_RESUME (R458): resumes a halted core. -/
  | dbgResume (h : ReqHdr) (p : List Byte)
  /-- DBG_READ (R456): reads words in a debug space. -/
  | dbgRead (h : ReqHdr) (p : List Byte)
  /-- DBG_WRITE (R456): writes words in a debug space. -/
  | dbgWrite (h : ReqHdr) (p : List Byte)
  /-- DBG_BREAK (R461): sets a breakpoint or watchpoint unit. -/
  | dbgBreak (h : ReqHdr) (p : List Byte)
  /-- DBG_STEP (R460): steps a halted core one instruction. -/
  | dbgStep (h : ReqHdr) (p : List Byte)
  /-- SPARGE_FAST (R410): self-test 0 runs a fast sparge pass in the background. -/
  | spargeFast (h : ReqHdr) (mask : BitVec 64)
  /-- CAL (R410): self-test 1 queues converter calibrations. -/
  | cal (h : ReqHdr) (mask : BitVec 64)
  /-- FLASH_MARGIN (R410): self-test 2 margin-reads flash banks. -/
  | flashMargin (h : ReqHdr) (mask : BitVec 64)
  /-- OTP_VERIFY (R410): self-test 3 verifies OTP. -/
  | otpVerify (h : ReqHdr) (mask : BitVec 64)
  /-- CMP_SWEEP (R410): self-test 4 sweeps comparators with latches held off. -/
  | cmpSweep (h : ReqHdr) (mask : BitVec 64)
  /-- CORE_BIST (R410): self-test 5 runs the built-in self-test of halted cores or spares. -/
  | coreBist (h : ReqHdr) (mask : BitVec 64)
  /-- ADC_LINEARITY (R410): self-test 6 tests disabled converters. -/
  | adcLinearity (h : ReqHdr) (mask : BitVec 64)
  /-- LINK_LOOPBACK (R410): self-test 7 loops back links. -/
  | linkLoopback (h : ReqHdr) (mask : BitVec 64)
  /-- ECC_PATTERN (R410): self-test 8 tests a quadrant's ECC in DIAGNOSE. -/
  | eccPattern (h : ReqHdr) (mask : BitVec 64)
  /-- PWM_LOOPBACK (R410): self-test 9 toggles PWM pins into their pad loop-back in DIAGNOSE. -/
  | pwmLoopback (h : ReqHdr) (mask : BitVec 64)
  /-- SESSION_TIMEOUT (R402): a session closes after 10 s without a valid request. -/
  | sessionTimeout (n : BitVec 8)
  /-- ASSEMBLY_TIMEOUT (R409): a SET_LOAD assembly with no chunk for 1 s is discarded. -/
  | assemblyTimeout
  /-- SUBSCRIPTION_NOTIFY (R406): a subscription's period ends and its block is sent as a notification or skipped. -/
  | subscriptionNotify (id : BitVec 8)
  /-- FLIT_TRANSMIT (R415): a transmitter begins a flit at a slot edge. -/
  | flitTransmit (n : Fin 4)
  /-- FLIT_RESEND (R413): four slots without acknowledgement resend unacknowledged flits. -/
  | flitResend (n : Fin 4)
  /-- TRAINING_TIMEOUT (R424): training not complete in 10 ms makes the partner ABSENT. -/
  | trainingTimeout (n : Fin 4)
  /-- TRAINING_RETRY (R424): an ABSENT link retries training every 100 ms. -/
  | trainingRetry (n : Fin 4)
  /-- MEMRD (R418): a remote read request is served on the link-side port. -/
  | memrd (n : Fin 4) (r : MemReq) (side : CoreSide)
  /-- MEMWR (R418): a remote write request is served on the link-side port. -/
  | memwr (n : Fin 4) (r : MemReq) (side : CoreSide)
  /-- MEMRSP (R418): a remote-access response completes or fails the requester's access. -/
  | memrsp (n : Fin 4) (tag : BitVec 16) (data : Word) (status : Byte)
  /-- BUSY (R418): a BUSY flit makes the link controller reissue the request or give up. -/
  | busy (n : Fin 4) (tag : BitVec 16)
  /-- REMOTE_ACCESS_TIMEOUT (R419): no response within 8,192 tb cycles takes BUS_ERROR with timeout. -/
  | remoteAccessTimeout (tag : BitVec 16)
  /-- PARTNER_SLOW (R424): a credit wait beyond SLOWT makes the partner SLOW. -/
  | partnerSlow (n : Fin 4)
  /-- ERROR_LIMIT_BREACH (R424): cRC errors beyond the limit retrain the link or make it FAULTY. -/
  | errorLimitBreach (n : Fin 4)
  /-- FRAME_TRANSMIT_COMPLETE (R430): a frame transmit completes and its ring entry's OWN clears. -/
  | frameTransmitComplete (r : RingPort)
  /-- BUS_OFF_RECOVERY (R429): a bus-off controller recovers after 128 recessive sequences. -/
  | busOffRecovery (c : Fin 6)
  /-- UART_RX_TIMEOUT (R431): 32 bit times without a byte raise a receive timeout. -/
  | uartRxTimeout (u : Fin 3)
  /-- DOMAIN_READY (R440): a switched-on domain becomes ready after 20 µs. -/
  | domainReady (d : Fin 85)
  /-- POWER_ON_RESET (R443): a monitored supply below threshold resets the device. -/
  | powerOnReset
  /-- ALWAYS_ON_SUPPLY_RESET (R443): the always-on supply applied or lost resets everything. -/
  | alwaysOnSupplyReset
  /-- PIN_RESET (R443): nRST low for 1 µs resets the device. -/
  | pinReset
  /-- BOOT_END (R447): bOOT ends: COMMISSION is entered, the frame starts and cores start. -/
  | bootEnd
  /-- SHARED_SUPPLY_LOW (R451): the shared-logic supply 50 mV low raises cause SUPPLY. -/
  | sharedSupplyLow
  /-- BYPASS (R454): jTAG BYPASS selects the one-bit register. -/
  | bypass
  /-- IDCODE (R454): jTAG IDCODE selects the identification register. -/
  | idcode
  /-- CLAMP (R454): jTAG CLAMP holds pins from the chain with bypass. -/
  | clamp
  /-- PROTECTION_LOWERING_RESET (R367): the lowering of the protection level completes its clearing and erasing, programs the new
  level and resets the device with SYS_RESET.PROT. -/
  | protectionLoweringReset
  /-- SHARED_SUPPLY_RESTORED (R451): the shared-logic supply returns to within 50 mV of nominal, clearing DROOP_STAT.SHARED_LOW and
  the SUPPLY bit of SH_CAUSE.HOLD. -/
  | sharedSupplyRestored
  /-- UART_BYTE_SENT (R431): a UART finishes transmitting a byte, which leaves the transmit FIFO and may raise the transmit-empty
  event. -/
  | uartByteSent (u : Fin 3)
  /-- WAITS_WAKE (R183): a waited-for sample arrives and the core spends a wake cycle and runs the prefetched instruction. -/
  | waitsWake (c : CoreId)
  /-- INTERRUPT_ENTRY (R260): a recognised interrupt pushes a frame and vectors in 8 core cycles. -/
  | interruptEntry (c : CoreId) (abandon : Option Abandonable)
  /-- SETPEND (R266): a write to IC_SETPEND sets pending bits. -/
  | setpend (c : CoreId) (m : Fin 32) (v : Word)
  /-- CLRPEND (R266): a write to IC_CLRPEND clears pending bits. -/
  | clrpend (c : CoreId) (m : Fin 32) (v : Word)
  /-- WC_LOCK (R273): writing WC_CTL.LOCK locks the world's RWL fields. -/
  | wcLock (c : CoreId) (service : Bool)
  /-- LB_CTL_FLUSH (R180): writing LB_CTL.FLUSH releases the capture. -/
  | lbCtlFlush (c : CoreId)
  /-- LB_CTL_EN (R180): writing LB_CTL.EN turns the loop buffer on or off, releasing the capture on 0. -/
  | lbCtlEn (c : CoreId) (en : Bool)
  /-- SBIND_WRITE (R225): a write to SBINDk clears the sample register and changes its binding. -/
  | sbindWrite (m : Master) (n : Fin 36) (k : Fin 16) (v : Word)
  /-- DBIND_WRITE (R248): a write to DBINDj changes the duty binding and clears its staging. -/
  | dbindWrite (m : Master) (n : Fin 36) (j : Fin 8) (v : Word)
  /-- EARLY_RESULT (R83): an early result is delivered to sample registers, ADC_LAST_E and its event source. -/
  | earlyResult (n : Fin 16) (v : Byte)
  /-- FINAL_RESULT (R83): a final result is delivered to sample registers, ADC_LAST, the queue and its event source. -/
  | finalResult (n : Fin 16) (v relief : Volts)
  /-- ADC_Q_DATA_READ (R84): a read of ADC_Q_DATA returns and removes the oldest entry. -/
  | adcQDataRead (m : Master) (n : Fin 16)
  /-- ADC_Q_FLUSH (R88): writing ADC_Q_CTL.FLUSH empties the queue and discards a pending marker. -/
  | adcQFlush (m : Master) (n : Fin 16)
  /-- ADC_CTL_WRITE (R80): a write to ADC_CTL enables or disables the converter and resets the sequencer on 0 to 1. -/
  | adcCtlWrite (m : Master) (n : Fin 16) (v : Word)
  /-- CAL_REQ_ADC (R95): writing a CAL_REQ.ADC bit requests calibration of a converter. -/
  | calReqAdc (m : Master) (n : Fin 16)
  /-- CAL_REQ_RLA (R95): writing CAL_REQ.RLA requests self-calibration of RLA. -/
  | calReqRla (m : Master)
  /-- CAL_REQ_RLB (R95): writing CAL_REQ.RLB requests self-calibration of RLB. -/
  | calReqRlb (m : Master)
  /-- LATCH_SET (R107): an armed, clear latch sees an outside output, sets and activates its event source. -/
  | latchSet (n : Fin 32) (out : CmpState)
  /-- LATCH_CLEAR (R108): writing 1 to CMPn_STAT.LATCH clears the latch. -/
  | latchClear (m : Master) (n : Fin 32)
  /-- LATCH_SUM_CLEAR (R122): writing LATCH_SUM clears the latches the writer may write. -/
  | latchSumClear (m : Master) (v : Word)
  /-- RELOAD_WRITE (R126): a write to PTn_RLD updates the reload buffer. -/
  | reloadWrite (m : Master) (n : Fin 48) (v : Word)
  /-- SHADOW_WRITE (R131): a write to a compare shadow, transferred immediately under the passed-value rule. -/
  | shadowWrite (m : Master) (n : Fin 48) (cmpB : Bool) (v : Word)
  /-- HOLD_WRITE (R133): writing PTn_CTL.HOLD stages writes or commits staged values on release. -/
  | holdWrite (m : Master) (n : Fin 48) (hold : Bool)
  /-- LOADPH (R150): writing PTn_CTL.LOADPH acts as a RESET sync at the next edge. -/
  | loadph (m : Master) (n : Fin 48)
  /-- UNTRIP (R142): writing PTn_CTL.UNTRIP ends a LATCH trip at the next zero. -/
  | untrip (m : Master) (n : Fin 48)
  /-- GT_CCR_READ (R154): a read of GTn_CCRi clears CAPF. -/
  | gtCcrRead (m : Master) (n : Fin 32) (i : Fin 4)
  /-- LOW_WORD_READ (R157): reading a low word latches the high-word snapshot for that master. -/
  | lowWordRead (m : Master) (w : LowWord)
  /-- CASCADE_LOW_WRITE (R156): a low-word write in a cascade is staged until the high word arrives. -/
  | cascadeLowWrite (m : Master) (w : CascadeLow) (v : Word)
  /-- GT_LOADPH (R151): writing GTn_CTL.LOADPH loads PHASE at the next edge. -/
  | gtLoadph (m : Master) (n : Fin 32)
  /-- FRAME_CTL_WRITE (R47): a write to FRAME_CTL changes PERIOD or starts and stops the frame. -/
  | frameCtlWrite (m : Master) (v : Word)
  /-- REFERENCE_SWITCH (R482): a write to TB_CTL switches the PLL to a new reference via holdover. -/
  | referenceSwitch (m : Master) (v : Word)
  /-- SWAP_ARM (R56): writing SWAP_CTL.ARM requests a swap at SWAP_TARGET. -/
  | swapArm (m : Master)
  /-- SWAP_CTL_CANCEL (R57): writing SWAP_CTL.CANCEL cancels a checking or armed swap. -/
  | swapCtlCancel (m : Master)
  /-- TICK_MARKER (R65): a tick marker arrives and a follower places its next tick. -/
  | tickMarker (link : Fin 4) (num : Word) (period : BitVec 23) (lat : BitVec 12)
  /-- PAIR_MODE_WRITE (R278): a write to RM_PAIRk changes a pair's mode, stopping both cores and starting a copy. -/
  | pairModeWrite (m : Master) (k : Fin 16) (v : Word)
  /-- TRIAGE_END (R288): triage ends and the result decides transient, replacement or retirement. -/
  | triageEnd (k : Fin 16) (mainPass chkPass : Bool)
  /-- RM_READMIT_GO (R297): writing RM_READMIT.GO requests readmission of a fenced core. -/
  | rmReadmitGo (m : Master) (n : Fin 36)
  /-- CH_FIRE (R315): a write to CH_FIRE places an activation in a channel. -/
  | chFire (m : Master) (ch : Fin 256)
  /-- CH_REARM (R320): a write to CH_REARM ends a mute and clears the count. -/
  | chRearm (m : Master) (ch : Fin 256)
  /-- EVCNT_CLEAR (R321): writing EVCNTn_CTL.CLR clears the counter at the next edge. -/
  | evcntClear (m : Master) (n : Fin 32)
  /-- SOFTWARE_FIRE (R41): a write to a fire register activates source SWFn. -/
  | softwareFire (m : Master) (t : FireTarget)
  /-- DMA_GO (R344): writing DMAn_CTL.GO starts a channel at START. -/
  | dmaGo (m : Master) (n : Fin 16) (start : BitVec 11)
  /-- DMA_STOP (R344): writing DMAn_CTL.STOP ends a channel after its current element. -/
  | dmaStop (m : Master) (n : Fin 16)
  /-- ECC_WRITE_BACK (R333): a queued corrected word is written back and re-read. -/
  | eccWriteBack (bank : Fin 64) (persists : Bool)
  /-- SPARGE_REGION_END (R338): a sparge region finishes copy, march and restore. -/
  | spargeRegionEnd (t : SpargeTarget) (failing : List (Fin 16))
  /-- SPG_REQ_GO (R341): writing SPG_REQ.GO starts a fast sparge pass. -/
  | spgReqGo (m : Master) (v : Word)
  /-- PROGRAM (R352): fL_CMD PROGRAM programs a 16-byte unit. -/
  | program (m : Master) (b : Fin 5)
  /-- ERASE_SECTOR (R353): fL_CMD ERASE_SECTOR erases a code-flash sector by pulses. -/
  | eraseSector (m : Master) (b : Fin 5)
  /-- BLANK_CHECK (R351): fL_CMD BLANK_CHECK checks a sector blank. -/
  | blankCheck (m : Master) (b : Fin 5)
  /-- LOG_ERASE (R360): fL_CMD LOG_ERASE moves a logical sector to a fresh physical sector. -/
  | logErase (m : Master) (b : Fin 5)
  /-- FLASH_OPERATION_COMPLETE (R355): a flash operation ends DONE or ERROR and the bank's source activates. -/
  | flashOperationComplete (b : Fin 5) (r : FlashOutcome)
  /-- SUSPEND_POINT (R354): a busy bank reaches a suspend point and serves waiting reads. -/
  | suspendPoint (b : Fin 5) (readsWaiting : Bool)
  /-- BACKGROUND_ERASE_COMPLETE (R363): a background erase ends and the sector is freed or retired. -/
  | backgroundEraseComplete (r : FlashOutcome)
  /-- FL_PROT_SET (R367): writing FL_PROT.SET raises or lowers the protection level. -/
  | flProtSet (m : Master) (level : BitVec 2)
  /-- OTP_CMD_BURN_GEN (R370): oTP_CMD BURN_GEN writes the lowest blank generation. -/
  | otpCmdBurnGen (m : Master) (keyArea : Bool)
  /-- OTP_CMD_REVOKE (R371): oTP_CMD REVOKE programs a revoke bit. -/
  | otpCmdRevoke (m : Master) (keyArea : Bool) (gen : Fin 4)
  /-- OTP_COMMAND_COMPLETE (R370): an OTP command finishes and OTP_RES reports its code. -/
  | otpCommandComplete (verified : Bool)
  /-- PG_GO (R386): writing PGg_CTL.GO starts engines. -/
  | pgGo (m : Master) (g : Fin 8) (mask : BitVec 4)
  /-- PG_STOP (R386): writing PGg_CTL.STOP stops engines. -/
  | pgStop (m : Master) (g : Fin 8) (mask : BitVec 4)
  /-- PG_CLEAR (R386): writing PGg_CTL.CLEAR clears shift state and FIFOs. -/
  | pgClear (m : Master) (g : Fin 8) (mask : BitVec 4)
  /-- PG_RESTART (R386): writing PGg_CTL.RESTART resets engine dividers. -/
  | pgRestart (m : Master) (g : Fin 8) (mask : BitVec 4)
  /-- FLAG_SET_WRITE (R385): writing PGg_FLAGS.SET sets shared flags. -/
  | flagSetWrite (m : Master) (g : Fin 8) (mask : Byte)
  /-- FLAG_CLR_WRITE (R385): writing PGg_FLAGS.CLR clears shared flags. -/
  | flagClrWrite (m : Master) (g : Fin 8) (mask : Byte)
  /-- ENG_TX_WRITE (R384): a write to ENGe_TX adds a word to the output FIFO. -/
  | engTxWrite (m : Master) (g : Fin 8) (e : Fin 4) (v : Word)
  /-- ENG_RX_READ (R384): a read of ENGe_RX removes the oldest input-FIFO entry. -/
  | engRxRead (m : Master) (g : Fin 8) (e : Fin 4)
  /-- PROGRAM_STORE_WRITE (R389): a write to the program store or engine configuration, refused while any engine runs. -/
  | programStoreWrite (m : Master) (g : Fin 8) (t : PeTarget) (v : Word)
  /-- PACKET_RECEIVE (R396): an Ozgan packet is checked in the order of Table 74. -/
  | packetReceive (via : Transport) (pkt : List Byte)
  /-- SELF_TEST_COMPLETE (R410): a self-test ends, its results reach JOB and source 998 activates. -/
  | selfTestComplete (job : Byte) (passed failed : BitVec 64)
  /-- JOB_COMPLETE (R406): a job started by a command completes and its result is kept. -/
  | jobComplete (job : Byte) (status : Byte) (result : List Byte)
  /-- FLIT_RECEIVE (R412): a receiver checks a flit and acts on its events and body. -/
  | flitReceive (n : Fin 4) (flit : List Byte)
  /-- TRAINING_COMPLETE (R416): link training ends and the port is UP. -/
  | trainingComplete (n : Fin 4) (gen : Fin 3) (lat : Byte)
  /-- LANE_LOCK_LOST (R424): lane lock lost for 1 µs takes the link DOWN. -/
  | laneLockLost (n : Fin 4)
  /-- NUMBER_ANNOUNCE (R416): a NUMBER flit carries a numbering request, grant or route announcement. -/
  | numberAnnounce (n : Fin 4) (msg : NumberMsg)
  /-- RETRAIN (R424): writing LKn_CTL.RETRAIN takes the link down and trains again. -/
  | retrain (m : Master) (n : Fin 4)
  /-- OZTX_GO (R423): writing LKn_OZTX.GO sends an Ozgan packet on a link. -/
  | oztxGo (m : Master) (n : Fin 4) (addr : BitVec 18) (len : BitVec 13)
  /-- ETH_FRAME_RECEIVE (R427): an Ethernet frame, its octets from the destination address to the FCS, is parsed for Ozgan,
  ARP or the receive ring. -/
  | ethFrameReceive (p : Fin 2) (frame : List Byte)
  /-- TXGO (R430): writing RINGGO.TXGO makes the port walk its transmit ring. -/
  | txgo (m : Master) (r : RingPort)
  /-- CAN_FRAME_RECEIVE (R429): a CAN frame passes the filters into the receive ring. -/
  | canFrameReceive (c : Fin 6) (f : CanFrame)
  /-- RECOVER (R429): writing CANc_CTL.RECOVER begins bus-off recovery. -/
  | recover (m : Master) (c : Fin 6)
  /-- UART_RECEIVE (R431): a UART byte is received into the FIFO. -/
  | uartReceive (u : Fin 3) (b : Byte) (perr ferr : Bool)
  /-- UART_TX_WRITE (R431): a write to UARTu_DATA adds a byte to the transmit FIFO. -/
  | uartTxWrite (m : Master) (u : Fin 3) (b : Byte)
  /-- UART_DATA_READ (R431): a read of UARTu_DATA removes the oldest received byte. -/
  | uartDataRead (m : Master) (u : Fin 3)
  /-- SPIH_WRITE_TRANSFER (R391): an nCS transfer starting 0x5A delivers one packet, the bytes that follow. -/
  | spihWriteTransfer (mode3 : Bool) (bytes : List Byte)
  /-- SPIH_READ_TRANSFER (R391): an nCS transfer starting 0xA5 returns the oldest reply. -/
  | spihReadTransfer (mode3 : Bool)
  /-- MODE_REQUEST (R435): a write to SYS_MODE with REQV requests a mode change. -/
  | modeRequest (m : Master) (req : Fin 8)
  /-- TEMPERATURE_MEASUREMENT (R480): the junction sensor completes a measurement every 100 µs. -/
  | temperatureMeasurement (t : BitVec 9)
  /-- SC_RESTART_COMPLETE (R438): sC's domain cycle, self-test and image copy after lockup finish. -/
  | scRestartComplete (selfTestPass digestOk : Bool)
  /-- POWER_DOMAIN_ON (R440): writing a PWR_ON bit to 1 powers a domain. -/
  | powerDomainOn (m : Master) (d : Fin 85)
  /-- POWER_DOMAIN_OFF (R440): writing a PWR_ON bit to 0 switches a domain off. -/
  | powerDomainOff (m : Master) (d : Fin 85)
  /-- SWITCH_FAULT (R440): a domain not ready in 100 µs, or losing ready, is held off. -/
  | switchFault (d : Fin 85)
  /-- STARTUP_SELF_TEST_COMPLETE (R441): a core's start-up self-test ends and it passes or is fenced. -/
  | startupSelfTestComplete (n : Fin 36) (pass : Bool)
  /-- SOFTWARE_RESET (R443): writing SYS_RESET.GO with the key resets the device. -/
  | softwareReset (m : Master) (key : Byte)
  /-- POWER_GOOD (R470): all supplies above threshold with nRST high begin BOOT. -/
  | powerGood (f : BootFindings)
  /-- WAKE (R450): a qualified wake source starts BOOT from DORMANT. -/
  | wake (w : WakeSource)
  /-- DROOP_STEP_DOWN (R488): a cluster's core clock steps down to a lower rate. -/
  | droopStepDown (k : Fin 9) (half : Bool)
  /-- DROOP_RESTORE (R451): a recovered supply for 1,024 tb cycles steps the clock back up. -/
  | droopRestore (k : Fin 9)
  /-- HALT (R458): writing DBG_CTL.HALT requests a halt. -/
  | halt (c : CoreId)
  /-- RESUME (R458): writing DBG_CTL.RESUME resumes a halted core. -/
  | resume (c : CoreId)
  /-- STEP (R460): writing DBG_CTL.STEP runs one instruction. -/
  | step (c : CoreId)
  /-- DBGACC_READ (R455): a DBGACC read access in one of the debug spaces. -/
  | dbgaccRead (c : CoreId) (sp : DbgSpace) (addr : Word)
  /-- DBGACC_WRITE (R455): a DBGACC write access in one of the debug spaces. -/
  | dbgaccWrite (c : CoreId) (sp : DbgSpace) (addr : Word) (v : Word)
  /-- SAMPLE_PRELOAD (R454): jTAG SAMPLE/PRELOAD captures the boundary chain. -/
  | samplePreload (chain : List Bool)
  /-- EXTEST (R454): jTAG EXTEST drives pins from the chain where permitted. -/
  | extest (chain : List Bool)
  /-- REGISTER_WRITE (R8): a write to a register without a row of its own acts by its access codes. -/
  | registerWrite (m : Master) (addr : Word) (v : Word)
  /-- CAN_PROTOCOL_ERROR (R429): a CAN controller detects a bus error, updates TEC, REC and LEC, may become error-passive or
  bus-off, and activates source 902 + 3c + 2. -/
  | canProtocolError (c : Fin 6) (e : CanError) (transmitting : Bool)
  /-- PIO_PIN_CHANGE (R381): a PIO input changes level and is latched for every lane that names it, so that a WAIT on a lane edge
  sees the change at its next engine edge. -/
  | pioPinChange (p : Fin 32) (high : Bool)
  deriving DecidableEq, Repr

end Sys2Proof
end

