-- ==== Sys2Proof/WellFormed.lean ====
section
/-! DEFINITION. WellFormed.lean: what a command must hold beyond the types of its operands: immediates within the bits that their
length encodes, payloads and flits of the lengths that the formats allow. The meanings are total: they act on ill-formed commands
too, as on any input from outside. -/

namespace Sys2Proof

/-- The bits of an immediate above its encoded length are zero (R199). -/
def Imm.wf (i : Imm) : Bool :=
  match i.size with
  | .b1 => decide (i.bits.toNat < 256)
  | .b2 => decide (i.bits.toNat < 65536)
  | .b4 => true

def Src.wf : Src → Bool
  | .reg _ => true
  | .imm i => i.wf

/-- The longest payload of an Ozgan packet (Table 73). -/
def payloadMax : Nat := 4096

def payloadOk (p : List Byte) : Bool := decide (p.length ≤ payloadMax)

/-- The bytes that a CAN frame of a DLC carries, classical or FD (R429, ISO 11898-1). -/
def canBytes (fdf : Bool) (dlc : Nat) : Nat :=
  if dlc ≤ 8 then dlc else if fdf then [12, 16, 20, 24, 32, 48, 64].getD (dlc - 9) 64 else 8

def CanFrame.wf (f : CanFrame) : Bool := decide (f.data.length = canBytes f.fdf f.dlc.toNat)

/-- A granted number is 1 to 7; a route has at most 3 hops (R416). -/
def NumberMsg.wf : NumberMsg → Bool
  | .request _ _ => true
  | .grant n _ => decide (n ≠ 0)
  | .noNumber => true
  | .announce _ h => decide (h.val ≤ 3)

/-- The cells of the boundary chain: 96 PWM pins, 32 PIO pins and 51 other digital pins (R454, Table 104; log entry 33). -/
def chainLength : Nat := 179

/-- A command is well formed. -/
def Instr.wf : Instr → Bool
  | .add _ _ _ _ x => x.wf
  | .sub _ _ _ _ x => x.wf
  | .and _ _ _ _ x => x.wf
  | .or _ _ _ _ x => x.wf
  | .xor _ _ _ _ x => x.wf
  | .mul _ _ _ _ x => x.wf
  | .min _ _ _ _ x => x.wf
  | .max _ _ _ _ x => x.wf
  | .cmp _ _ _ x => x.wf
  | .movi _ _ _ i => i.wf
  | .ld _ _ _ _ x _ _ => x.wf
  | .st _ _ _ _ x _ _ => x.wf
  | .lds _ _ _ _ x _ _ => x.wf
  | .atadd _ _ _ _ _ i => i.wf
  | .atswp _ _ _ _ _ i => i.wf
  | .j _ _ disp => disp.wf
  | .call _ _ disp _ => disp.wf
  | .hello _ p => payloadOk p
  | .bye _ p => payloadOk p
  | .ping _ p => payloadOk p
  | .job _ p => payloadOk p
  | .batch _ p => payloadOk p
  | .getMode _ p => payloadOk p
  | .setMode _ p => payloadOk p
  | .release _ p => payloadOk p
  | .fireHev _ p => payloadOk p
  | .setLoad _ p => payloadOk p
  | .setWrite _ p => payloadOk p
  | .setRead _ p => payloadOk p
  | .swapSet _ p => payloadOk p
  | .swapCancel _ p => payloadOk p
  | .swapStatus _ p => payloadOk p
  | .setCopy _ p => payloadOk p
  | .coreHalt _ p => payloadOk p
  | .coreStart _ p => payloadOk p
  | .coreLoad _ p => payloadOk p
  | .pairMode _ p => payloadOk p
  | .readmit _ p => payloadOk p
  | .peLoad _ p => payloadOk p
  | .imageInfo _ p => payloadOk p
  | .readBlock _ p => payloadOk p
  | .subscribe _ p => payloadOk p
  | .unsubscribe _ p => payloadOk p
  | .flProgram _ p => payloadOk p
  | .flErase _ p => payloadOk p
  | .flLogErase _ p => payloadOk p
  | .flBlank _ p => payloadOk p
  | .flRead _ p => payloadOk p
  | .flProt _ p => payloadOk p
  | .dfHealth _ p => payloadOk p
  | .otpRead _ p => payloadOk p
  | .burnGen _ p => payloadOk p
  | .revoke _ p => payloadOk p
  | .otpStatus _ p => payloadOk p
  | .calReq _ p => payloadOk p
  | .spargeReq _ p => payloadOk p
  | .linkStatus _ p => payloadOk p
  | .linkRetrain _ p => payloadOk p
  | .linkUnquarantine _ p => payloadOk p
  | .diagRead _ p => payloadOk p
  | .diagClear _ p => payloadOk p
  | .regRead _ p => payloadOk p
  | .regWrite _ p => payloadOk p
  | .regModify _ p => payloadOk p
  | .dbgHalt _ p => payloadOk p
  | .dbgResume _ p => payloadOk p
  | .dbgRead _ p => payloadOk p
  | .dbgWrite _ p => payloadOk p
  | .dbgBreak _ p => payloadOk p
  | .dbgStep _ p => payloadOk p
  | .tickMarker _ _ period _ => decide (1000 ≤ period.toNat) && decide (period.toNat ≤ 8000000)
  | .spargeRegionEnd _ failing => decide failing.Nodup
  | .flitReceive _ flit => decide (flit.length = 32)
  | .trainingComplete _ gen _ => decide (gen ≠ 0)
  | .numberAnnounce _ msg => msg.wf
  | .canFrameReceive _ f => f.wf
  | .samplePreload chain => decide (chain.length = chainLength)
  | .extest chain => decide (chain.length = chainLength)
  | .nop .. | .fdone .. | .chkpt .. | .lbflush .. | .ret .. | .retx ..
  | .rspush .. | .rspop .. | .setlvl .. | .gate .. | .waits .. | .push ..
  | .pop .. | .jr .. | .shl .. | .shr .. | .sar .. | .mulh ..
  | .mulhu .. | .div .. | .divu .. | .rem .. | .remu .. | .adds ..
  | .subs .. | .mulq .. | .abs .. | .clz .. | .sat .. | .ror ..
  | .mov .. | .tst .. | .mfs .. | .mts .. | .rds .. | .addp ..
  | .callr .. | .loop .. | .mac .. | .msu .. | .macq .. | .accclr ..
  | .accpt .. | .accrd .. | .accgt .. | .fadd .. | .fsub .. | .fmul ..
  | .fmadd .. | .fdiv .. | .fsqrt .. | .fcmp .. | .fcvtf .. | .fcvti ..
  | .fcvtq .. | .fcvtfq .. | .fmin .. | .fmax .. | .fabs .. | .fneg ..
  | .lawpi .. | .lawpid .. | .clarke .. | .park .. | .ipark .. | .sincos ..
  | .svpwm .. | .lawfoc .. | .settle .. | .duty .. | .dutyc .. | .adcTrigger ..
  | .holdEdge .. | .gapMarkerWrite .. | .calibrationDue .. | .calibrationServiceStart .. | .crossCheckComplete .. | .calibrationEnd ..
  | .reliefSelfCalibrationEnd .. | .inPlaceCalibrationEnd .. | .decimatorOutput .. | .sdSync .. | .decimatorStall .. | .decimatorStuck ..
  | .armPointReached .. | .holdOffEnd .. | .zeroEvent .. | .compareMatch .. | .tripEntry .. | .deadTimeExpiry ..
  | .syncEvent .. | .gtZero .. | .gtCompareMatch .. | .gtCapture .. | .ts64Wrap .. | .tick ..
  | .pllLock .. | .referenceFail .. | .swapCheckComplete .. | .swapExchange .. | .tickLost .. | .stateCopyEnd ..
  | .pairedModeEntry .. | .splitReturn .. | .checkpointCompare .. | .sluiceTimeout .. | .pairResume .. | .transientWindowExpiry ..
  | .cellOutputChange .. | .dmaRequest .. | .dmaElement .. | .dmaStarve .. | .writeBackForced .. | .spargeRegionStart ..
  | .flashResume .. | .backgroundEraseStart .. | .peSet .. | .peOut .. | .peIn .. | .pePush ..
  | .pePull .. | .peMov .. | .peWait .. | .peJmp .. | .peFlag .. | .peEvt ..
  | .spargeFast .. | .cal .. | .flashMargin .. | .otpVerify .. | .cmpSweep .. | .coreBist ..
  | .adcLinearity .. | .linkLoopback .. | .eccPattern .. | .pwmLoopback .. | .sessionTimeout .. | .assemblyTimeout ..
  | .subscriptionNotify .. | .flitTransmit .. | .flitResend .. | .trainingTimeout .. | .trainingRetry .. | .memrd ..
  | .memwr .. | .memrsp .. | .busy .. | .remoteAccessTimeout .. | .partnerSlow .. | .errorLimitBreach ..
  | .frameTransmitComplete .. | .busOffRecovery .. | .uartRxTimeout .. | .domainReady .. | .powerOnReset .. | .alwaysOnSupplyReset ..
  | .pinReset .. | .bootEnd .. | .sharedSupplyLow .. | .bypass .. | .idcode .. | .clamp ..
  | .protectionLoweringReset .. | .sharedSupplyRestored .. | .uartByteSent .. | .waitsWake .. | .interruptEntry .. | .setpend ..
  | .clrpend .. | .wcLock .. | .lbCtlFlush .. | .lbCtlEn .. | .sbindWrite .. | .dbindWrite ..
  | .earlyResult .. | .finalResult .. | .adcQDataRead .. | .adcQFlush .. | .adcCtlWrite .. | .calReqAdc ..
  | .calReqRla .. | .calReqRlb .. | .latchSet .. | .latchClear .. | .latchSumClear .. | .reloadWrite ..
  | .shadowWrite .. | .holdWrite .. | .loadph .. | .untrip .. | .gtCcrRead .. | .lowWordRead ..
  | .cascadeLowWrite .. | .gtLoadph .. | .frameCtlWrite .. | .referenceSwitch .. | .swapArm .. | .swapCtlCancel ..
  | .pairModeWrite .. | .triageEnd .. | .rmReadmitGo .. | .chFire .. | .chRearm .. | .evcntClear ..
  | .softwareFire .. | .dmaGo .. | .dmaStop .. | .eccWriteBack .. | .spgReqGo .. | .program ..
  | .eraseSector .. | .blankCheck .. | .logErase .. | .flashOperationComplete .. | .suspendPoint .. | .backgroundEraseComplete ..
  | .flProtSet .. | .otpCmdBurnGen .. | .otpCmdRevoke .. | .otpCommandComplete .. | .pgGo .. | .pgStop ..
  | .pgClear .. | .pgRestart .. | .flagSetWrite .. | .flagClrWrite .. | .engTxWrite .. | .engRxRead ..
  | .programStoreWrite .. | .packetReceive .. | .selfTestComplete .. | .jobComplete .. | .laneLockLost .. | .retrain ..
  | .oztxGo .. | .ethFrameReceive .. | .txgo .. | .recover .. | .uartReceive .. | .uartTxWrite ..
  | .uartDataRead .. | .spihWriteTransfer .. | .spihReadTransfer .. | .modeRequest .. | .temperatureMeasurement .. | .scRestartComplete ..
  | .powerDomainOn .. | .powerDomainOff .. | .switchFault .. | .startupSelfTestComplete .. | .softwareReset .. | .powerGood ..
  | .wake .. | .droopStepDown .. | .droopRestore .. | .halt .. | .resume .. | .step ..
  | .dbgaccRead .. | .dbgaccWrite .. | .registerWrite .. | .canProtocolError .. | .pioPinChange .. => true

/-- The same as a proposition. -/
abbrev Instr.WellFormed (i : Instr) : Prop := i.wf = true

end Sys2Proof
end

