-- ==== Sys2Proof/Decode.lean ====
section
/-! DEFINITION. Decode.lean: spec/opcode_table.json gives bits to none of its rows, so a word spells no command. -/

namespace Sys2Proof

/-- The command that a word of the table spells: none, since no row of the table has bits. -/
def decodeTableWord (_nbits _w : Nat) : Option Instr := none

end Sys2Proof
end

