-- ==== Sys2Proof/Config.lean ====
section
/-! DEFINITION. Config.lean: the values the spec leaves open, as constants without a body (nothing can evaluate them or
prove a value of them), and the fixed figures of the device that several files use. Log entries 2, 3 and 5. -/

namespace Sys2Proof
namespace Config

/-- A fresh byte whose value the spec leaves open: undefined flash units (R356), undefined memory contents (R440), the
undefined data of a collision (R331), the HELLO nonce (R397). Applied to the counter `State.free`. Log entry 2. -/
opaque freeByte : Nat → BitVec 8

/-- Which of the values that lie within 2⁻²⁹ of the exact one the device returns, for each angle and each of the results of
SINCOS, PARK and IPARK (R237). Log entry 3. -/
opaque trigChoice : Nat → List Word → Nat

/-- FMIN and FMAX with a NaN, or with zeros of both signs: which operand counts as the smaller, or whether the NaN wins
(R220 does not say). Log entry 3. -/
opaque fminChoice : Word → Word → Bool

/-- The bit errors that come into memory in a tb cycle: addresses, and whether the unit there can no longer be corrected (R333, R335,
R350). Log entry 8. -/
opaque upset : Nat → List (Nat × Bool)

/-- Whether a local-memory unit still reads in error after its write-back (R173, R336). Applied to the counter `State.free`. Log
entry 8. -/
opaque persists : Nat → Bool

/-- The address of the fire register of an event source (R41, R282), which the memory map does not give. Log entry 32. -/
opaque fireAddr : Nat → BitVec 32

/-- The factory trim of the OTP, bytes 0x2000 to 0x3FFF (Table 68): contents not given. Log entry 5. -/
opaque factoryTrim : Nat → Byte

/-- The MAC address of each Ethernet port, six octets from factory trim (R433). Log entry 5. -/
opaque macOctet : Nat → Byte

end Config
end Sys2Proof
end

