-- ==== Sys2Proof/Machine/Bits.lean ====
section
/-! DEFINITION. Bits.lean: bit fields, sign extension, byte order (R11), saturation and the check codes (CRC-16, CRC-32,
CRC-64) that the rules name. -/

namespace Sys2Proof.Machine

/-- Bits [lo+len-1 : lo] of a word, as a number. -/
def bits (w : Word) (lo len : Nat) : Nat := (w.toNat >>> lo) % 2 ^ len

/-- Bit i of a word. -/
def bit (w : Word) (i : Nat) : Bool := w.getLsbD i

/-- The mask of `len` ones from bit `lo`. -/
def mask (lo len : Nat) : Word := BitVec.ofNat 32 ((2 ^ len - 1) <<< lo)

/-- The word with bits [lo+len-1 : lo] replaced by the low `len` bits of v. -/
def setBits (w : Word) (lo len v : Nat) : Word :=
  (w &&& ~~~ mask lo len) ||| BitVec.ofNat 32 ((v % 2 ^ len) <<< lo)

/-- The word with bit i set to b. -/
def setBit (w : Word) (i : Nat) (b : Bool) : Word :=
  if b then w ||| BitVec.ofNat 32 (1 <<< i) else w &&& ~~~ (BitVec.ofNat 32 (1 <<< i))

/-- A Bool as a bit. -/
def b2n (b : Bool) : Nat := if b then 1 else 0

/-- Addition that saturates at `top` (every counter of the spec that "saturates at"). -/
def satAdd (top n k : Nat) : Nat := min top (n + k)

/-- The bytes of a word, least significant first (R11). -/
def wordBytes (w : Word) : List Byte :=
  [w.extractLsb' 0 8, w.extractLsb' 8 8, w.extractLsb' 16 8, w.extractLsb' 24 8]

/-- The number that bytes spell, least significant first (R11). -/
def leNat : List Byte → Nat
  | [] => 0
  | b :: bs => b.toNat + 256 * leNat bs

/-- n bytes of a number, least significant first. -/
def natBytes : Nat → Nat → List Byte
  | 0, _ => []
  | n + 1, v => BitVec.ofNat 8 v :: natBytes n (v / 256)

/-- A word from bytes (missing ones zero). -/
def leWord (bs : List Byte) : Word := BitVec.ofNat 32 (leNat (bs.take 4))

/-- n bytes of a list from an offset. -/
def slice (bs : List Byte) (off n : Nat) : List Byte := (bs.drop off).take n

/-- A little-endian field of a byte list. -/
def leAt (bs : List Byte) (off n : Nat) : Nat := leNat (slice bs off n)

/-- Words of a byte list, n of them. -/
def wordsOf : Nat → List Byte → List Word
  | 0, _ => []
  | n + 1, bs => leWord bs :: wordsOf n (bs.drop 4)

/-- Replace `new.length` bytes of a list at an offset. -/
def spliceBytes (bs : List Byte) (off : Nat) (new : List Byte) : List Byte :=
  bs.take off ++ new ++ bs.drop (off + new.length)

/-- Limit an integer to [lo, hi]. -/
def clampInt (v lo hi : Int) : Int := max lo (min v hi)

/-- Round num / den (den > 0) to nearest, ties toward positive infinity (R219, R236). -/
def roundUp (num den : Int) : Int := (2 * num + den) / (2 * den)

/-- Round num / den (den > 0) to nearest, ties away from zero (R79, R99, R231). -/
def roundAway (num den : Int) : Int :=
  if num < 0 then -((2 * (-num) + den) / (2 * den)) else (2 * num + den) / (2 * den)

/-- Integer square root of n by bits: the largest r with r * r ≤ n, r below 2 ^ k. -/
def isqrt : Nat → Nat → Nat → Nat
  | 0, _, r => r
  | k + 1, n, r => if (r + 2 ^ k) * (r + 2 ^ k) ≤ n then isqrt k n (r + 2 ^ k) else isqrt k n r

/-- The integer part of the square root of a number below 2 ^ 256. -/
def sqrtNat (n : Nat) : Nat := isqrt 128 n 0

/-- The greatest k with 2 ^ k ≤ n, for n > 0. -/
def topBit (n : Nat) : Nat := Nat.log2 n

/-- The indices below n at which a word has a one. -/
def onesBelow (w : Nat) (n : Nat) : List Nat := (List.range n).filter (fun i => w.testBit i)

/-- Eight steps of a CRC whose register is `width` bits wide, not reflected. -/
def crcShift (width poly : Nat) : Nat → Nat → Nat
  | 0, c => c
  | k + 1, c =>
    let c' := if c.testBit (width - 1) then (2 * c ^^^ poly) % 2 ^ width else (2 * c) % 2 ^ width
    crcShift width poly k c'

/-- A CRC over bytes, most significant bit first, no reflection, no final inversion. -/
def crcMsb (width poly : Nat) (init : Nat) (bs : List Byte) : Nat :=
  bs.foldl (fun c b => crcShift width poly 8 (c ^^^ (b.toNat <<< (width - 8)))) init

/-- CRC-16 with polynomial 0x1021 and initial value 0xFFFF (HCRC, Table 72, Table 89). -/
def crc16 (bs : List Byte) : BitVec 16 := BitVec.ofNat 16 (crcMsb 16 0x1021 0xFFFF bs)

/-- CRC-64 with the ECMA-182 polynomial (R282), from a running value. -/
def crc64 (init : BitVec 64) (bs : List Byte) : BitVec 64 :=
  BitVec.ofNat 64 (crcMsb 64 0x42F0E1EBA9EA3693 init.toNat bs)

/-- Steps of a reflected CRC-32. -/
def crc32Shift : Nat → Nat → Nat
  | 0, c => c
  | k + 1, c => crc32Shift k (if c.testBit 0 then (c >>> 1) ^^^ 0xEDB88320 else c >>> 1)

/-- The IEEE 802.3 CRC-32 (R60). -/
def crc32 (bs : List Byte) : Word :=
  BitVec.ofNat 32
    ((bs.foldl (fun c b => crc32Shift 8 (c ^^^ b.toNat)) 0xFFFFFFFF) ^^^ 0xFFFFFFFF)

/-- A word reads as a signed number. -/
def sval (w : Word) : Int := w.toInt

/-- Saturate an integer to 32 bits, with whether it saturated (R219). -/
def sat32 (v : Int) : Word × Bool :=
  if v > 2147483647 then (0x7FFFFFFF, true)
  else if v < -2147483648 then (0x80000000, true)
  else (BitVec.ofInt 32 v, false)

end Sys2Proof.Machine
end

