-- ==== Sys2Proof/Machine/Crypto.lean ====
section
/-! DEFINITION. Crypto.lean: SHA-256, HMAC-SHA-256 and ECDSA P-256 as FIPS 180-4, RFC 2104 and FIPS 186-4 define them, which R398 and
R445 name. -/

namespace Sys2Proof.Machine

/-! ## SHA-256 (R398, R445) -/

/-- The largest number of n bits whose power `pw` is at most x. -/
def rootBits (pw x : Nat) : Nat → Nat → Nat
  | 0, r => r
  | n + 1, r => rootBits pw x n (if (r + 2 ^ n) ^ pw ≤ x then r + 2 ^ n else r)

/-- The first 32 bits behind the point of a root of a number below 2^9: its square root for pw = 2, its cube root for pw = 3. -/
def rootFraction (pw p : Nat) : Word := BitVec.ofNat 32 (rootBits pw (p * 2 ^ (32 * pw)) 38 0)

/-- The primes below n. -/
def primesBelow (n : Nat) : List Nat :=
  (List.range n).filter (fun p => decide (2 ≤ p) && (List.range p).all (fun d => decide (d < 2) || decide (p % d ≠ 0)))

/-- The 64 round constants, and the eight words from which a digest starts: of cube roots and square roots of the first primes. -/
def shaConstants : List Word := (primesBelow 312).map (rootFraction 3)
def shaStart : List Word := (primesBelow 20).map (rootFraction 2)

/-- A digest in progress as two sequences, newest word first, of which a round reads four each: the standard's a, b, c, d are the last
values of the one, and e, f, g, h of the other. -/
structure ShaState where
  hi : List Word
  lo : List Word
  deriving DecidableEq, Repr

def ShaState.words (x : ShaState) : List Word := x.hi.take 4 ++ x.lo.take 4

/-- Three rotations of a word, added bit by bit. -/
def spread (w : Word) (i j k : Nat) : Word := [i, j, k].foldl (fun v r => v ^^^ w.rotateRight r) 0

/-- The message schedule, newest word first, extended by n words. -/
def shaExtend : Nat → List Word → List Word
  | 0, w => w
  | n + 1, w =>
    let early := w.getD 14 0
    let late := w.getD 1 0
    let fresh := w.getD 15 0 + w.getD 6 0 +
      (early.rotateRight 7 ^^^ early.rotateRight 18 ^^^ early >>> 3) + (late >>> 10 ^^^ late.rotateRight 17 ^^^ late.rotateRight 19)
    shaExtend n (fresh :: w)

/-- A round with the sum of its constant and its message word. -/
def shaStep (x : ShaState) (add : Word) : ShaState :=
  let u := fun (i : Nat) => x.hi.getD i 0
  let v := fun (i : Nat) => x.lo.getD i 0
  let pick := v 2 ^^^ (v 0 &&& (v 1 ^^^ v 2))
  let most := (u 0 &&& (u 1 ||| u 2)) ||| (u 1 &&& u 2)
  let carry := add + v 3 + pick + spread (v 0) 6 11 25
  { hi := (carry + most + spread (u 0) 2 13 22) :: x.hi.take 3, lo := (u 3 + carry) :: x.lo.take 3 }

/-- One block of 64 bytes added to the eight words of a digest; words in a message stand most significant byte first. -/
def shaAbsorb (d : List Word) (blk : List Byte) : List Word :=
  let msg := (List.range 16).map (fun i => leWord ((blk.drop (4 * i)).take 4).reverse)
  let sums := (shaConstants.zip (shaExtend 48 msg.reverse).reverse).map (fun e => e.1 + e.2)
  (d.zip (sums.foldl shaStep ⟨d.take 4, d.drop 4⟩).words).map (fun e => e.1 + e.2)

/-- The first n blocks of a byte list. -/
def shaAbsorbAll : Nat → List Word → List Byte → List Word
  | 0, d, _ => d
  | n + 1, d, bs => shaAbsorbAll n (shaAbsorb d (bs.take 64)) (bs.drop 64)

/-- SHA-256: the message, one bit, zeros up to 8 bytes short of a whole block, and its length in bits. -/
def sha256 (bs : List Byte) : List Byte :=
  let zeros := (119 - bs.length % 64) % 64
  let padded := bs ++ 0x80 :: (List.replicate zeros 0 ++ (natBytes 8 (8 * bs.length)).reverse)
  (shaAbsorbAll ((bs.length + zeros + 9) / 64) shaStart padded).flatMap (fun w => (wordBytes w).reverse)

/-- HMAC-SHA-256. -/
def hmac (key msg : List Byte) : List Byte :=
  let k0 := if 64 < key.length then sha256 key else key
  let k := k0 ++ List.replicate (64 - k0.length) 0
  sha256 (k.map (· ^^^ 0x5C) ++ sha256 (k.map (· ^^^ 0x36) ++ msg))

/-! ## ECDSA P-256 (R445) -/

/-- The prime of the field, the order of the base point, the coefficient b, and the base point. -/
def ecP : Nat := 0xFFFFFFFF00000001000000000000000000000000FFFFFFFFFFFFFFFFFFFFFFFF
def ecN : Nat := 0xFFFFFFFF00000000FFFFFFFFFFFFFFFFBCE6FAADA7179E84F3B9CAC2FC632551
def ecB : Nat := 0x5AC635D8AA3A93E7B3EBBD55769886BC651D06B0CC53B0F63BCE3C3E27D2604B
def ecG : Nat × Nat :=
  (0x6B17D1F2E12C4247F8BCE6E563A440F277037D812DEB33A0F4A13945D898C296,
   0x4FE342E2FE1A7F9B8EE7EB4A7C0F9E162BCE33576B315ECECBB6406837BF51F5)

/-- b to the power of the low n bits of e, modulo m. -/
def powMod (m : Nat) : Nat → Nat → Nat → Nat
  | 0, _, _ => 1
  | n + 1, b, e => (if e % 2 = 1 then b else 1) * powMod m n (b * b % m) (e / 2) % m

/-- The inverse modulo a prime m below 2^256. -/
def invMod (m a : Nat) : Nat := powMod m 256 (a % m) (m - 2)

/-- The sum of two points of the curve; none is the point at infinity. -/
def ecAdd : Option (Nat × Nat) → Option (Nat × Nat) → Option (Nat × Nat)
  | none, q => q
  | some p, none => some p
  | some (x1, y1), some (x2, y2) =>
    if x1 = x2 ∧ (y1 + y2) % ecP = 0 then none
    else
      let l := if x1 = x2 then (3 * x1 * x1 + ecP - 3) * invMod ecP (2 * y1) % ecP
        else (y2 + ecP - y1) * invMod ecP (x2 + ecP - x1) % ecP
      let x3 := (l * l + 2 * ecP - x1 - x2) % ecP
      some (x3, (l * (x1 + ecP - x3) + ecP - y1) % ecP)

/-- A point times the low n bits of k. -/
def ecMul : Nat → Nat → Option (Nat × Nat) → Option (Nat × Nat)
  | 0, _, _ => none
  | n + 1, k, q => ecAdd (if k % 2 = 1 then q else none) (ecMul n (k / 2) (ecAdd q q))

/-- The signature r, s of a digest verifies under the public key X, Y. Each of the four numbers is stored in 32 bytes, the least
significant first as R11 has it (log entry 4); the digest counts as a number with its first byte most significant (FIPS 186-4). -/
def ecdsaVerifies (key digest sig : List Byte) : Bool :=
  let x := leAt key 0 32
  let y := leAt key 32 32
  let r := leAt sig 0 32
  let s := leAt sig 32 32
  let e := leNat digest.reverse
  let w := invMod ecN s
  x < ecP && y < ecP && (y * y) % ecP == (x * x * x + (ecP - 3) * x + ecB) % ecP &&
  0 < r && r < ecN && 0 < s && s < ecN &&
  (match ecAdd (ecMul 256 (e * w % ecN) (some ecG)) (ecMul 256 (r * w % ecN) (some (x, y))) with
   | some q => q.1 % ecN == r
   | none => false)

end Sys2Proof.Machine
end

