-- ==== Sys2Proof/Machine/Sparse.lean ====
section
/-! DEFINITION. Sparse.lean: sparse storage in one canonical form: (key, value) pairs, keys strictly rising, no pair equal
to what an unlisted key reads as. The register file, the configuration sets and every memory use it. -/

namespace Sys2Proof.Machine

/-- Sparse storage: what is listed, and the rest reads as its default. -/
abbrev Sparse (α : Type) := List (Nat × α)

/-- The listed value of a key. -/
def sfind {α : Type} (l : Sparse α) (k : Nat) : Option α :=
  match l with
  | [] => none
  | p :: ps => if p.1 = k then some p.2 else sfind ps k

/-- The value of a key, `d` when the key is not listed. -/
def sget {α : Type} (d : α) (l : Sparse α) (k : Nat) : α :=
  match sfind l k with
  | some v => v
  | none => d

/-- Storage without a key. -/
def serase {α : Type} (l : Sparse α) (k : Nat) : Sparse α := l.filter (fun p => p.1 != k)

/-- Storage with a key put in its place (the key not being listed before). -/
def sinsert {α : Type} (k : Nat) (v : α) : Sparse α → Sparse α
  | [] => [(k, v)]
  | p :: ps => if k < p.1 then (k, v) :: p :: ps else p :: sinsert k v ps

/-- Storage after a write: a value equal to the default removes the key, which keeps the canonical form. -/
def sput {α : Type} [DecidableEq α] (d : α) (l : Sparse α) (k : Nat) (v : α) : Sparse α :=
  if v = d then serase l k else sinsert k v (serase l k)

/-- Keys strictly rising. -/
def skeysRise {α : Type} : Sparse α → Bool
  | [] => true
  | [_] => true
  | p :: q :: r => decide (p.1 < q.1) && skeysRise (q :: r)

/-- The canonical form: keys strictly rising and no value equal to its key's default. -/
def swf {α : Type} [DecidableEq α] (dflt : Nat → α) (l : Sparse α) : Bool :=
  skeysRise l && l.all (fun p => decide (p.2 ≠ dflt p.1))

/-- Storage without the keys of a range [lo, lo + n). -/
def sclear {α : Type} (l : Sparse α) (lo n : Nat) : Sparse α :=
  l.filter (fun p => decide (p.1 < lo) || decide (lo + n ≤ p.1))

end Sys2Proof.Machine
end

