-- ==== Sys2Proof/Machine/State.lean ====
section
/-! DEFINITION. State.lean: everything the spec gives the BQ8840 to remember, as plain data, the reasons a command can stop,
and the machine right after reset. Every addressable register lives in ONE file, `State.regs`, keyed by address: a
peripheral register by its bus address (Table 10), a register of the private space of core n by (n + 1) * 2^32 plus its
address (Table 11), a debug register of core n by (n + 1) * 2^32 + 0xF000_0000 plus its offset (R456). An unlisted register
holds the reset value of Machine/Regs.lean. The structures below hold what has no register. -/

namespace Sys2Proof.Machine

/-! ## Timers (chapter 5) -/

/-- A PWM timer beyond its registers. -/
structure PwmState where
  /-- PTn_CNT (R124). -/
  cnt : Nat
  /-- PTn_RLD, PTn_SHA and PTn_SHB as the current cycle shows them: a write shows at the next edge (R126, R130). -/
  rld : Word
  sha : Word
  shb : Word
  /-- An IMMEDIATE transfer is due at the next edge (R130). -/
  immA : Bool
  immB : Bool
  /-- Values staged while HOLD is 1 (R133). -/
  stRld : Option Word
  stShA : Option Word
  stShB : Option Word
  /-- The action levels LA and LB, and LA in the cycle before (R136, R148). -/
  la : Bool
  lb : Bool
  laPrev : Bool
  /-- The events of the current cycle, which act on the levels at the next edge (R137); a compare keeps its fraction. -/
  evZ : Bool
  evA : Option (Fin 32)
  evB : Option (Fin 32)
  /-- The outputs of the dead-time stage, and the rises that wait for their dead time, in 1/32 tb cycles (R138, R139). -/
  dA : Bool
  dB : Bool
  riseA : Option Nat
  riseB : Option Nat
  /-- The times of the last change and of the last rise of these outputs, in 1/32 tb cycles (R137, R138): a pulse that begins and ends
  within one cycle shows in these alone. -/
  edgeA : Nat
  edgeB : Nat
  roseA : Nat
  roseB : Nat
  /-- The levels at which the trip stage fixes the pins while TRIP_DIRECT is 1 (R141). -/
  fixA : Option Bool
  fixB : Option Bool
  /-- The trip line in the current cycle (R140). -/
  tripLine : Bool
  /-- A RESET sync or LOADPH is due at the next edge (R150); a CLOCK or GATE step comes from the sync input itself. -/
  loadph : Bool
  /-- Each pin: in safe-hold, the condition has ended and a zero has come since, and, while HOLD acts, the level it keeps (R145,
  R147). -/
  shA : Bool
  shB : Bool
  zsA : Bool
  zsB : Bool
  holdA : Option Bool
  holdB : Option Bool
  /-- The driven levels after all four stages, none for high impedance (R135). -/
  pinA : Option Bool
  pinB : Option Bool
  deriving DecidableEq, Repr

/-- A general timer beyond its registers. In a cascade the even timer's `cnt` is the low word, the odd one's the high. -/
structure GtState where
  /-- GTn_CNT (R151). -/
  cnt : Nat
  /-- GTn_RLD as the current cycle shows it (R126). -/
  rld : Word
  /-- Low words staged in a cascade (R156). -/
  stRld : Option Word
  stCcr : Vector (Option Word) 4
  /-- A LOADPH is due at the next edge. -/
  loadph : Bool
  /-- Pin captures under way: the edge at which the register takes the value, the channel, the 64-bit value (R153). -/
  caps : List (Nat × Nat × Nat)
  deriving DecidableEq, Repr

/-! ## Sample sources and comparators (chapters 3, 4) -/

/-- A converter beyond its registers. -/
structure AdcState where
  /-- A sequence or slot has been triggered and has not had its last final result, and the edge of the last one that had (R78). -/
  busy : Bool
  ended : Option Nat
  /-- The edge G of the trigger that the slots count from (R75). -/
  trigAt : Nat
  /-- The slot to execute next (ADC_STAT.NEXT). -/
  slot : Nat
  /-- The word of the slot in execution and the number of its conversions already held. -/
  word : Word
  convs : Nat
  /-- The scheduled edge of the next hold, and whether R77 moved it. -/
  nextHold : Option Nat
  acq : Nat
  late : Bool
  /-- The hold edge of the conversion under way, and whether its early result has been delivered. -/
  inFlight : Option Nat
  earlyDone : Bool
  /-- The value of that early result, and whether a relief converter has held at the same edge (R73, R91). -/
  earlyVal : Int
  par : Bool
  /-- The sequence or slot in progress was triggered in STEP mode (R80). -/
  step : Bool
  /-- The sum of the slot's final values so far (R79). -/
  sum : Int
  /-- The edge at which the converter became free, from which the next input is tracked (R77), and that input. -/
  freeAt : Nat
  tracked : Nat
  /-- The later slots of the sequence are abandoned once this slot completes (R80). -/
  abandon : Bool
  /-- The limit checker's verdict due at A + 40, and whether the previous judged result was outside (R89). -/
  verdict : Option Bool
  prevOut : Bool
  /-- The sample queue, oldest first, the pending gap marker and whether its place has been freed (R84, R85). -/
  queue : List Word
  gap : Option Word
  gapDue : Bool
  /-- A final word that found the queue full, with its sequence number, to be judged at the end of the cycle (R86). -/
  offer : Option (Word × Nat)
  /-- The edge at which the converter's last calibration ended (R90). -/
  calEnd : Nat
  /-- A write of 1 to EN during a calibration in place (R96). -/
  enPend : Bool
  deriving DecidableEq, Repr

/-- A relief converter and its group's calibration queue (R90 to R97). -/
structure ReliefState where
  /-- Converters queued, oldest first, and those whose calibration was requested (R95). -/
  queue : List (Fin 16)
  requested : List (Fin 16)
  /-- The converter being served. -/
  target : Option (Fin 16)
  /-- The parallel conversions made, the sum of their differences, the largest single one (R91, R92). -/
  count : Nat
  sumDiff : Int
  maxDiff : Nat
  /-- The edges H and C (R93, R94). -/
  handOver : Nat
  calEnd : Nat
  /-- The target's calibration has ended and it takes back at its next slot (R94). -/
  calDone : Bool
  /-- Self-calibration: requested, the one under way was requested (R95), and the edge at which the last one ended. -/
  selfReq : Bool
  selfAsked : Bool
  selfEnd : Nat
  deriving DecidableEq, Repr

/-- A sinc3 decimator beyond its registers (R98 to R102). -/
structure SdState where
  /-- The last bits shifted in, newest first, true for +1 (at most 3 * 256 − 2). -/
  bits : List Bool
  /-- The bit count towards the next output. -/
  count : Nat
  /-- Outputs still to be suppressed after a sync. -/
  suppress : Nat
  /-- Length of the run of equal bits, and the edge of the last bit. -/
  run : Nat
  lastBit : Nat
  /-- Outputs under way: the edge at which each is delivered and its value (R100). -/
  out : List (Nat × Word)
  /-- Sync activations take effect one edge later (R101). -/
  syncDue : Bool
  deriving DecidableEq, Repr

/-- A comparator beyond its registers (chapter 4). -/
structure CmpCore where
  /-- The 26-bit ramp accumulator (R117). -/
  acc : Nat
  /-- Edges of the enable hold-off still to come (R113), and of the guard of R487. -/
  holdOff : Nat
  guard : Nat
  /-- What the analogue comparison last showed: it persists until the outside world says otherwise. -/
  raw : CmpState
  deriving DecidableEq, Repr

/-! ## The event fabric (chapter 11) -/

/-- A logic cell's state: flip-flop, filter count, filtered output and output of the cycle before (R305 to R307). -/
structure CellState where
  q    : Bool
  k    : Nat
  y    : Bool
  out  : Bool
  deriving DecidableEq, Repr

/-- The event fabric beyond its registers. -/
structure Fabric where
  /-- Sources active in this cycle, and channels fired by software in it (R300, R315). -/
  feed  : List Nat
  fired : List (Fin 256)
  /-- Sources clocked by a core clock whose condition has occurred since the last edge: they activate at the next (R38). -/
  coreFires : List Nat
  /-- The register stages that hold an activation, and those whose capture was merged with a fire (R300, R313). -/
  stage  : BitVec 256
  merged : BitVec 256
  /-- Logic cells that are not in their reset state. -/
  cells : Sparse CellState
  /-- Cells that have been moved on within this cycle, with what they show in it. -/
  ended : Sparse (Bool × Bool × Bool × Bool)
  /-- Event counters whose CLR was written in this cycle (R321). -/
  evClr : BitVec 32
  /-- A swap has worked out the depths of the cells (R308). -/
  swapped : Bool
  deriving DecidableEq, Repr

/-! ## Cores (chapters 6 to 9) -/

/-- The causes of BUS_ERROR (Table 55): timeout, ECC-uncorrectable, DENIED, fenced. -/
inductive BusCause where
  | timeout | ecc | denied | fenced
  deriving DecidableEq, Repr

/-- How far a core can execute. -/
inductive RunState where
  /-- Executing instructions. -/
  | running
  /-- Halted: by BOOT, by command, by the redundancy manager or by debug (R409, R458). -/
  | halted
  /-- In a WAITS for sample register n, for its final or its early word (R182). -/
  | waiting (n : Fin 16) (final : Bool)
  /-- In a memory state whose access is out on a link (R417). -/
  | remote
  /-- In the entry of an interrupt whose vector word cannot be read: the fault of E6 is raised there (R262, R268). -/
  | vector
  /-- Stopped by lockup until its domain is reset (R258). -/
  | lockup
  deriving DecidableEq, Repr

/-- A return-stack entry: address, mask of saved registers and world, true for Service (R215). -/
structure RetEntry where
  addr  : Word
  mask  : BitVec 16
  world : Bool
  deriving DecidableEq, Repr

/-- A core beyond its private registers: what an instruction reads and writes. -/
structure CoreState where
  /-- w1 to w30; w0 reads 0 and w31 is the stack pointer of the current world and level (R196, R249). -/
  gpr : Vector Word 30
  /-- The stack pointers SP_U and SP_S of each world, at 2 * world + level (R249). -/
  sp : Vector Word 4
  /-- acc0 to acc3 (Table 36). -/
  acc : Vector (BitVec 72) 4
  /-- The sample registers s0 to s15 and their fresh flags NEWE and NEWF (R226). -/
  smp : Vector Word 16
  newE : BitVec 16
  newF : BitVec 16
  /-- The values staged in the duty registers d0 to d7 (R232). -/
  duty : Vector (Option Word) 8
  /-- ST (R197). -/
  st : Word
  /-- lc, ls and le of the two loop levels, and which levels are suspended (R211, R265). -/
  lc : Vector Word 2
  ls : Vector Word 2
  le : Vector Word 2
  susp : BitVec 2
  /-- The address of the next instruction. -/
  pc : Word
  /-- The return stack, top first, at most 16 entries (R215). -/
  rstack : List RetEntry
  /-- The load shadow: a register whose loaded value shows after the next instruction's first execute state (R203). -/
  shadow : Option (Reg × Word)
  /-- No interrupt is recognised at the next boundary (R206). -/
  noInt : Bool
  run : RunState
  /-- The instruction after a WAITS stands prefetched (R182): its fetch words read, and the fault that its fetch met, by cause and
  address; and the address of that WAITS (R184). -/
  prefetched : Bool
  preWords : Nat
  preFault : Option (BusCause × Nat)
  waitPc : Word
  /-- The fetch states of an instruction that waits for its sample or its access; none for one that stood prefetched itself. -/
  own : Option Nat
  /-- The edge at which the start-up self-test that runs can end (R441). -/
  testEnd : Option Nat
  /-- A halt was requested and takes effect at the next boundary (R458); the next instruction is a debug step (R460). -/
  haltReq : Bool
  stepping : Bool
  /-- The core has just been resumed: the instruction at its pc is not tested against the breakpoints again. -/
  resumed : Bool
  /-- The crossing records for IM levels 1 to 15: the frame's base (R264). -/
  cross : Vector (Option Word) 16
  /-- The vectors of the handlers under way, innermost first (IC_STAT.VEC). -/
  vecs : List Nat
  /-- The loop-buffer capture: its base, the number of words in its range, the words captured (R177); the level, ls and le of the loop
  that started it (R180). -/
  lbBase : Option Word
  lbLen : Nat
  lbCap : BitVec 16
  lbLevel : Fin 2
  lbLs : Word
  lbLe : Word
  /-- Core cycles that this core's instructions have taken (R164), and instructions retired. -/
  cycles : Nat
  retired : Nat
  deriving DecidableEq, Repr

/-! ## Pairs (chapter 10) -/

/-- An output of a pair in the sluice (R284): a store, or a duty write or release with the values that the main had staged. -/
inductive PairOut where
  | store (addr : Word) (size : Nat) (data : Word) (world level : Bool)
  | fire (t : FireTarget) (world level : Bool)
  | duty (j : Fin 8) (kind : Fin 3) (first second : Word) (staged : List (Option Word))
  deriving DecidableEq, Repr

/-- An entry of the agreement buffer (R279): its sequence number (retired count, index of the read) and the value; for a
load that failed, the cause. -/
structure AgreeEntry where
  count : Nat
  index : Nat
  value : Word
  cause : Option (Fin 5)
  deriving DecidableEq, Repr

/-- A checkpoint that a copy has ended: kind (0 CHKPT, 1 FDONE, 2 count), count and signature (R283). -/
structure Checkpoint where
  kind  : Fin 3
  count : Nat
  sig   : BitVec 64
  deriving DecidableEq, Repr

/-- What the redundancy manager does with a pair: at the core edge after a command the stop of both copies and the start of the
copy (R278); from the end of the 32,000 cycles of a triage on, its judgement (R288); at the edge after that, what follows (R289). -/
inductive PairAct where
  | enter | triage | triaged
  deriving DecidableEq, Repr

/-- A pair beyond its registers. -/
structure PairState where
  /-- The mode in force: 0 SPLIT, 1 LOOSE-CHECKPOINT, 2 LOOSE-OUTPUT, and the mode waiting for a tick (R278). -/
  mode : Fin 3
  next : Option (Fin 3)
  /-- The agreement buffer and the sluice, oldest first (R280, R285). -/
  agree  : List AgreeEntry
  sluice : List PairOut
  /-- Signatures, retired counts, instructions since the last checkpoint, reads within the instruction: main, checker. -/
  sigM : BitVec 64
  sigC : BitVec 64
  cntM : Nat
  cntC : Nat
  sinceM : Nat
  sinceC : Nat
  idxM : Nat
  idxC : Nat
  /-- Checkpoints ended and not yet compared. -/
  ckM : List Checkpoint
  ckC : List Checkpoint
  /-- The main's interrupts not yet taken by the checker (R281): count and vector, plus 4096 where it is chained and 8192 where its
  entry abandoned an instruction (R189). -/
  ints : List (Nat × Nat)
  /-- The count at which the main halted, for the checker (R298), and the debugger writes to replay: count, key, value. -/
  haltAt : Option Nat
  dbgLog : List (Nat × Nat × Word)
  /-- Ticks left of the transient window (R294). -/
  twin : Nat
  /-- The copy under way follows a triage, so the pair resumes at RM_RESUMEk (R292); the copy's source is the main role. -/
  recovery : Bool
  /-- Readmitted cores of C0 to C31 that are spares of this pair (R297). -/
  ownSpares : List (Fin 36)
  /-- What falls due, and its tb edge. -/
  act : Option (Nat × PairAct)
  deriving DecidableEq, Repr

/-! ## Interrupt entry -/

/-- An interrupt entry under way (R260, R268): the vector, priority and world selected, the edges of E5 and of the handler's first
instruction, and what the core held at E1. -/
structure Entering where
  core   : Fin 37
  vec    : Nat
  prio   : Nat
  world  : Bool
  final  : Nat
  begins : Nat
  pc     : Word
  st     : Word
  sp     : Vector Word 4
  cross  : Vector (Option Word) 16
  susp   : BitVec 2
  vecs   : List Nat
  cycles : Nat
  sig    : BitVec 64
  deriving DecidableEq, Repr

/-! ## Bus accesses -/

/-- How the last register access made by a command of its own (not by an instruction) ended, and the data of a read. -/
structure BusResp where
  cause : Option BusCause
  data  : Word
  deriving DecidableEq, Repr

/-- A snapshot of a high word, held for one master until its next read of that word (R157, R462). -/
structure Snapshot where
  master : Nat
  key    : Nat
  value  : Word
  deriving DecidableEq, Repr

/-! ## Shared SRAM, DMA, sparge (chapter 12) -/

/-- A DMA channel beyond its registers: addresses of the next element, words 2, 3 and 4 of its descriptor as loaded. -/
structure DmaState where
  src  : Word
  dst  : Word
  size : Word
  attr : Word
  own  : Word
  /-- STOP has been written and acts after the element in progress. -/
  stop : Bool
  /-- An access of the element is out on a link. -/
  out : Bool
  /-- The edge from which the pending request, or its next element, waits at the least, and the banks that a wait has been reported
  for (R328). -/
  since : Nat
  starved : List (Fin 64)
  deriving DecidableEq, Repr

/-- A queued ECC write-back: the word, whether it is forced, and the edge since which it waits (R325, R333). -/
structure WriteBack where
  addr   : Nat
  forced : Bool
  since  : Nat
  deriving DecidableEq, Repr

/-- A sparge (R338 to R341): the next region, a region under test, a start that came due meanwhile, the regions left of a
fast pass, and whether a pass ended since PASSES last counted. -/
structure SpargeState where
  next : Nat
  busy : Bool
  due  : Bool
  fast : Nat
  done : Bool
  /-- March failures of the fast pass under way. -/
  fails : Nat
  /-- The edge at which the next region falls due (R340). -/
  dueAt : Nat
  deriving DecidableEq, Repr

/-! ## Flash and OTP (chapter 13) -/

/-- A unit of a header row: blank, partly programmed, or written with its two middle fields (Table 67). -/
inductive HdrUnit where
  | blank
  | torn
  | written (a b : Nat)
  deriving DecidableEq, Repr

/-- A physical sector of the data flash: its header row, and whether a failed program marked it (R360, R363). -/
structure DfSector where
  u0 : HdrUnit
  u1 : HdrUnit
  u2 : HdrUnit
  u3 : HdrUnit
  marked : Bool
  deriving DecidableEq, Repr

/-- The operation a bank runs: addresses are bytes of the flash space (code flash from 0, physical data flash from 2^24). -/
inductive FlashOp where
  | program (at_ : Nat) (data : List Byte)
  | eraseSector (at_ : Nat)
  | blankCheck (at_ len : Nat)
  /-- LOG_ERASE of a logical sector into a physical one, none while it waits for a free sector (R361). -/
  | logErase (sec : Fin 8) (dest : Option Nat)
  deriving DecidableEq, Repr

/-- A flash bank beyond its registers: the unit of its read line, with its data where that unit was undefined (R348, R356), its
operation and the edge at which that started; of the data flash a command that waits for a suspend point of the background erase,
and whether that erase stands at one (R362); the reads served at a suspend point and the edge of the last (R354). -/
structure FlBank where
  line   : Option Nat
  held   : Option (List Byte)
  op     : Option FlashOp
  since  : Nat
  wait   : Option (Nat × Nat × List Byte)
  paused : Bool
  served : Nat
  last   : Nat
  deriving DecidableEq, Repr

/-- The OTP command that runs: BURN_GEN of an area into a generation, or REVOKE of a bit of the revoke word. -/
inductive OtpOp where
  | burn (key : Bool) (gen : Fin 4) (image : List Byte)
  | revoke (bit : Fin 8)
  deriving DecidableEq, Repr

/-! ## Pin engines (chapter 14) -/

/-- A pin engine beyond its registers (R374). -/
structure PeEngine where
  pc : Nat
  sr : Word
  fc : Nat
  ct : BitVec 16
  /-- The input and output FIFOs, oldest first, and the last word pulled. -/
  inq  : List Word
  outq : List Word
  last : Word
  /-- Words written to ENGe_TX in this cycle, which enter at the next edge (R384). -/
  txIn : List Word
  /-- The run latch, a stalled instruction, the idle engine cycles left, the divider. -/
  run   : Bool
  stall : Bool
  delay : Nat
  div   : Nat
  /-- Lane edges latched since the last engine edge: rises and falls (Table 71, WAIT). -/
  rises : BitVec 4
  falls : BitVec 4
  /-- The levels and directions last set on the pins of the group (R379). -/
  lvl : BitVec 4
  dir : BitVec 4
  /-- A blocking PUSH has found the input FIFO full at this edge: a read of the same edge still makes room (R384). -/
  full : Bool
  /-- The word of a PUSH of this edge, which enters the input FIFO after the reads of the edge (R384). -/
  push : Option Word
  /-- A command has executed the instruction of the engine edge that is next. -/
  ahead : Bool
  deriving DecidableEq, Repr

/-- A group of pin engines: the shared flags, those set so far at the edge under way or ahead of it (R385), and what has been written
in this cycle and acts at the next edge: the bits of PGg_FLAGS (R385), and the words of PGg_CTL with their masters, in ascending
identity (R386, R9). -/
structure PeGroup where
  flags : BitVec 8
  setF  : BitVec 8
  setIn : BitVec 8
  clrIn : BitVec 8
  ctl   : List (Nat × BitVec 16)
  eng   : Vector PeEngine 4
  deriving DecidableEq, Repr

/-- The PIO pins: the level that the outside drives, the two stages of the synchroniser, the value that lanes hold (R379),
and the levels and directions that the device shows in this cycle. -/
structure PioState where
  level : BitVec 32
  sync1 : BitVec 32
  sync2 : BitVec 32
  lane  : BitVec 32
  out   : BitVec 32
  dir   : BitVec 32
  deriving DecidableEq, Repr

/-! ## The command engine (chapter 15) -/

/-- A session (R397 to R403). -/
structure Session where
  via  : Transport
  gen  : Nat
  auth : Bool
  /-- The session key, empty when unauthenticated. -/
  key  : List Byte
  top  : BitVec 16
  /-- Bit i: number TOP − i has been recorded. -/
  seen : BitVec 64
  /-- Requests past step 8 and not answered, consecutive tag failures, the edge of the last request past step 8. -/
  open_  : Nat
  tagBad : Nat
  last   : Nat
  /-- Notifications sent, those not acknowledged by a later request, and the host's free buffers as last advertised. -/
  notes  : Nat
  unack  : Nat
  bufs   : Nat
  deriving DecidableEq, Repr

/-- A request that has passed step 9 and waits for SC (R405). -/
structure OzReq where
  h   : ReqHdr
  op  : Nat
  pay : List Byte
  deriving DecidableEq, Repr

/-- What a job does: an erase or blank check of a bank, a burn of OTP, a self-test on a mask of targets, a calibration of
converters and of relief converters, a sparge pass, a retraining. -/
inductive JobKind where
  | erase (b : Fin 5)
  | blank (b : Fin 5)
  | burn
  | test (n : Nat) (mask : BitVec 64)
  | cal (adcs : BitVec 16) (rl : BitVec 2)
  | sparge (t : SpargeTarget)
  | retrain (n : Fin 4)
  deriving DecidableEq, Repr

/-- A job (R406). -/
structure Job where
  num    : Byte
  kind   : JobKind
  run    : Bool
  status : Byte
  result : List Byte
  deriving DecidableEq, Repr

/-- A subscription (Table 79). -/
structure Subscription where
  id     : BitVec 8
  sess   : BitVec 8
  addr   : Word
  len    : Nat
  period : Nat
  left   : Nat
  skip   : Nat
  deriving DecidableEq, Repr

/-- What a command in execution waits for before its reply can be sent. -/
inductive OzWaitKind where
  /-- The end of a swap check (R56). -/
  | swap
  /-- A change of mode, which the next edge brings (R405, R435). -/
  | mode
  /-- The units of an FL_PROGRAM: bank, next unit, data left, units done. -/
  | flash (b : Fin 5) (unit : Nat) (left : List Byte) (done : Nat)
  | logErase (sec : Fin 8)
  | otp
  /-- A core that is to halt (DBG_HALT) or to end its step (DBG_STEP). -/
  | halted (c : CoreId) (step : Bool)
  /-- The cores that a CORE_HALT is halting. -/
  | cores (mask : BitVec 36)
  /-- A remote window's answer: the command runs again with the answers so far (R417). -/
  | remote (pay : List Byte)
  deriving DecidableEq, Repr

/-- The command whose reply is outstanding; inside a batch, the replies gathered and the sub-commands left (R408). -/
structure OzWait where
  h     : ReqHdr
  op    : Nat
  batch : Option (List Byte × List Byte)
  kind  : OzWaitKind
  deriving DecidableEq, Repr

/-- The assembly of a SET_LOAD image. -/
structure Assembly where
  sess  : BitVec 8
  total : Nat
  bytes : List Byte
  last  : Nat
  deriving DecidableEq, Repr

/-- The command engine. -/
structure OzState where
  sessions : Vector (Option Session) 8
  /-- Requests past step 9, oldest first, and the command that waits for its end. -/
  queue : List OzReq
  wait  : Option OzWait
  /-- Replies waiting at SPIH with their session, the refusal slot, and the bytes of the last read transfer. -/
  spih    : List (BitVec 8 × List Byte)
  refusal : Option (List Byte)
  spihOut : List Byte
  /-- Packets handed to the transports, newest first. -/
  sent : List (Transport × List Byte)
  jobs : List Job
  nextJob : Byte
  subs : List Subscription
  load : Option Assembly
  /-- DROP, BAD_CRC, DENIED, SEQ_REPLAY, BUSY, tag failures (Table 84). -/
  counts : Vector Word 6
  /-- Answers of remote windows that the waiting command has got. -/
  memo : List (Option BusCause × Word)
  /-- The level of an FL_PROT whose lowering begins with its reply (R367). -/
  lower : Option (Fin 3)
  deriving DecidableEq, Repr

/-! ## Links and interfaces (chapter 16) -/

/-- A flit to be sent: type, ROUTE, TAG and BODY (Table 89), and the edge at which it came. -/
structure FlitReq where
  ty    : Nat
  route : Nat
  tag   : BitVec 16
  body  : List Byte
  since : Nat
  deriving DecidableEq, Repr

/-- A link port beyond its registers. -/
structure LinkState where
  /-- Next SEQ, flits sent and not acknowledged, oldest first, those to be sent again, slots without acknowledgement. -/
  seq    : Nat
  unack  : List (List Byte)
  resend : List (List Byte)
  quiet  : Nat
  /-- Credits held for sending, credits to return, credited flits held in the receive entries (R414). -/
  credit : Nat
  owe    : Nat
  held   : Nat
  /-- SEQ awaited, how many flits from it on were sent before, so that they come as resent copies, the SEQs whose events were delivered
  while their body still waits to be accepted (R413), and the flits whose CRC is still to be checked, oldest first: the edge at which
  it is, the bytes, and whether the flit is a first copy (R412). -/
  rxSeq  : Nat
  gap    : Nat
  evSeen : List Nat
  checks : List (Nat × List Byte × Bool)
  /-- Flits waiting: without credit, with credit; numbering messages to send; a TICK body and the edge from which it may begin;
  the edge from which slot edges count (R415); the event slots pending, and those activated at this edge, which a flit of a later
  one takes (R420). -/
  ctl   : List FlitReq
  req   : List FlitReq
  nums  : List NumberMsg
  tick  : Option (Nat × List Byte)
  slot0 : Nat
  slots : BitVec 64
  slotsNew : BitVec 64
  /-- The Ozgan packet being received; OZGAN flits whose entries stay held while LKn_OZRX.FULL is 1, and the replies that
  have arrived meanwhile, oldest first (R423). -/
  oz : Option (List Byte)
  ozHeld : Nat
  ozWait : List (List Byte)
  /-- CRC errors and flits of the current window, and the edge of the retraining that a breach caused (Table 91). -/
  errs   : Nat
  flits  : Nat
  breach : Option Nat
  /-- The edge at which a flit was last begun (R415). -/
  begun : Nat
  /-- The last flit begun, and the numbers that the partner has announced with their hop counts (R416). -/
  last : List Byte
  ann  : List (Nat × Nat)
  deriving DecidableEq, Repr

/-- A load or store of one datum: the register loaded, the size, sign extension, the 0xF5 form, whether it is a POP, the
effective address, and the instruction's length and execute states. -/
structure DataOp where
  a    : Reg
  sz   : MemSize
  sext : Bool
  una  : Bool
  pop  : Bool
  ea   : Word
  len  : Nat
  deriving DecidableEq, Repr

/-- What a remote access serves: a load or store of a core with the words it has got or the half it has written, a RET or
RETX that reads its stack there, a DMA channel, a command of the command engine, the debug port, or nobody (a store that
left the sluice). -/
inductive RemoteUse where
  | load (c : CoreId) (op : DataOp) (got : List Word)
  | store (c : CoreId) (op : DataOp) (data : Word) (second : Bool)
  | ret (c : CoreId) (retx : Bool) (got : List Word)
  | dmaRead (n : Fin 16)
  | dmaWrite (n : Fin 16)
  | command
  | ozgan
  | debug
  | sluice
  deriving DecidableEq, Repr

/-- A remote access that has had no answer (R417 to R419). -/
structure RemoteReq where
  tag   : BitVec 16
  link  : Fin 4
  addr  : Word
  write : Bool
  data  : Word
  mask  : BitVec 4
  world : Bool
  busy  : Nat
  since : Nat
  use   : RemoteUse
  deriving DecidableEq, Repr

/-- A read that waits before it is made: the master that makes it, its address, and what it serves. -/
structure Stall where
  master : Nat
  addr   : Word
  use    : RemoteUse
  deriving DecidableEq, Repr

/-- An Ethernet port or CAN controller beyond its registers: the places in its rings, the transmit walk, captures that have
been read (R428), bus-off recovery under way, the octets of the ring's frame that was last begun, with its FCS; of an Ethernet port also
the frames that it has sent on its own account, newest first, and the link header by which each source of datagrams is answered (R427).
-/
structure RingState where
  rxPos  : Nat
  txPos  : Nat
  walk   : Bool
  rxRead : Bool
  txRead : Bool
  recover : Bool
  out    : List Byte
  own    : List (List Byte)
  peers  : List (Word × BitVec 16 × List Byte)
  deriving DecidableEq, Repr

/-- A UART's FIFOs, oldest first; a received byte carries PERR in bit 8 and FERR in bit 9. -/
structure UartState where
  rx : List Word
  tx : List Byte
  deriving DecidableEq, Repr

/-! ## Start-up, debug (chapters 17, 18) -/

/-- What BOOT leaves for its end and for IMAGE_INFO. -/
structure BootState where
  /-- Steps 1 to 6 of BOOT have run. -/
  ready : Bool
  /-- Step 2 waits for the link reference, with what step 3 and 4 will find (R444). -/
  wait : Option BootFindings
  /-- Cores to start, with their entry addresses; SC's entry. -/
  start : List (Nat × Word)
  scOk  : Bool
  /-- The manifest digests of slots A and B. -/
  digA : List Byte
  digB : List Byte
  /-- SC is being restarted after a lockup (R438). -/
  scDown : Bool
  /-- The edge at which BOOT began, and whether it follows a wake. -/
  since : Nat
  woken : Bool
  deriving DecidableEq, Repr

/-- The JTAG port: instruction, captured data register, boundary chain, whether the chain drives the pins, and the DBGACC
register's data and status. -/
structure JtagState where
  ir    : BitVec 4
  dr    : List Bool
  chain : List Bool
  drive : Bool
  data  : Word
  stat  : Nat
  deriving DecidableEq, Repr

/-! ## Reasons to stop -/

/-- A fault: the block stops. No command of the spec stops the whole block: an error is an effect on the state. -/
inductive Fault where
  /-- Raised by no meaning. Safe. -/
  | noStop
  deriving DecidableEq, Repr

/-- A refusal: the model has no meaning to give. -/
inductive Refusal where
  /-- A command that has no meaning in the model. Safe. -/
  | notModelled (mnemonic : String)
  deriving DecidableEq, Repr

/-! ## The machine -/

/-- The state of the BQ8840. -/
structure State where
  /-- The commands waiting, first in, first out. -/
  pending : List Instr
  /-- tb edges since the always-on supply came (the model's own count), and the counter behind the free values. -/
  now : Nat
  free : Nat
  /-- What the outside world will see at a later edge: events the device itself has scheduled. -/
  due : List (Nat × Instr)
  /-- Every register that is not at its reset value. -/
  regs : Sparse Word
  /-- Bits set by hardware in this cycle, which a write of 1 does not clear (R9), and what each monitor has counted in it (R462). -/
  hwSet : Sparse Word
  /-- Registers written in this cycle, by rising identity: address, identity, value and the bits that the write governed (R9). -/
  wrote : List (Nat × Nat × Word × Word)
  /-- The outcome of the last register access made by a command. -/
  resp : BusResp
  /-- The configuration sets, words by section * 2^16 + offset (R54). -/
  active : Sparse Word
  shadow : Sparse Word
  /-- The tick named by the standing swap (R56). -/
  swapTick : Word
  /-- A cancel has ended a check that a SWAP_SET may be waiting for (R57). -/
  swapCut : Bool
  /-- The period of the frame in progress (R46), and the edge of the next marker's loss (R67). -/
  framePeriod : Nat
  lostAt : Option Nat
  /-- The follower has lost its tick and has not locked again (R67). -/
  tickOut : Bool
  /-- The number of the last tick marker received, and the phase error that the next tick will take up (R65, R68). -/
  markNum : Option Word
  slewLeft : Int
  /-- The OTP configuration record has been loaded since the last reset (R146, R444). -/
  otpLoaded : Bool
  /-- TS64 (R158). -/
  ts64 : BitVec 64
  snaps : List Snapshot
  pts : Vector PwmState 48
  gts : Vector GtState 32
  /-- Safe-hold requests by owner: from overruns and tick losses (R51, R67), the ones raised at this edge; from the
  redundancy manager, and the ones raised at this edge (R287). -/
  holdOvr : BitVec 37
  holdNew : BitVec 37
  holdRed : BitVec 37
  holdRedNew : BitVec 37
  /-- Pins that a swap has given to another owner or to none while the request of their owner, which is named, held them (R52). -/
  holdPins : List (Fin 96 × Fin 37)
  adcs : Vector AdcState 16
  reliefs : Vector ReliefState 2
  sds : Vector SdState 8
  cmps : Vector CmpCore 32
  fab : Fabric
  cores : Vector CoreState 37
  pairs : Vector PairState 16
  /-- The interrupt entries under way (R260, R268). -/
  entering : List Entering
  /-- Shared SRAM and the local memories (by alias address), bytes; an unlisted byte reads 0. -/
  mem : List Host.Cell
  /-- Ranges of memory whose contents are undefined (R440): base, length, and the first of their free values. -/
  poison : List (Nat × Nat × Nat)
  /-- The SBIND registers written in this cycle: block, index, and the binding still in force (R225). -/
  rebind : List (Nat × Fin 16 × Word)
  /-- ECC errors standing in memory, by unit address; true for an uncorrectable one. -/
  ecc : Sparse Bool
  /-- ECC errors that reads have found: the edge at which source, count and record act (R350, R485), the address, true for an
  uncorrectable one. -/
  eccNew : List (Nat × Nat × Bool)
  /-- Queued write-backs of shared SRAM, oldest first, and the words that have a remap entry (R333, R336). -/
  wbq : List WriteBack
  remap : List Nat
  /-- A word of shared SRAM that a link wrote in this cycle while the core side read it, and what it held before (Table 62). -/
  collided : Option (Nat × Word)
  dmas : Vector DmaState 16
  /-- The sparges of quadrants 0 to 7, then of the local memories of C0 to C35 and SC. -/
  sparges : Vector SpargeState 45
  /-- The flash arrays, bytes: code flash from 0, physical data flash from 2^24; an unlisted byte reads 0xFF. -/
  flash : Sparse Byte
  /-- Undefined ranges of the flash arrays: start and length (R352, R353, R356); units with a standing ECC error. -/
  flUndef : List (Nat × Nat)
  flEcc : Sparse Bool
  /-- Units programmed with sixteen bytes 0xFF, which are blank no more (R352). -/
  flProg : List Nat
  flBanks : Vector FlBank 5
  /-- Physical data-flash sectors, the sectors queued for erase, oldest first, the one being erased with its count and the pulses of its erase
  before, the counter of sequence numbers (R359). -/
  dfSecs : Sparse DfSector
  dfQueue : List Nat
  dfBg : Option (Nat × Nat × Nat)
  dfSeq : Nat
  /-- The erase count that the last recovery gave to the sectors whose own could not be read (R365). -/
  dfTop : Nat
  /-- The protection row: level and PENDING (R366, R367), and the level that a lowering sets. -/
  prot : Fin 3
  protPend : Bool
  protNew : Fin 3
  /-- OTP bytes below 0x2000; an unlisted byte reads 0. The command that runs. -/
  otp : Sparse Byte
  otpOp : Option OtpOp
  pes : Vector PeGroup 8
  pio : PioState
  oz : OzState
  links : Vector LinkState 4
  remotes : List RemoteReq
  /-- Reads that wait for a suspend point of a flash bank (R29) or for the outputs held ahead of them (R286), oldest first. -/
  stalls : List Stall
  nextTag : BitVec 16
  /-- Numbers that this device has granted as master, and the numbering requests on their way to the master, oldest first: the
  link each came from, none for the device's own (R416). -/
  lkUsed : BitVec 8
  lkAsk  : List (Option (Fin 4))
  eths : Vector RingState 2
  cans : Vector RingState 6
  uarts : Vector UartState 3
  boot : BootState
  jtag : JtagState
  /-- The mode requested in this cycle, an enabled cause of SAFE-HOLD that has occurred in it, and the domains switched off in it: all
  take place at the next edge (R435, R437, R440). -/
  modeReq : Option (Fin 8)
  shDue : Bool
  offDue : BitVec 85
  /-- Domains on their way that will not become ready, and the edges at which that is a switch fault (R440). -/
  faultDue : List (Nat × Fin 85)
  /-- The edge c from which the clock pattern of each cluster counts, and the changes of rate that the droop sensors have called for,
  in their order: edge c, cluster, rate (R488). -/
  clkAt : Vector Nat 9
  rateDue : List (Nat × Fin 9 × Nat)
  /-- The owner and world of the fire registers of SWF0 to SWF15 (R41), and the world of each bank (R37, R250), none where nothing is
  named. -/
  swfOwn : Vector (Option (Fin 37 × Bool)) 16
  bankWorld : Vector (Option Bool) 64
  /-- Domains held off by a switch fault (R440); cores whose domain has been switched off and on since their fence was set,
  and those that have passed their self-test since (R297). -/
  faulted : BitVec 85
  cycled : BitVec 36
  tested : BitVec 36
  deriving DecidableEq, Repr

/-! ## Reset (R197, R443, R486 and the reset values of the register tables) -/

def pwmFresh : PwmState where
  cnt := 0
  rld := 0x00009C3F
  sha := 0xFFFFFFE0
  shb := 0xFFFFFFE0
  immA := false
  immB := false
  stRld := none
  stShA := none
  stShB := none
  la := false
  lb := false
  laPrev := false
  evZ := false
  evA := none
  evB := none
  dA := false
  dB := false
  riseA := none
  riseB := none
  edgeA := 0
  edgeB := 0
  roseA := 0
  roseB := 0
  fixA := none
  fixB := none
  tripLine := false
  loadph := false
  shA := true
  shB := true
  zsA := false
  zsB := false
  holdA := none
  holdB := none
  pinA := none
  pinB := none

def gtFresh : GtState := ⟨0, 0xFFFFFFFF, none, Vector.replicate 4 none, false, []⟩

def adcFresh : AdcState where
  busy := false
  ended := none
  trigAt := 0
  slot := 0
  word := 0
  convs := 0
  nextHold := none
  acq := 0
  late := false
  inFlight := none
  earlyDone := false
  earlyVal := 0
  par := false
  step := false
  sum := 0
  freeAt := 0
  tracked := 0
  abandon := false
  verdict := none
  prevOut := false
  queue := []
  gap := none
  gapDue := false
  offer := none
  calEnd := 0
  enPend := false

def reliefFresh : ReliefState := ⟨[], [], none, 0, 0, 0, 0, 0, false, false, false, 0⟩
def sdFresh : SdState := ⟨[], 0, 0, 0, 0, [], false⟩
def cmpFresh : CmpCore := ⟨0, 0, 0, .inside⟩
def fabFresh : Fabric := ⟨[], [], [], 0, 0, [], [], 0, false⟩

/-- A core after the reset of its domain: R197, but for w31, which is a stack pointer and takes the reset value of its own register
(R249; DESIGN CHOICE, log entry 43). ST is Plant, supervisor, IM 15, and Service for SC. -/
def coreFresh (sc : Bool) : CoreState where
  gpr := Vector.replicate 30 0
  sp := Vector.replicate 4 0x0002FF80
  acc := Vector.replicate 4 0
  smp := Vector.replicate 16 0
  newE := 0
  newF := 0
  duty := Vector.replicate 8 none
  st := if sc then 0x00003F00 else 0x00001F00
  lc := Vector.replicate 2 0
  ls := Vector.replicate 2 0
  le := Vector.replicate 2 0
  susp := 0
  pc := 0
  rstack := []
  shadow := none
  noInt := false
  run := .halted
  prefetched := false
  preWords := 0
  preFault := none
  own := none
  testEnd := none
  waitPc := 0
  haltReq := false
  stepping := false
  resumed := false
  cross := Vector.replicate 16 none
  vecs := []
  lbBase := none
  lbLen := 0
  lbCap := 0
  lbLevel := 0
  lbLs := 0
  lbLe := 0
  cycles := 0
  retired := 0

def pairFresh : PairState where
  mode := 0
  next := none
  agree := []
  sluice := []
  sigM := BitVec.allOnes 64
  sigC := BitVec.allOnes 64
  cntM := 0
  cntC := 0
  sinceM := 0
  sinceC := 0
  idxM := 0
  idxC := 0
  ckM := []
  ckC := []
  ints := []
  haltAt := none
  dbgLog := []
  twin := 0
  recovery := false
  ownSpares := []
  act := none

def dmaFresh : DmaState := ⟨0, 0, 0, 0, 0, false, false, 0, []⟩
def spargeFresh : SpargeState := ⟨0, false, false, 0, false, 0, 0⟩
def engFresh : PeEngine := ⟨0, 0, 0, 0, [], [], 0, [], false, false, 0, 0, 0, 0, 0, 0, false, none, false⟩
def pgFresh : PeGroup := ⟨0, 0, 0, 0, [], Vector.replicate 4 engFresh⟩

def ozFresh : OzState where
  sessions := Vector.replicate 8 none
  queue := []
  wait := none
  spih := []
  refusal := none
  lower := none
  spihOut := []
  sent := []
  jobs := []
  nextJob := 0
  subs := []
  load := none
  counts := Vector.replicate 6 0
  memo := []

def flFresh : FlBank := ⟨none, none, none, 0, none, false, 0, 0⟩

def linkFresh : LinkState where
  seq := 0
  unack := []
  resend := []
  quiet := 0
  credit := 16
  owe := 0
  held := 0
  rxSeq := 0
  gap := 0
  evSeen := []
  checks := []
  ctl := []
  req := []
  nums := []
  tick := none
  slot0 := 0
  slots := 0
  slotsNew := 0
  oz := none
  ozHeld := 0
  ozWait := []
  errs := 0
  flits := 0
  breach := none
  begun := 0
  last := []
  ann := []

def ringFresh : RingState := ⟨0, 0, false, true, true, false, [], [], []⟩
def bootFresh : BootState := ⟨false, none, [], true, List.replicate 32 0, List.replicate 32 0, false, 0, false⟩

/-- The machine right after reset: mode BOOT, every core halted, every domain on, before BOOT has run. Registers stand at
their reset values, memories list nothing, flash and OTP are blank as delivered (log entries 7, 13 and 14). -/
def State.reset : State where
  pending := []
  now := 0
  free := 0
  due := []
  regs := []
  hwSet := []
  wrote := []
  resp := ⟨none, 0⟩
  active := []
  shadow := []
  swapTick := 0
  swapCut := false
  framePeriod := 40000
  lostAt := none
  tickOut := false
  markNum := none
  slewLeft := 0
  otpLoaded := false
  ts64 := 0
  snaps := []
  pts := Vector.replicate 48 pwmFresh
  gts := Vector.replicate 32 gtFresh
  holdOvr := 0
  holdNew := 0
  holdRed := 0
  holdRedNew := 0
  holdPins := []
  adcs := Vector.replicate 16 adcFresh
  reliefs := Vector.replicate 2 reliefFresh
  sds := Vector.replicate 8 sdFresh
  cmps := Vector.replicate 32 cmpFresh
  fab := fabFresh
  cores := (Vector.replicate 37 (coreFresh false)).set 36 (coreFresh true)
  pairs := Vector.replicate 16 pairFresh
  entering := []
  mem := []
  poison := []
  rebind := []
  ecc := []
  eccNew := []
  wbq := []
  remap := []
  collided := none
  dmas := Vector.replicate 16 dmaFresh
  sparges := Vector.replicate 45 spargeFresh
  flash := []
  flUndef := []
  flEcc := []
  flProg := []
  flBanks := Vector.replicate 5 flFresh
  dfSecs := []
  dfQueue := []
  dfBg := none
  dfSeq := 0
  dfTop := 0
  prot := 0
  protPend := false
  protNew := 0
  otp := []
  otpOp := none
  pes := Vector.replicate 8 pgFresh
  pio := ⟨0, 0, 0, 0, 0, 0⟩
  oz := ozFresh
  links := Vector.replicate 4 linkFresh
  remotes := []
  stalls := []
  nextTag := 0
  lkUsed := 0
  lkAsk := []
  eths := Vector.replicate 2 ringFresh
  cans := Vector.replicate 6 ringFresh
  uarts := Vector.replicate 3 ⟨[], []⟩
  boot := bootFresh
  jtag := ⟨1, [], [], false, 0, 0⟩
  modeReq := none
  shDue := false
  offDue := 0
  faultDue := []
  clkAt := Vector.replicate 9 0
  rateDue := []
  swfOwn := Vector.replicate 16 none
  bankWorld := Vector.replicate 64 none
  faulted := 0
  cycled := 0
  tested := 0

end Sys2Proof.Machine
end

