-- ==== Sys2Proof/Machine/Regs.lean ====
section
/-! DEFINITION. Regs.lean: the registers: their keys, reset values and writable fields, transcribed from the register tables
of each chapter (bits not listed are RO or reserved and keep what the hardware gives them), and the generic effect of a
write by access code (R7 to R10, R481). Fields that a unit computes are overlaid when the register is read (Bus.lean). -/

namespace Sys2Proof.Machine

/-- Access codes of writable fields (Table 4). W1S fields that start an action are not listed: their unit acts on them. -/
inductive Acc where
  | rw | w1c | rwl
  deriving DecidableEq, Repr

/-- The legal values of a field (R10): any; a range; codes below n, with the reset value for the others; a ring size (0, or
2 to 255: the value 1 is as near to 0 as to 2, and the model takes 2, log entry 12); the kinds of a watchpoint (0, 2, 3, 4). -/
inductive Legal where
  | any
  | range (lo hi : Nat)
  | codes (n dflt : Nat)
  | ring
  | kinds
  deriving DecidableEq, Repr

/-- A writable field. -/
structure Fld where
  lo : Nat
  len : Nat
  acc : Acc := .rw
  legal : Legal := .any
  deriving DecidableEq, Repr

/-- A register: reset value and writable fields. -/
structure RegDesc where
  reset : Word
  flds : List Fld
  deriving DecidableEq, Repr

/-- The value a field takes when v is written to it (R10). -/
def Legal.apply (r : Legal) (v : Nat) : Nat :=
  match r with
  | .any => v
  | .range lo hi => max lo (min hi v)
  | .codes n d => if v < n then v else d
  | .ring => if v = 1 then 2 else v
  | .kinds => if v = 1 ∨ 4 < v then 0 else v

/-- One field of a write (R8, R9): old word, word written, bits that hardware sets in the same cycle, lock. -/
def Fld.write (f : Fld) (locked : Bool) (hw v old : Word) : Word :=
  match f.acc with
  | .rw => setBits old f.lo f.len (f.legal.apply (bits v f.lo f.len))
  | .rwl => if locked then old else setBits old f.lo f.len (f.legal.apply (bits v f.lo f.len))
  | .w1c => old &&& ~~~ (v &&& mask f.lo f.len &&& ~~~ hw)

/-- A write to a register acts on each field by its own code (R9). -/
def RegDesc.write (d : RegDesc) (locked : Bool) (hw v old : Word) : Word :=
  d.flds.foldl (fun w f => f.write locked hw v w) old

/-! ## Block bases (Table 10) -/

def baseSys : Nat := 0x40000000
def baseTb : Nat := 0x40010000
def basePt : Nat := 0x40020000
def baseGt : Nat := 0x40030000
def baseAdc : Nat := 0x40040000
def baseCmp : Nat := 0x40050000
def baseFab : Nat := 0x40060000
def basePe : Nat := 0x40070000
def baseDma : Nat := 0x40080000
def baseSram : Nat := 0x40090000
def baseFl : Nat := 0x400A0000
def baseOtp : Nat := 0x400B0000
def baseRm : Nat := 0x400C0000
def baseLk : Nat := 0x400D0000
def baseEth : Nat := 0x400E0000
def baseIf : Nat := 0x400F0000
def basePm : Nat := 0x40100000
def basePwr : Nat := 0x40110000

/-- The key of a register in the private space of core n. -/
def privKey (n : Nat) (addr : Nat) : Nat := (n + 1) * 0x100000000 + addr

/-! ## Named registers -/

def rUnitOwn (u : Nat) : Nat := baseSys + 0x400 + 4 * u
def rSbind (n k : Nat) : Nat := baseSys + 0x8000 + 0x100 * n + 4 * k
def rDbind (n j : Nat) : Nat := baseSys + 0x8040 + 0x100 * n + 4 * j
def rDctr (n j : Nat) : Nat := baseSys + 0x8060 + 0x100 * n + 4 * j
def rDhalf (n j : Nat) : Nat := baseSys + 0x8080 + 0x100 * n + 4 * j
def rCpFresh (n : Nat) : Nat := baseSys + 0x80A0 + 0x100 * n
def rCpStage (n : Nat) : Nat := baseSys + 0x80A4 + 0x100 * n
def rCpSfcnt (n : Nat) : Nat := baseSys + 0x80A8 + 0x100 * n
def rTbCtl : Nat := baseTb
def rTbStat : Nat := baseTb + 0x004
def rFrameCtl : Nat := baseTb + 0x010
def rFrameNum : Nat := baseTb + 0x014
def rFramePos : Nat := baseTb + 0x018
def rFrameOwn (j : Nat) : Nat := baseTb + 0x020 + 4 * j
def rFdone (j : Nat) : Nat := baseTb + 0x028 + 4 * j
def rOvrPolicy (j : Nat) : Nat := baseTb + 0x030 + 4 * j
def rOvrStat (j : Nat) : Nat := baseTb + 0x040 + 4 * j
def rSwapCtl : Nat := baseTb + 0x050
def rSwapTarget : Nat := baseTb + 0x054
def rSwapStat : Nat := baseTb + 0x058
def rSetId : Nat := baseTb + 0x05C
def rShadowId : Nat := baseTb + 0x060
def rTickCtl : Nat := baseTb + 0x070
def rTickStat : Nat := baseTb + 0x074
def rTloss (j : Nat) : Nat := baseTb + 0x078 + 4 * j
def rOvrCnt (n : Nat) : Nat := baseTb + 0x100 + 4 * n
def rPt (n off : Nat) : Nat := basePt + 0x100 * n + off
def rGt (n off : Nat) : Nat := baseGt + 0x80 * n + off
def rAdc (n off : Nat) : Nat := baseAdc + 0x100 * n + off
def rCalCtl : Nat := baseAdc + 0x1000
def rCalReq : Nat := baseAdc + 0x1004
def rRlStat (g : Nat) : Nat := baseAdc + 0x1010 + 4 * g
def rSdData (g : Nat) : Nat := baseAdc + 0x2100 + 0x10 * g
def rSdStat (g : Nat) : Nat := baseAdc + 0x2104 + 0x10 * g
def rCmpStat (n : Nat) : Nat := baseCmp + 0x20 * n + 0x10
def rCmpCnt (n : Nat) : Nat := baseCmp + 0x20 * n + 0x14
def rLatchSum : Nat := baseCmp + 0x400
def rChFire : Nat := baseFab + 0xC000
def rChRearm : Nat := baseFab + 0xC004
def rFabStat : Nat := baseFab + 0xC008
def rChMuted (m : Nat) : Nat := baseFab + 0xC100 + 4 * m
def rChCoinc (m : Nat) : Nat := baseFab + 0xC120 + 4 * m
def rChStage (m : Nat) : Nat := baseFab + 0xC140 + 4 * m
def rConsCoinc (m : Nat) : Nat := baseFab + 0xC200 + 4 * m
def rChCnt (c : Nat) : Nat := baseFab + 0xD000 + 4 * c
def rCellStat (n : Nat) : Nat := baseFab + 0xE000 + 4 * n
def rEvcntVal (n : Nat) : Nat := baseFab + 0xF000 + 8 * n
def rEvcntCtl (n : Nat) : Nat := baseFab + 0xF004 + 8 * n
def rDma (n off : Nat) : Nat := baseDma + 0x10 * n + off
def rSram (off : Nat) : Nat := baseSram + off
def rFl (b off : Nat) : Nat := baseFl + 0x40 * b + off
def rFlStat (b : Nat) : Nat := rFl b 0x18
def rFlProt : Nat := baseFl + 0x200
def rFlEcc : Nat := baseFl + 0x204
def rFlEccAddr : Nat := baseFl + 0x208
def rDfOwn (j : Nat) : Nat := baseFl + 0x20C + 4 * j
def rDfMap (l : Nat) : Nat := baseFl + 0x300 + 4 * l
def rDfSeq (l : Nat) : Nat := baseFl + 0x320 + 4 * l
def rDfHealth : Nat := baseFl + 0x340
def rDfPsel : Nat := baseFl + 0x348
def rOtpStat : Nat := baseOtp
def rOtpSrc : Nat := baseOtp + 0x008
def rOtpRes : Nat := baseOtp + 0x00C
def rPg (g off : Nat) : Nat := basePe + 0x400 * g + off
def rEng (g e off : Nat) : Nat := basePe + 0x400 * g + 0x200 + 0x40 * e + off
def rPio (off : Nat) : Nat := basePe + 0x2000 + off
def rLk (n off : Nat) : Nat := baseLk + 0x100 * n + off
def rLkNum : Nat := baseLk + 0x400
def rLkRoute : Nat := baseLk + 0x404
def rLkHops : Nat := baseLk + 0x408
def rEth (p off : Nat) : Nat := baseEth + 0x1000 * p + off
def rCan (c off : Nat) : Nat := baseIf + 0x100 * c + off
def rUart (u off : Nat) : Nat := baseIf + 0x800 + 0x40 * u + off
def rSpih : Nat := baseIf + 0xC00
def rPm (n off : Nat) : Nat := basePm + 0x10 * n + off
def rSysMode : Nat := baseSys
def rSysReset : Nat := baseSys + 0x004
def rShEn : Nat := baseSys + 0x008
def rShCause : Nat := baseSys + 0x00C
def rBootStat : Nat := baseSys + 0x010
def rWakeCtl : Nat := baseSys + 0x020
def rWakeStat : Nat := baseSys + 0x024
def rTemp : Nat := baseSys + 0x030
def rDroopStat : Nat := basePwr + 0x100
def rDroopCnt (n : Nat) : Nat := basePwr + 0x140 + 4 * n
def rRmCtl : Nat := baseRm
def rRmSpare : Nat := baseRm + 0x004
def rRmReadmit : Nat := baseRm + 0x008
def rRmGhost : Nat := baseRm + 0x00C
def rRmFence (j : Nat) : Nat := baseRm + 0x010 + 4 * j
def rRmPair (k off : Nat) : Nat := baseRm + 0x100 + 0x20 * k + off

/-- Core-private registers: interrupt controller (0xE000_0000), loop buffer (0xE000_5000), world control. -/
def rIcPend (c m : Nat) : Nat := privKey c (0xE0001000 + 4 * m)
def rIcCtl (c : Nat) : Nat := privKey c 0xE0002000
def rIcStat (c : Nat) : Nat := privKey c 0xE0002004
def rLbCtl (c : Nat) : Nat := privKey c 0xE0005000
def rLbAbn (c : Nat) : Nat := privKey c 0xE000500C
/-- A register of the bank of a world (false Plant, true Service). -/
def rWc (c : Nat) (world : Bool) (off : Nat) : Nat := privKey c (0xE0006000 + 0x400 * b2n world + off)
/-- SPLIM of a world and level. -/
def rSplim (c : Nat) (world level : Bool) : Nat := privKey c (0xE0007000 + 8 * b2n world + 4 * b2n level)

/-- A debug register of core c (R456, space 3). -/
def rDbg (c off : Nat) : Nat := privKey c (0xF0000000 + off)

/-! ## Tables by block -/

/-- An offset of block `blk` that holds no register (R7). -/
def isHole (blk o : Nat) : Bool :=
  let inRange := fun (a b : Nat) => decide (a ≤ o) && decide (o < b)
  !(match blk with
  | 0 => inRange 0x000 0x014 || inRange 0x020 0x028 || o == 0x030 || inRange 0x400 0x5D0 ||
      (inRange 0x8000 0xA400 && decide (o % 0x100 < 0xAC))
  | 1 => inRange 0x000 0x008 || inRange 0x010 0x01C || inRange 0x020 0x03C || inRange 0x040 0x048 || inRange 0x050 0x064 ||
      inRange 0x070 0x080 || inRange 0x100 0x190
  | 2 => decide (o < 0x3000) && (decide (o % 0x100 < 0x1C) || (decide (0x40 ≤ o % 0x100) && decide (o % 0x100 < 0x60)))
  | 3 => (decide (o < 0x1000) && (decide (o % 0x80 < 0x10) || (decide (0x20 ≤ o % 0x80) && decide (o % 0x80 < 0x40)))) ||
      inRange 0x1000 0x1008
  | 4 => (decide (o < 0x1000) && decide (o % 0x100 < 0x74) && o % 0x100 != 0x5C) || inRange 0x1000 0x1008 || inRange 0x1010 0x1018 ||
      ((inRange 0x2000 0x2080 || inRange 0x2100 0x2180) && decide (o % 0x10 < 8))
  | 5 => (decide (o < 0x400) && decide (o % 0x20 < 0x18)) || o == 0x400
  | 6 => decide (o < 0x8600) || inRange 0x9000 0x9800 || inRange 0xA000 0xA800 || inRange 0xC000 0xC00C || inRange 0xC100 0xC160 ||
      inRange 0xC200 0xC260 || inRange 0xD000 0xD400 || inRange 0xE000 0xE200 || inRange 0xF000 0xF100
  | 7 => (decide (o < 0x2000) && (decide (o % 0x400 < 0xC0) || (decide (0x100 ≤ o % 0x400) && decide (o % 0x400 < 0x10C)) ||
      (decide (0x200 ≤ o % 0x400) && decide (o % 0x400 < 0x300) && decide (o % 0x40 < 0x28)))) ||
      inRange 0x2000 0x200C || inRange 0x3000 0x3100
  | 8 => (decide (o < 0x100) && decide (o % 0x10 < 0x0C)) || inRange 0x2000 0xE000
  | 9 => inRange 0x000 0x028 || inRange 0x040 0x074 || inRange 0x100 0x10C || o == 0x110 || inRange 0x118 0x124
  | 10 => (decide (o < 0x140) && decide (o % 0x40 < 0x1C)) || inRange 0x200 0x214 || inRange 0x300 0x350
  | 11 => inRange 0x000 0x010 || inRange 0x4000 0x8000
  | 12 => inRange 0x000 0x018 || (inRange 0x100 0x300 && decide (o % 0x20 < 0x1C))
  | 13 => (decide (o < 0x400) && decide (o % 0x100 < 0x28)) || inRange 0x400 0x40C
  | 14 => decide (o < 0x2000) && (decide (o % 0x1000 < 0x14) || (decide (0x18 ≤ o % 0x1000) && decide (o % 0x1000 < 0x2C)) ||
      (decide (0x40 ≤ o % 0x1000) && decide (o % 0x1000 < 0x50)))
  | 15 => (decide (o < 0x600) && (decide (o % 0x100 < 0x10) || (decide (0x20 ≤ o % 0x100) && decide (o % 0x100 < 0x30)) ||
      (decide (0x40 ≤ o % 0x100) && decide (o % 0x100 < 0xC0)))) || (inRange 0x800 0x8C0 && decide (o % 0x40 < 0x0C)) || o == 0xC00
  | 16 => decide (o < 0x400) && decide (o % 0x10 < 0x0C)
  | _ => inRange 0x000 0x00C || inRange 0x010 0x01C || inRange 0x020 0x028 || o == 0x030 || o == 0x100 || inRange 0x140 0x164)

/-- A register with nothing writable. -/
def ro (reset : Word) : RegDesc := ⟨reset, []⟩

/-- A hole (R7). -/
def noReg : RegDesc := ⟨0, []⟩

/-- System and modes block: UNIT_OWNu (R35) and the control-path bindings (R248); the rest in `descMode`. -/
def descBind (o : Nat) : RegDesc :=
  if o < 0x40 then ⟨0, [⟨0, 6, .rw, .range 0 23⟩, ⟨8, 5, .rw, .any⟩, ⟨15, 1, .rw, .any⟩]⟩
  else if o < 0x60 then ⟨0, [⟨0, 6, .rw, .range 0 47⟩, ⟨8, 2, .rw, .any⟩, ⟨15, 1, .rw, .any⟩]⟩
  else if o < 0xA0 then ⟨0, [⟨0, 32, .rw, .any⟩]⟩
  else if o = 0xA4 then ⟨0, [⟨8, 1, .w1c, .any⟩]⟩
  else noReg

/-- Timebase and frame block (chapter 2). -/
def descTb (o : Nat) : RegDesc :=
  if o = 0x000 then ⟨0, [⟨0, 2, .rw, .codes 2 0⟩, ⟨2, 2, .rw, .any⟩]⟩
  else if o = 0x004 then ⟨0, [⟨2, 1, .w1c, .any⟩]⟩
  else if o = 0x010 then ⟨0x00009C40, [⟨0, 23, .rw, .range 1000 8000000⟩, ⟨24, 1, .rw, .any⟩]⟩
  else if o = 0x020 ∨ o = 0x078 then ⟨0, [⟨0, 32, .rw, .any⟩]⟩
  else if o = 0x024 ∨ o = 0x07C then ⟨0, [⟨0, 4, .rw, .any⟩]⟩
  else if o = 0x030 ∨ o = 0x034 then
    ⟨0xAAAAAAAA, (List.range 16).map (fun m => ⟨2 * m, 2, .rw, .codes 3 2⟩)⟩
  else if o = 0x038 then ⟨0x000000AA, (List.range 4).map (fun m => ⟨2 * m, 2, .rw, .codes 3 2⟩)⟩
  else if o = 0x040 then ⟨0, [⟨0, 32, .w1c, .any⟩]⟩
  else if o = 0x044 then ⟨0, [⟨0, 4, .w1c, .any⟩]⟩
  else if o = 0x054 then ⟨0, [⟨0, 32, .rw, .any⟩]⟩
  else if o = 0x058 then ⟨0, [⟨3, 1, .w1c, .any⟩]⟩
  else if o = 0x070 then ⟨0x00000800, [⟨0, 2, .rw, .codes 3 0⟩, ⟨2, 2, .rw, .any⟩, ⟨8, 8, .rw, .range 1 255⟩]⟩
  else if o = 0x074 then ⟨0, [⟨1, 1, .w1c, .any⟩]⟩
  else noReg

/-- A PWM timer's registers outside the set (chapter 5). A reload above the largest value takes that value (R159). -/
def descPt (o : Nat) : RegDesc :=
  if o = 0x44 then ⟨0x00009C3F, [⟨0, 32, .rw, .range 1 0x7FFFFFF⟩]⟩
  else if o = 0x48 ∨ o = 0x4C then ⟨0xFFFFFFE0, [⟨0, 32, .rw, .any⟩]⟩
  else if o = 0x50 ∨ o = 0x54 then ro 0xFFFFFFE0
  else if o = 0x58 then ⟨0, [⟨0, 1, .rw, .any⟩]⟩
  else if o = 0x5C then ⟨0, [⟨4, 1, .w1c, .any⟩, ⟨5, 1, .w1c, .any⟩, ⟨6, 1, .w1c, .any⟩]⟩
  else noReg

/-- A general timer's registers outside the set. -/
def descGt (o : Nat) : RegDesc :=
  if o = 0x24 then ⟨0xFFFFFFFF, [⟨0, 32, .rw, .range 1 0xFFFFFFFF⟩]⟩
  else if o = 0x2C then ⟨0, [⟨4, 4, .w1c, .any⟩, ⟨8, 4, .w1c, .any⟩]⟩
  else if 0x30 ≤ o ∧ o < 0x40 then ⟨0, [⟨0, 32, .rw, .any⟩]⟩
  else noReg

/-- A converter's registers outside the set (chapter 3). -/
def descAdc (o : Nat) : RegDesc :=
  if o = 0x40 then ⟨0x00001800, [⟨0, 1, .rw, .any⟩, ⟨1, 1, .rw, .any⟩, ⟨8, 8, .rw, .range 24 255⟩]⟩
  else if o = 0x44 then ⟨0, [⟨8, 1, .w1c, .any⟩, ⟨9, 1, .w1c, .any⟩]⟩
  else if o = 0x54 then ⟨0x7FFF8000, [⟨0, 16, .rw, .any⟩, ⟨16, 16, .rw, .any⟩]⟩
  else if o = 0x58 then ⟨0, [⟨0, 4, .rw, .any⟩, ⟨4, 1, .rw, .any⟩, ⟨9, 1, .w1c, .any⟩]⟩
  else if o = 0x68 then ⟨0x000020F0, [⟨0, 1, .rw, .any⟩, ⟨4, 4, .rw, .any⟩, ⟨8, 7, .rw, .range 1 64⟩]⟩
  else if o = 0x6C then ⟨0, [⟨8, 1, .w1c, .any⟩, ⟨10, 1, .w1c, .any⟩]⟩
  else if o = 0x70 then ⟨0, [⟨0, 1, .w1c, .any⟩]⟩
  else noReg

/-- The relief, calibration and decimator registers, from offset 0x1000 of the converter block. -/
def descCal (o : Nat) : RegDesc :=
  if o = 0x1000 then ⟨0x00080064, [⟨0, 10, .rw, .range 0 1000⟩, ⟨16, 4, .rw, .range 1 15⟩]⟩
  else if 0x2100 ≤ o ∧ o < 0x2180 ∧ o % 0x10 = 4 then ⟨0, [⟨1, 1, .w1c, .any⟩, ⟨2, 1, .w1c, .any⟩]⟩
  else noReg

/-- The comparator block (chapter 4). -/
def descCmp (o : Nat) : RegDesc :=
  if o < 0x400 ∧ o % 0x20 = 0x10 then ⟨0x0FFFFFC0, [⟨2, 1, .w1c, .any⟩]⟩
  else noReg

/-- The fabric's runtime registers (chapter 11). -/
def descFab (o : Nat) : RegDesc :=
  if o = 0xC008 then ⟨0, [⟨0, 1, .w1c, .any⟩, ⟨1, 1, .w1c, .any⟩]⟩
  else if 0xC120 ≤ o ∧ o < 0xC140 then ⟨0, [⟨0, 32, .w1c, .any⟩]⟩
  else if 0xC200 ≤ o ∧ o < 0xC260 then ⟨0, [⟨0, 32, .w1c, .any⟩]⟩
  else noReg

/-- The redundancy manager (chapter 10). -/
def descRm (o : Nat) : RegDesc :=
  if o = 0x000 then ⟨0x000003E8, [⟨0, 16, .rw, .range 1 65535⟩, ⟨16, 1, .rw, .any⟩]⟩
  else if o = 0x004 then ⟨0x0000000F, [⟨0, 4, .rw, .any⟩]⟩
  else if 0x100 ≤ o ∧ o < 0x300 then
    if o % 0x20 = 0x00 then ⟨0x00001000, [⟨0, 2, .rw, .codes 3 0⟩, ⟨8, 8, .rw, .range 2 255⟩]⟩
    else if o % 0x20 = 0x04 then ⟨0, [⟨0, 18, .rw, .any⟩]⟩
    else if o % 0x20 = 0x0C then
      ro (BitVec.ofNat 32 ((2 * ((o - 0x100) / 0x20) + 1) * 0x10000 + 2 * ((o - 0x100) / 0x20)))
    else noReg
  else noReg

/-- The private space of a core (Table 11); FEAT0 to FEAT3 differ on SC (R223). -/
def descPriv (c o : Nat) : RegDesc :=
  if o = 0x2000 then
    ⟨0x0000002D, [⟨0, 4, .rw, .any⟩, ⟨4, 1, .rw, .any⟩, ⟨5, 1, .rw, .any⟩, ⟨8, 1, .w1c, .any⟩]⟩
  else if o = 0x4000 then ro (if c = 36 then 0x000000D2 else 0x000000F2)
  else if o = 0x4004 then ro 0x00041010
  else if o = 0x4008 then ro (if c = 36 then 0x00000000 else 0x0003FF01)
  else if o = 0x400C then ro (if c = 36 then 0x000000C0 else 0x081000C0)
  else if o = 0x5000 then ⟨0x00000001, [⟨0, 1, .rw, .any⟩]⟩
  else if 0x6000 ≤ o ∧ o < 0x6800 then
    let b := o % 0x400
    if b = 0x000 then ⟨0, [⟨0, 1, .rwl, .any⟩]⟩
    else if b = 0x004 then ⟨0, [⟨6, 12, .rwl, .any⟩]⟩
    else if 0x040 ≤ b ∧ b < 0x080 then ⟨0, [⟨0, 18, .rwl, .any⟩, ⟨30, 2, .rwl, .any⟩]⟩
    else if 0x100 ≤ b ∧ b < 0x180 then
      if b % 8 = 0 then ⟨0, [⟨0, 1, .rwl, .any⟩, ⟨6, 26, .rwl, .any⟩]⟩
      else ⟨0, [⟨0, 6, .rwl, .any⟩, ⟨6, 26, .rwl, .any⟩]⟩
    else noReg
  else if 0x7000 ≤ o ∧ o < 0x7010 then ⟨0, [⟨2, 16, .rwl, .any⟩]⟩
  else noReg

/-- UNIT_OWNu (R35): codes 37 to 63 of OWNER are undefined. -/
def descUnitOwn : RegDesc := ⟨0x000000E4, [⟨0, 6, .rw, .codes 37 36⟩, ⟨6, 1, .rw, .any⟩, ⟨7, 1, .rw, .any⟩]⟩

/-- System and modes block, the rest (R453). -/
def descMode (o : Nat) : RegDesc :=
  if o = 0x000 then ⟨0x00000001, [⟨12, 1, .w1c, .any⟩]⟩
  else if o = 0x004 then ⟨0, [⟨0, 5, .w1c, .any⟩]⟩
  else if o = 0x008 then ⟨0x0000000F, [⟨0, 3, .rw, .any⟩, ⟨4, 2, .rw, .any⟩]⟩
  else if o = 0x00C then ⟨0, [⟨0, 6, .w1c, .any⟩, ⟨8, 1, .w1c, .any⟩]⟩
  else if o = 0x020 then
    ⟨0x00010A03, [⟨0, 2, .rw, .any⟩, ⟨4, 4, .rw, .any⟩, ⟨8, 8, .rw, .range 1 255⟩, ⟨16, 1, .rw, .any⟩]⟩
  else if o = 0x030 then ⟨0x00910000, [⟨16, 8, .rw, .range 100 150⟩]⟩
  else noReg

/-- Power registers (R453). Writes of PWR_ON have their own rules (R440). -/
def descPwr (o : Nat) : RegDesc :=
  if o = 0x000 ∨ o = 0x004 ∨ o = 0x010 ∨ o = 0x014 then ro 0xFFFFFFFF
  else if o = 0x008 ∨ o = 0x018 then ro 0x001FFFFF
  else if o = 0x030 then ⟨0, [⟨0, 2, .w1c, .any⟩]⟩
  else noReg

/-- DMA channels (R345). -/
def descDma (o : Nat) : RegDesc :=
  if o < 0x100 then
    if o % 0x10 = 0 then ⟨0, [⟨0, 11, .rw, .range 0 1535⟩]⟩
    else if o % 0x10 = 4 then ⟨0, [⟨2, 1, .w1c, .any⟩]⟩
    else noReg
  else noReg

/-- SRAM control block (R346). -/
def descSram (o : Nat) : RegDesc :=
  if o = 0x000 then ⟨0, [⟨0, 5, .w1c, .any⟩]⟩
  else if o = 0x00C then ⟨0x00000100, [⟨0, 16, .rw, .range 1 65535⟩]⟩
  else if o = 0x100 then ⟨0x08000003, [⟨0, 2, .rw, .any⟩, ⟨16, 16, .rw, .range 128 65535⟩]⟩
  else if o = 0x104 then ⟨0x00000080, [⟨0, 16, .rw, .range 128 65535⟩]⟩
  else if o = 0x108 then ⟨0, [⟨0, 6, .rw, .range 0 36⟩, ⟨6, 1, .rw, .any⟩]⟩
  else if o = 0x110 then ⟨0, [⟨8, 8, .w1c, .any⟩]⟩
  else if o = 0x118 then ⟨0, [⟨0, 32, .w1c, .any⟩]⟩
  else if o = 0x11C then ⟨0, [⟨0, 5, .w1c, .any⟩]⟩
  else noReg

/-- Flash block (R372). -/
def descFl (o : Nat) : RegDesc :=
  if o < 0x140 then
    let q := o % 0x40
    if q = 0x04 then ⟨0, [⟨4, 18, .rw, if o = 0x104 then .range 0 0x7FF else .any⟩]⟩
    else if 0x08 ≤ q ∧ q < 0x18 then ⟨0xFFFFFFFF, [⟨0, 32, .rw, .any⟩]⟩
    else noReg
  else if o = 0x200 then ⟨0, [⟨4, 2, .rw, .range 0 2⟩]⟩
  else if o = 0x20C then ⟨0, [⟨0, 32, .rw, .any⟩]⟩
  else if o = 0x210 then ⟨0, [⟨0, 4, .rw, .any⟩]⟩
  else if o = 0x340 then ⟨0, [⟨10, 1, .w1c, .any⟩]⟩
  else if o = 0x348 then ⟨0, [⟨0, 10, .rw, .any⟩]⟩
  else noReg

/-- OTP block (R373). -/
def descOtp (o : Nat) : RegDesc :=
  if o = 0x008 then ⟨0x20000000, [⟨2, 30, .rw, .range 0x08000000 0x081FFF00⟩]⟩ else noReg

/-- Link block (R433). -/
def descLk (o : Nat) : RegDesc :=
  if o < 0x400 then
    let q := o % 0x100
    if q = 0x00 then ⟨0x00640009, [⟨0, 1, .rw, .any⟩, ⟨2, 2, .rw, .range 1 2⟩, ⟨16, 16, .rw, .range 1 65535⟩]⟩
    else if q = 0x0C then ⟨0x04000010, [⟨0, 8, .rw, .range 1 255⟩, ⟨16, 16, .rw, .range 1 65535⟩]⟩
    else if q = 0x10 ∨ q = 0x14 then
      ⟨0, (List.range 4).flatMap (fun i => [⟨8 * i, 6, .rw, .any⟩, ⟨8 * i + 7, 1, .rw, .any⟩])⟩
    else if q = 0x20 then ⟨0, [⟨2, 16, .rw, .any⟩, ⟨18, 13, .rw, .any⟩]⟩
    else if q = 0x24 then ⟨0, [⟨2, 16, .rw, .any⟩, ⟨31, 1, .w1c, .any⟩]⟩
    else noReg
  else if o = 0x400 then ⟨0, [⟨4, 3, .rw, .any⟩, ⟨8, 1, .w1c, .any⟩]⟩
  else noReg

/-- Ring registers (R430): base, base, sizes. -/
def descRing (o : Nat) : RegDesc :=
  if o = 0 ∨ o = 4 then ⟨0, [⟨3, 29, .rw, .any⟩]⟩
  else if o = 8 then ⟨0, [⟨0, 8, .rw, .ring⟩, ⟨8, 8, .rw, .ring⟩]⟩
  else noReg

/-- Ethernet block: the MAC addresses come from factory trim (log entry 5). -/
def descEth (o : Nat) : RegDesc :=
  if 0x2000 ≤ o then noReg
  else
    let p := o / 0x1000
    let q := o % 0x1000
    if q = 0x000 then ⟨0, [⟨0, 2, .rw, .any⟩, ⟨2, 2, .rw, .codes 3 0⟩, ⟨4, 2, .rw, .any⟩]⟩
    else if q = 0x004 then ⟨leWord ((List.range 4).map (fun i => Config.macOctet (6 * p + i))), [⟨0, 32, .rw, .any⟩]⟩
    else if q = 0x008 then ⟨leWord ((List.range 2).map (fun i => Config.macOctet (6 * p + 4 + i))), [⟨0, 16, .rw, .any⟩]⟩
    else if q = 0x00C ∨ q = 0x010 then ⟨0, [⟨0, 32, .rw, .any⟩]⟩
    else if q = 0x028 then ⟨0, [⟨31, 1, .w1c, .any⟩]⟩
    else if 0x040 ≤ q ∧ q < 0x050 then descRing (q - 0x040)
    else noReg

/-- CAN, UART and SPIH block. -/
def descIf (o : Nat) : RegDesc :=
  if o < 0x600 then
    let q := o % 0x100
    if q = 0x00 then ⟨0, [⟨0, 5, .rw, .any⟩]⟩
    else if q = 0x04 then ⟨0x1F1F7E00, [⟨0, 8, .rw, .any⟩, ⟨8, 8, .rw, .any⟩, ⟨16, 7, .rw, .any⟩, ⟨24, 7, .rw, .any⟩]⟩
    else if q = 0x08 then
      ⟨0x08081D00, [⟨0, 8, .rw, .any⟩, ⟨8, 8, .rw, .range 0 31⟩, ⟨16, 7, .rw, .range 0 15⟩, ⟨24, 7, .rw, .any⟩]⟩
    else if 0x20 ≤ q ∧ q < 0x30 then descRing (q - 0x20)
    else if 0x40 ≤ q ∧ q < 0xC0 then
      if q % 8 = 0 then ⟨0, [⟨0, 30, .rw, .any⟩, ⟨31, 1, .rw, .any⟩]⟩ else ⟨0, [⟨0, 29, .rw, .any⟩]⟩
    else noReg
  else if 0x800 ≤ o ∧ o < 0x8C0 then
    let q := o % 0x40
    if q = 0x00 then
      ⟨0x001B2030, [⟨0, 1, .rw, .any⟩, ⟨1, 2, .rw, .codes 3 0⟩, ⟨3, 1, .rw, .any⟩, ⟨4, 2, .rw, .any⟩,
        ⟨6, 2, .rw, .codes 3 0⟩, ⟨8, 24, .rw, .range 80 16777215⟩]⟩
    else if q = 0x08 then ⟨0x04000000, [⟨16, 3, .w1c, .any⟩, ⟨24, 4, .rw, .range 1 15⟩]⟩
    else noReg
  else if o = 0xC00 then ⟨0, [⟨8, 2, .w1c, .any⟩]⟩
  else noReg

/-- Performance counters (R463). -/
def descPm (o : Nat) : RegDesc :=
  if o < 0x400 ∧ o % 0x10 = 0 then
    ⟨0, [⟨0, 11, .rw, .any⟩, ⟨16, 6, .rw, .range 0 36⟩, ⟨30, 2, .rw, .any⟩]⟩
  else noReg

/-- Pin engines (R390). -/
def descPe (o : Nat) : RegDesc :=
  if o < 0x2000 then
    let q := o % 0x400
    if q < 0xC0 then ⟨0, [⟨0, 16, .rw, .any⟩]⟩
    else if q = 0x108 then ⟨0, [⟨8, 2, .w1c, .any⟩]⟩
    else if 0x200 ≤ q ∧ q < 0x300 then
      match q % 0x40 with
      | 0x00 => ⟨0x30001000, [⟨0, 4, .rw, .any⟩, ⟨4, 4, .rw, .any⟩, ⟨8, 1, .rw, .any⟩, ⟨12, 3, .rw, .range 1 4⟩,
          ⟨16, 6, .rw, .range 0 47⟩, ⟨24, 6, .rw, .range 1 48⟩]⟩
      | 0x10 => ⟨0, [⟨8, 4, .w1c, .any⟩]⟩
      | 0x18 => ⟨0, [⟨0, 5, .rw, .any⟩, ⟨8, 5, .rw, .any⟩, ⟨16, 5, .rw, .any⟩, ⟨24, 5, .rw, .any⟩]⟩
      | 0x1C => ⟨0, [⟨0, 16, .rw, .any⟩]⟩
      | _ => noReg
    else noReg
  else if o = 0x2004 ∨ o = 0x2008 then ⟨0, [⟨0, 32, .rw, .any⟩]⟩
  else noReg

/-- Debug registers of a core (Table 102); unit u at 0x10 + 0xC * u. A kind illegal for its unit takes 0. -/
def descDbg (o : Nat) : RegDesc :=
  if o = 0x00 then ⟨0, [⟨3, 1, .rw, .any⟩]⟩
  else if o = 0x04 then ⟨0, [⟨4, 6, .w1c, .any⟩]⟩
  else if 0x10 ≤ o ∧ o < 0x58 then
    if (o - 0x10) % 0xC = 8 then ⟨0, [⟨0, 3, .rw, if (o - 0x10) / 0xC < 4 then .codes 2 0 else .kinds⟩]⟩
    else ⟨0, [⟨0, 32, .rw, .any⟩]⟩
  else noReg

/-- The description of a register of the bus, by block and offset. -/
def descBus (a : Nat) : RegDesc :=
  let o := a % 0x10000
  match a / 0x10000 with
  | 0x4000 =>
    if 0x400 ≤ o ∧ o < 0x400 + 4 * 116 then descUnitOwn
    else if 0x8000 ≤ o ∧ o < 0x8000 + 0x100 * 36 then descBind (o % 0x100)
    else descMode o
  | 0x4001 => descTb o
  | 0x4002 => if o < 0x3000 then descPt (o % 0x100) else noReg
  | 0x4003 => if o < 0x1000 then descGt (o % 0x80) else noReg
  | 0x4004 => if o < 0x1000 then descAdc (o % 0x100) else descCal o
  | 0x4005 => descCmp o
  | 0x4006 => descFab o
  | 0x4007 => descPe o
  | 0x4008 => descDma o
  | 0x4009 => descSram o
  | 0x400A => descFl o
  | 0x400B => descOtp o
  | 0x400C => descRm o
  | 0x400D => descLk o
  | 0x400E => descEth o
  | 0x400F => descIf o
  | 0x4010 => descPm o
  | 0x4011 => descPwr o
  | _ => noReg

/-- The fields in which a write by the highest identity of an edge stands (R9): those that software writes as RW, RWL or WO, with the
RW fields that a unit keeps itself (PWR_ONm, ENGe_PC) and REQ of SYS_MODE. -/
def ordMask (fl : List Fld) (a : Nat) : Word :=
  let m := fl.foldl (fun w f => if f.acc = .w1c then w else w ||| mask f.lo f.len) 0
  if a = 0x40000000 then m ||| mask 8 3
  else if 0x40110000 ≤ a ∧ a < 0x4011000C then mask 0 32
  else if 0x40070000 ≤ a ∧ a < 0x40072000 ∧ 0x200 ≤ a % 0x400 ∧ a % 0x400 < 0x300 ∧ a % 0x40 = 4 then mask 0 6
  else m

/-- The description of the register at a key. -/
def descOf (k : Nat) : RegDesc :=
  if k < 0x100000000 then descBus k
  else if k % 0x100000000 < 0xF0000000 then descPriv (k / 0x100000000 - 1) (k % 0x100000000 - 0xE0000000)
  else descDbg (k % 0x100000000 - 0xF0000000)

/-- The reset value of the register at a key. -/
def resetOf (k : Nat) : Word := (descOf k).reset

end Sys2Proof.Machine
end

