-- ==== Sys2Proof/Machine/Ops.lean ====
section
/-! DEFINITION. Ops.lean: the shared operations over the state: registers, configuration sets, units, power domains, event
sources and the interrupts they raise, replies of register accesses, free values. -/

namespace Sys2Proof.Machine

/-! ## Registers and sets -/

/-- The word of a register. -/
def State.rg (s : State) (k : Nat) : Word := sget (resetOf k) s.regs k

/-- A register set to a word. -/
def State.setRg (s : State) (k : Nat) (w : Word) : State := { s with regs := sput (resetOf k) s.regs k w }

/-- A field of a register. -/
def State.fld (s : State) (k lo len : Nat) : Nat := bits (s.rg k) lo len

/-- A bit of a register. -/
def State.flag (s : State) (k i : Nat) : Bool := bit (s.rg k) i

/-- A field of a register set. -/
def State.setFld (s : State) (k lo len v : Nat) : State := s.setRg k (setBits (s.rg k) lo len v)

/-- A bit of a register set to b. -/
def State.setFlag (s : State) (k i : Nat) (b : Bool) : State := s.setRg k (setBit (s.rg k) i b)

/-- A status bit set by hardware: a write of 1 in the same cycle does not clear it (R9). -/
def State.hwFlag (s : State) (k i : Nat) : State :=
  { s.setFlag k i true with hwSet := sput 0 s.hwSet k (setBit (sget 0 s.hwSet k) i true) }

/-- A counting field that saturates at its largest value. -/
def State.count (s : State) (k lo len n : Nat) : State :=
  s.setFld k lo len (min (2 ^ len - 1) (s.fld k lo len + n))

/-- A write of a register by its access codes (R9). -/
def State.writeRg (s : State) (locked : Bool) (k : Nat) (v : Word) : State :=
  s.setRg k ((descOf k).write locked (sget 0 s.hwSet k) v (s.rg k))

/-- The reset contents of a word of a configuration set (Table 23 and the registers of each section). -/
def setReset (key : Nat) : Word :=
  let o := key % 0x10000
  match key / 0x10000 with
  | 4 => if o % 16 = 4 then 0x01000000 else 0
  | 7 => if 0x400 ≤ o ∧ o % 16 = 0 then 0x00000400 else 0
  | 8 => if o % 16 = 0 then 0x03FF0000 else 0
  | 9 => if o % 8 = 0 then 0x00010000 else 0
  | _ => 0

/-- A word of the active set. -/
def State.act (s : State) (sec off : Nat) : Word := sget (setReset (sec * 0x10000 + off)) s.active (sec * 0x10000 + off)

/-- A word of the shadow set. -/
def State.sha (s : State) (sec off : Nat) : Word := sget (setReset (sec * 0x10000 + off)) s.shadow (sec * 0x10000 + off)

/-- A word of a set written. -/
def setPut (l : Sparse Word) (key : Nat) (w : Word) : Sparse Word := sput (setReset key) l key w

/-! ## Units -/

def State.core (s : State) (c : CoreId) : CoreState := s.cores[c]
def State.setCore (s : State) (c : CoreId) (k : CoreState) : State := { s with cores := s.cores.set c k }
def State.pt (s : State) (n : Fin 48) : PwmState := s.pts[n]
def State.setPt (s : State) (n : Fin 48) (p : PwmState) : State := { s with pts := s.pts.set n p }
def State.gt (s : State) (n : Fin 32) : GtState := s.gts[n]
def State.setGt (s : State) (n : Fin 32) (p : GtState) : State := { s with gts := s.gts.set n p }
def State.adc (s : State) (n : Fin 16) : AdcState := s.adcs[n]
def State.setAdc (s : State) (n : Fin 16) (p : AdcState) : State := { s with adcs := s.adcs.set n p }
def State.relief (s : State) (g : Fin 2) : ReliefState := s.reliefs[g]
def State.setRelief (s : State) (g : Fin 2) (p : ReliefState) : State := { s with reliefs := s.reliefs.set g p }
def State.sd (s : State) (g : Fin 8) : SdState := s.sds[g]
def State.setSd (s : State) (g : Fin 8) (p : SdState) : State := { s with sds := s.sds.set g p }
def State.cmp (s : State) (n : Fin 32) : CmpCore := s.cmps[n]
def State.setCmp (s : State) (n : Fin 32) (p : CmpCore) : State := { s with cmps := s.cmps.set n p }
def State.pair (s : State) (k : Fin 16) : PairState := s.pairs[k]
def State.setPair (s : State) (k : Fin 16) (p : PairState) : State := { s with pairs := s.pairs.set k p }

/-- An event the device schedules for a later edge. -/
def State.after (s : State) (n : Nat) (i : Instr) : State := { s with due := s.due ++ [(s.now + n, i)] }

/-- A scheduled event withdrawn. -/
def State.cancelDue (s : State) (i : Instr) : State := { s with due := s.due.filter (fun p => p.2 != i) }

/-- An event is scheduled for a later edge: its command has no effect before that edge. -/
def State.notYet (s : State) (i : Instr) : Bool := s.due.any (fun p => p.2 == i && decide (s.now < p.1))

/-- The next free byte (Config.freeByte): the state advances past it. -/
def State.takeFree (s : State) : Byte × State := (Config.freeByte s.free, { s with free := s.free + 1 })

/-- A free word: four free bytes. -/
def State.takeFreeWord (s : State) : Word × State :=
  (leWord ((List.range 4).map (fun i => Config.freeByte (s.free + i))), { s with free := s.free + 4 })

/-! ## Answers of register accesses made by a command -/

/-- A refused access: nothing changes but the answer. -/
def State.refuse (s : State) (c : BusCause) : State := { s with resp := ⟨some c, 0⟩ }

/-- An accepted access with the data it returns. -/
def State.answer (s : State) (w : Word) : State := { s with resp := ⟨none, w⟩ }

/-! ## Modes, power domains, fences, roles -/

/-- The mode of the device: 0 DORMANT, 1 BOOT, 2 COMMISSION, 3 RUN, 4 SAFE-HOLD, 5 DIAGNOSE (Table 92). -/
def State.mode (s : State) : Nat := s.fld baseSys 0 3

/-- Bit d of a register that spans several words. -/
def State.bitOf (s : State) (base d : Nat) : Bool := s.flag (base + 4 * (d / 32)) (d % 32)

/-- Bit d of such a register set. -/
def State.putBit (s : State) (base d : Nat) (b : Bool) : State := s.setFlag (base + 4 * (d / 32)) (d % 32) b

def rPwrOn : Nat := basePwr
def rPwrRdy : Nat := basePwr + 0x010
def rPwrBist : Nat := basePwr + 0x020
def rPwrStat : Nat := basePwr + 0x030

/-- Power domain d is ready (Table 95). -/
def State.domReady (s : State) (d : Nat) : Bool := s.bitOf rPwrRdy d

/-- Core n is fenced (R296). -/
def State.fenced (s : State) (n : Nat) : Bool := decide (n < 36) && s.bitOf (rRmFence 0) n

/-- What a core is to the pairs (R275). -/
inductive Role where
  | solo
  | main (k : Fin 16)
  | checker (k : Fin 16)
  deriving DecidableEq, Repr

/-- The holders of the roles of pair k (RM_ROLEk). -/
def State.mainOf (s : State) (k : Fin 16) : Nat := s.fld (rRmPair k 0x0C) 0 6
def State.checkerOf (s : State) (k : Fin 16) : Nat := s.fld (rRmPair k 0x0C) 16 6

/-- RM_STATk.STATE. -/
def State.pairSt (s : State) (k : Fin 16) : Nat := s.fld (rRmPair k 0x08) 0 3

/-- Pair k is in a paired mode. -/
def State.paired (s : State) (k : Fin 16) : Bool := decide ((s.pair k).mode ≠ 0)

/-- The role of core c: that of the first pair in a paired mode that names it. -/
def State.role (s : State) (c : Nat) : Role :=
  match (List.finRange 16).find? (fun k => s.paired k && (s.mainOf k == c || s.checkerOf k == c)) with
  | some k => if s.mainOf k = c then .main k else .checker k
  | none => .solo

/-- The identity under which core c passes the ownership checks: the main role of pair k counts as C(2k) (R275). -/
def State.ownId (s : State) (c : Nat) : Nat :=
  match s.role c with
  | .main k => 2 * k.val
  | _ => c

/-- The core that the configuration means by Cn: the holder of the main role where n = 2k and pair k is paired (R275). -/
def State.holder (s : State) (n : Nat) : Nat :=
  if h : n < 32 then
    let k : Fin 16 := ⟨n / 2, by omega⟩
    if n % 2 = 0 && s.paired k then s.mainOf k else n
  else n

/-- The core named by a number, core 0 standing for one that does not exist. -/
def coreId (n : Nat) : CoreId := if h : n < 37 then ⟨n, h⟩ else 0

/-- An owner named in the configuration is fenced (R275, R296). -/
def State.ownerFenced (s : State) (o : Nat) : Bool :=
  if h : o < 32 then
    let k : Fin 16 := ⟨o / 2, by omega⟩
    if o % 2 = 0 && s.paired k then s.pairSt k == 6 else s.fenced o
  else s.fenced o

/-- Who makes an access and in which world (true Service) and level (true supervisor). -/
structure Ctx where
  /-- The master identity (Table 6). -/
  id : Nat
  /-- The identity for ownership checks: 0 to 36 (R275). -/
  owner : Nat
  world : Bool
  level : Bool
  /-- SC or the debug port, which ownership does not bind. -/
  free : Bool
  /-- The debug port. -/
  debug : Bool
  deriving DecidableEq, Repr

/-! ## Jobs (R406, R410) -/

/-- A self-test of Table 87 runs on target i. -/
def State.testing (s : State) (t i : Nat) : Bool :=
  s.oz.jobs.any (fun j => j.run && (match j.kind with | .test n m => n == t && m.getLsbD i | _ => false))

/-- The running jobs of a kind end with a status and a result. -/
def State.endJob (s : State) (k : JobKind) (status : Byte) (result : List Byte) : State :=
  if s.oz.jobs.any (fun j => j.run && j.kind == k) then
    { s with oz := { s.oz with jobs := s.oz.jobs.map (fun j =>
        if j.run && j.kind == k then { j with run := false, status := status, result := result } else j) } }
  else s

/-! ## Event sources (R38 to R40) -/

/-- The unit of a source is powered and not fenced, and the source is not reserved (R39). -/
def State.sourceLive (s : State) (src : Nat) : Bool :=
  if src < 320 then true
  else if src < 384 then s.domReady (37 + (src - 320) / 4)
  else if src < 448 then s.domReady (80 + (src - 384) / 32)
  else if src < 520 then
    let n := s.holder ((src - 448) / 2)
    s.domReady n && !s.fenced n && (match s.role n with | .checker _ => false | _ => true)
  else if src < 544 then s.domReady 84
  else if src < 672 then true
  else if src < 768 then s.domReady (68 + (src - 672) / 12)
  else if src < 832 then true
  else if src < 896 then s.domReady (76 + (src - 832) / 16)
  else if src < 902 then s.domReady 82
  else if src < 928 then s.domReady 83
  else if src < 950 then true
  else if src < 960 then false
  else src != 991 && decide (src < 1024)

/-- The route word of a source (Table 56). -/
def State.route (s : State) (src : Nat) : Word := s.act 10 (4 * src)

/-- The pending bit of a source becomes set on the core of its route (R266). The checker of a pair never has one. -/
def State.raiseInt (s : State) (src : Nat) : State :=
  let r := s.route src
  let c := s.holder (bits r 0 6)
  if bit r 16 && decide (c < 37) && s.domReady c then
    match s.role c with
    | .checker _ => s
    | _ => s.hwFlag (rIcPend c (src / 32)) (src % 32)
  else s

/-- An event source activates in the current cycle: it fills the feeds of its channels and raises its interrupt. -/
def State.fire (s : State) (src : Nat) : State :=
  if s.sourceLive src then
    ({ s with fab := { s.fab with feed := if s.fab.feed.contains src then s.fab.feed else s.fab.feed ++ [src] } }).raiseInt src
  else s

/-- A source clocked by a core clock: it activates at the first tb edge after its condition (R38). -/
def State.fireCore (s : State) (src : Nat) : State :=
  { s with fab := { s.fab with coreFires := if s.fab.coreFires.contains src then s.fab.coreFires else s.fab.coreFires ++ [src] } }

/-- The sources of the core clocks at a tb edge. -/
def State.fireWaiting (s : State) : State :=
  s.fab.coreFires.foldl State.fire { s with fab := { s.fab with coreFires := [] } }

/-! ## Pin claims and safe-hold (R483, R145) -/

/-- Owner o claims pin p in world w in the active set. -/
def State.claimIn (s : State) (o : Nat) (w : Bool) (p : Nat) : Bool :=
  bit (s.act 12 (12 * (2 * o + b2n w) + 4 * (p / 32))) (p % 32)

/-- Owner o claims pin p in either world. -/
def State.claims (s : State) (o p : Nat) : Bool := s.claimIn o false p || s.claimIn o true p

/-- The owner of a pin. -/
def State.pinOwner (s : State) (p : Nat) : Option Nat :=
  if s.active.any (fun e => e.1 / 0x10000 == 12) then (List.range 37).find? (fun o => s.claims o p) else none

/-- A condition of R145 holds for the pin, so it shows its safe-hold pattern. A pin that an overrun or a tick loss sent there stays
until that request is released, whoever claims it since (R52). -/
def State.pinSafe (s : State) (p : Nat) : Bool :=
  s.mode != 3 || s.holdPins.any (fun e => e.1.val == p) ||
  match s.pinOwner p with
  | none => true
  | some o => s.ownerFenced o || s.holdOvr.getLsbD o || s.holdRed.getLsbD o

/-! ## Core clocks (R14, R43, R488) -/

/-- The rate of the cluster of core d (0 full, 1 three-quarter, 2 half) and the edge c from which its pattern counts (R488). -/
def State.clusterClk (s : State) (d : Nat) : Nat × Nat :=
  if h : d < 36 then (s.fld rDroopStat (2 * (d / 4)) 2, s.clkAt[(⟨d / 4, by omega⟩ : Fin 9)]) else (0, 0)

/-- The clock of core c: both copies of a pair follow the slower of their clusters (R14), the main's where the rates agree. -/
def State.coreClk (s : State) (c : Nat) : Nat × Nat :=
  let slower := fun (a b : Nat × Nat) => if a.1 < b.1 then b else a
  match s.role c with
  | .solo => s.clusterClk c
  | .main k => slower (s.clusterClk c) (s.clusterClk (s.checkerOf k))
  | .checker k => slower (s.clusterClk (s.mainOf k)) (s.clusterClk c)

/-- tb edge t is an edge of a clock: those at c + 4k + 3, or at an odd distance from c, are removed (R488). -/
def clkOn (k : Nat × Nat) (t : Nat) : Bool :=
  match k.1 with
  | 0 => true
  | 1 => decide ((t - k.2) % 4 ≠ 3)
  | _ => decide ((t - k.2) % 2 = 0)

/-- Edges of a clock after the edge c from which its pattern counts, up to tb edge t. -/
def clkCount (k : Nat × Nat) (t : Nat) : Nat :=
  let d := t - k.2
  match k.1 with
  | 0 => d
  | 1 => 3 * (d / 4) + min (d % 4) 2
  | _ => d / 2

/-- tb cycles from tb edge t to the n-th edge after it of a clock. -/
def clkTb (k : Nat × Nat) (t n : Nat) : Nat :=
  let d := t - k.2
  let m := clkCount k t + n
  match k.1 with
  | 0 => n
  | 1 => 4 * (m / 3) + m % 3 - d
  | _ => 2 * m - d

/-- This tb edge is an edge of core c's clock (R43, R488). -/
def State.coreCycle (s : State) (c : CoreId) : Bool := clkOn (s.coreClk c.val) s.now

/-- tb cycles from this edge to the n-th edge after it of core c's clock. -/
def State.coreTb (s : State) (c : Nat) (n : Nat) : Nat := clkTb (s.coreClk c) s.now n

/-- The clock of cluster k at tb edge t, with the changes of rate that its sensor has called for (R488). -/
def State.clkThen (s : State) (k : Fin 9) (t : Nat) : Nat × Nat :=
  s.rateDue.foldl (fun r e => if e.2.1 = k ∧ e.1 ≤ t then (e.2.2, e.1) else r) (s.fld rDroopStat (2 * k.val) 2, s.clkAt[k])

/-- The rate that cluster k runs at once every change called for has taken place. -/
def State.rateLast (s : State) (k : Fin 9) : Nat :=
  s.rateDue.foldl (fun r e => if e.2.1 = k then e.2.2 else r) (s.fld rDroopStat (2 * k.val) 2)

/-- The sensor of cluster k calls for a rate at this edge s: it is in force from c, the second core edge after s (R488). -/
def State.rateAsk (s : State) (k : Fin 9) (rate : Nat) : State :=
  let c := ((List.range 9).map (fun i => s.now + 1 + i)).filter (fun t => clkOn (s.clkThen k t) t)
  { s with rateDue := s.rateDue ++ [(c.getD 1 s.now, k, rate)] }

/-- A count of core cycles that ends at tb edge e stands when a clock changes at this edge: the time grows (R5). -/
def retimed (old new : Nat × Nat) (now e : Nat) : Nat :=
  if e ≤ now then e else now + clkTb new now (clkCount old e - clkCount old now)

/-- What is counted in core cycles keeps its count where the clocks of s have become those of t (R5). -/
def State.retime (s t : State) : State :=
  let at_ := fun (c e : Nat) => retimed (s.coreClk c) (t.coreClk c) t.now e
  { t with
    due := t.due.map (fun e => match e.2 with
      | .checkpointCompare k | .sluiceTimeout k | .stateCopyEnd k => (at_ (t.mainOf k) e.1, e.2)
      | _ => e)
    pairs := Vector.ofFn (fun k => { t.pairs[k] with act := t.pairs[k].act.map (fun a => (at_ (t.mainOf k) a.1, a.2)) })
    cores := Vector.ofFn (fun c => { t.cores[c] with testEnd := t.cores[c].testEnd.map (at_ c.val) })
    entering := t.entering.map (fun e => { e with final := at_ e.core.val e.final, begins := at_ e.core.val e.begins })
    sparges := Vector.ofFn (fun i => if i.val < 8 then t.sparges[i] else { t.sparges[i] with dueAt := at_ (i.val - 8) t.sparges[i].dueAt }) }

end Sys2Proof.Machine
end

