-- ==== Sys2Proof/Machine/Fabric.lean ====
section
/-! DEFINITION. Fabric.lean: the event fabric (chapter 11): channel feeds, register stages, loop guards, logic cells, consumer
inputs, coincidence, event counters, and the commands of the fabric's rows. -/

namespace Sys2Proof.Machine

/-! ## Configuration -/

/-- CH_ATTRc and CH_GUARDc of the active set (section 3). -/
def State.chAttr (s : State) (c : Nat) : Word := s.act 3 (8 * c)
def State.chGuard (s : State) (c : Nat) : Nat := if c < 16 then 0 else bits (s.act 3 (8 * c + 4)) 0 16

/-- The cell that feeds channel c, where one does (R301, R302). -/
def State.chCell (s : State) (c : Nat) : Option Nat :=
  let a := s.chAttr c
  if decide (16 ≤ c) && bit a 10 then some (bits a 11 7) else none

/-- Source src is enabled onto channel c in the producer matrix of a set. -/
def matrixBit (set : Sparse Word) (src c : Nat) : Bool :=
  bit (sget 0 set (0x10000 + 0x20 * src + 4 * (c / 32))) (c % 32)

/-- The sources marked reserved (Table 16, Table 17): enabling one has no effect (R39). -/
def reservedSource (src : Nat) : Bool := (decide (950 ≤ src) && decide (src < 960)) || src == 991

/-- The sources enabled onto channel c, ascending. -/
def enabledSources (set : Sparse Word) (c : Nat) : List Nat :=
  ((set.filter (fun e => decide (e.1 / 0x10000 = 1) && decide (e.1 % 0x20 / 4 = c / 32) && bit e.2 (c % 32))).map
    (fun e => e.1 % 0x10000 / 0x20)).filter (fun src => !reservedSource src)

/-- The sources that act on channel c: at most the 32 lowest on a weir channel (R302). -/
def State.producers (s : State) (c : Nat) : List Nat :=
  if c < 16 then (enabledSources s.active c).take 32 else enabledSources s.active c

/-- The selected channel of consumer m, none when the input is inactive (R303, R311). -/
def State.consel (s : State) (m : Nat) : Option Nat :=
  let w := bits (s.act 2 (4 * (m / 2))) (16 * (m % 2)) 16
  if w.testBit 15 && decide (16 ≤ w % 256) && decide (m < 632) then some (w % 256) else none

/-- Channels that some matrix word of the active set names, or that a cell feeds. -/
def State.chMatrixFeed (s : State) (c : Nat) : List Nat := s.fab.feed.filter (fun src => (s.producers c).contains src)

/-! ## Logic cells (R304 to R308) -/

/-- What a cell shows in a cycle. -/
structure CellVal where
  f : Bool
  q : Bool
  y : Bool
  out : Bool
  deriving DecidableEq, Repr

def cellZero : CellState := ⟨false, 0, false, false⟩

/-- The state of a cell. -/
def State.cell (s : State) (n : Nat) : CellState := sget cellZero s.fab.cells n

/-- CELLn_IN and CELLn_FN. -/
def State.cellIn (s : State) (n : Nat) : Word := s.act 4 (16 * n)
def State.cellFn (s : State) (n : Nat) : Word := s.act 4 (16 * n + 4)

/-- Cells that the active set configures or that hold state. -/
def State.usedCells (s : State) : List Nat :=
  (List.range 128).filter (fun n =>
    s.active.any (fun e => e.1 / 16 == 0x40000 / 16 + n) || s.fab.cells.any (fun e => e.1 == n) || s.fab.ended.any (fun e => e.1 == n))

/-- LUT depths by rounds: after as many rounds as there are cells every depth is final (R308). -/
def depthRound (s : State) (d : Sparse Nat) (used : List Nat) : Sparse Nat :=
  used.map (fun n =>
    let ins := (List.range 4).map (fun i => bits (s.cellIn n) (8 * i) 8)
    let ds := ins.map (fun c => match s.chCell c with
      | some m => if bits (s.cellFn m) 16 2 = 1 ∨ bits (s.cellFn m) 16 2 = 2 then 0
                  else if sget 1 d m = 8 then 0 else sget 1 d m
      | none => 0)
    (n, 1 + ds.foldl max 0))

def depthRounds (s : State) (used : List Nat) : Nat → Sparse Nat → Sparse Nat
  | 0, d => d
  | k + 1, d => depthRounds s used k (depthRound s d used)

/-- CELLn_STAT.DEPTH of every used cell. -/
def State.cellDepths (s : State) : Sparse Nat :=
  let used := s.usedCells
  depthRounds s used used.length []

/-- The value of input channel c for a cell in this cycle, given what the cells show so far. -/
def cellInput (s : State) (depths : Sparse Nat) (vals : Sparse CellVal) (c : Nat) : Bool :=
  let direct := !(s.chMatrixFeed c).isEmpty || s.fab.fired.any (fun x => x.val == c)
  match s.chCell c with
  | some m =>
    let ff := bits (s.cellFn m) 16 2
    if ff = 0 ∧ sget 1 depths m = 8 then s.fab.stage.getLsbD c
    else (sget ⟨false, false, false, false⟩ vals m).out || s.fab.fired.any (fun x => x.val == c)
  | none => direct

/-- Whether the filter passes q, with its count before this cycle (R306). -/
def filterY (fn : Word) (k : Nat) (q : Bool) : Bool :=
  let n := max 1 (bits fn 24 8)
  match bits fn 18 2 with
  | 1 => q && decide (n ≤ k + 1)
  | 2 => q || decide (0 < k)
  | _ => q

/-- The filter's count after a cycle in which q held: the run of ones, or the cycles of the stretch left. -/
def filterK (fn : Word) (k : Nat) (q : Bool) : Nat :=
  let n := max 1 (bits fn 24 8)
  match bits fn 18 2 with
  | 1 => if q then min 255 (k + 1) else 0
  | 2 => if q then n - 1 else k - 1
  | _ => 0

/-- What cell n shows in this cycle from its inputs; one that has been moved on already keeps what it has shown. -/
def cellEval (s : State) (x : List Bool) (n : Nat) : CellVal :=
  match sfind s.fab.ended n with
  | some v => ⟨v.1, v.2.1, v.2.2.1, v.2.2.2⟩
  | none =>
  let fn := s.cellFn n
  let st := s.cell n
  let i := (x.zipIdx.foldl (fun a p => a + b2n p.1 * 2 ^ p.2) 0)
  let f := (bits fn 0 16).testBit i
  let ff := bits fn 16 2
  let q := if ff = 1 ∨ ff = 2 then st.q else f
  let y := filterY fn st.k q
  ⟨f, q, y, if bit fn 20 then y && !st.y else y⟩

def cellRound (s : State) (depths : Sparse Nat) (used : List Nat) (vals : Sparse CellVal) : Sparse CellVal :=
  used.map (fun n =>
    (n, cellEval s ((List.range 4).map (fun i => cellInput s depths vals (bits (s.cellIn n) (8 * i) 8))) n))

def cellRounds (s : State) (depths : Sparse Nat) (used : List Nat) : Nat → Sparse CellVal → Sparse CellVal
  | 0, v => v
  | k + 1, v => cellRounds s depths used k (cellRound s depths used v)

/-- What every used cell shows in this cycle: chains of at most 8 cells settle within it (R308). -/
def State.cellVals (s : State) : Sparse CellVal :=
  let used := s.usedCells
  if used.isEmpty then [] else cellRounds s s.cellDepths used 10 []

/-- The state of cell n after a cycle in which it showed v: its flip-flop, filter and output move on (R305 to R307). -/
def State.cellMoved (s : State) (n : Nat) (v : CellVal) : State :=
  let fn := s.cellFn n
  let st := s.cell n
  let ff := bits fn 16 2
  let q' := if ff = 1 then v.f else if ff = 2 then (st.q ^^ v.f) else false
  { s with fab := { s.fab with cells := sput cellZero s.fab.cells n ⟨q', filterK fn st.k v.q, v.y, v.out⟩ } }

/-- Cell n at the end of a cycle in which it showed v: it moves on, and its source activates when the output rose (R307). -/
def State.cellAdvance (s : State) (n : Nat) (v : CellVal) : State :=
  if v.out && !(s.cell n).out then (s.cellMoved n v).fire (544 + n) else s.cellMoved n v

/-- CELL_OUTPUT_CHANGE (R307): cell n moves on, once in a cycle; its source activates at the next edge when the output rose, and its
channels go on to see what it shows in this cycle. -/
def execCellOutputChange (n : Fin 128) (s : State) : Host.Outcome State Fault Refusal :=
  .next (if (sfind s.fab.ended n.val).isSome then s
    else
      let v := sget ⟨false, false, false, false⟩ s.cellVals n
      let t := s.cellMoved n v
      let u := { t with fab := { t.fab with ended := sinsert n.val (v.f, v.q, v.y, v.out) t.fab.ended } }
      if v.out && !(s.cell n).out then u.fireCore (544 + n) else u)

/-- How many activations meet in the feed of channel c: sources or cell output, and software fires. -/
def State.feedCount (s : State) (vals : Sparse CellVal) (c : Nat) : Nat :=
  let direct := match s.chCell c with
    | some m => b2n (sget ⟨false, false, false, false⟩ vals m).out
    | none => (s.chMatrixFeed c).length
  direct + b2n (s.fab.fired.any (fun x => x.val == c))

/-- Channels whose feed may hold something: those that a fed source is enabled onto, those fired, those fed by a cell. -/
def State.fedChannels (s : State) : List (Fin 256) :=
  if s.fab.feed.isEmpty && s.fab.fired.isEmpty && !s.active.any (fun e => e.1 / 0x10000 == 3) then []
  else (List.finRange 256).filter (fun c =>
    (s.chCell c).isSome || s.fab.fired.contains c ||
    s.fab.feed.any (fun src => matrixBit s.active src c))

/-- Channel c is muted. -/
def State.muted (s : State) (c : Nat) : Bool := s.bitOf (rChMuted 0) c

/-- The capture of channel c with a feed of n activations (R318, R319): the register stage, its count, its guard, the
coincidence records. -/
def State.capture (s : State) (c : Fin 256) (n : Nat) : State :=
  if n = 0 ∨ s.muted c then s
  else
    let cnt := s.fld (rChCnt c) 0 16
    let g := s.chGuard c
    if g ≠ 0 ∧ g < cnt + 1 then
      ((s.putBit (rChMuted 0) c true).hwFlag rFabStat 0).setFld rFabStat 8 8 c
    else
      let fired := s.fab.fired.contains c
      let s1 := s.count (rChCnt c) 0 16 1
      let s2 := if n ≥ 2 then s1.hwFlag (rChCoinc (c / 32)) (c % 32) else s1
      { s2 with fab := { s2.fab with
          stage := s2.fab.stage ||| BitVec.ofNat 256 (2 ^ c.val)
          merged := if decide (n ≥ 2) && fired then s2.fab.merged ||| BitVec.ofNat 256 (2 ^ c.val) else s2.fab.merged } }

/-- The fabric's part of a tb edge: every register stage captures the feed of the cycle that ends, every cell moves on but those
that a swap at this edge has cleared, which start with the new cycle (R305, R306), and the feeds of the new cycle start empty. -/
def State.fabricEdge (s : State) (fresh : List Nat) : State :=
  let vals := s.cellVals.filter (fun p => !fresh.contains p.1)
  let caps : List (Fin 256 × Nat) := (s.fedChannels).map (fun c => (c, s.feedCount vals c.val))
  let s1 := { s with fab := { s.fab with stage := 0, merged := 0 } }
  let s2 := caps.foldl (fun t p => t.capture p.1 p.2) s1
  let s3 := { s2 with fab := { s2.fab with feed := [], fired := [], ended := [] } }
  (vals.filter (fun p => (sfind s.fab.ended p.1).isNone)).foldl (fun t p => t.cellAdvance p.1 p.2) s3

/-- The cells whose entry differs between the active sets of two states, which a swap from one to the other clears (Table 20). -/
def State.cellsCleared (s t : State) : List Nat :=
  (List.range 128).filter (fun n => (List.range 4).any (fun i => s.act 4 (16 * n + 4 * i) != t.act 4 (16 * n + 4 * i)))

/-- The consumer inputs active at the edge after the current cycle: those whose channel's stage holds an activation. -/
def State.activeConsumers (s : State) : List Nat :=
  if s.fab.stage = 0 then [] else
    (s.active.filter (fun e => e.1 / 0x10000 == 2)).flatMap (fun e =>
      let m := e.1 % 0x10000 / 2
      [m, m + 1].filter (fun i => match s.consel i with
        | some c => s.fab.stage.getLsbD c
        | none => false))

/-- Consumer m acts on an input that merged, `merged` being the captures of the cycle before (R313). -/
def State.noteMerged (s : State) (merged : BitVec 256) (m : Nat) : State :=
  match s.consel m with
  | some c => if merged.getLsbD c then s.hwFlag (rConsCoinc (m / 32)) (m % 32) else s
  | none => s

/-! ## Ownership of channels (R315 to R317) -/

/-- The writer is the owner of channel c itself, in OWORLD; a DMA channel that acts for the owner is another master (R315, R317). -/
def State.chOwner (s : State) (x : Ctx) (c : Nat) : Bool :=
  let a := s.chAttr c
  decide (x.id < 37) && decide (x.owner = bits a 0 6) && (x.world == bit a 6)

/-- The writer may fire or rearm channel c: its owner, in OWORLD, at OLEVEL or above, while SWFIRE is 1. -/
def State.mayFire (s : State) (x : Ctx) (c : Nat) : Bool :=
  let a := s.chAttr c
  bit a 9 && s.chOwner x c && (!bit a 7 || x.level)

/-- CH_FIRE (R315): an activation in the channel's feed in the current cycle. -/
def State.fireChannel (s : State) (x : Ctx) (c : Fin 256) : Except BusCause State :=
  if s.mayFire x c then
    .ok { s with fab := { s.fab with fired := if s.fab.fired.contains c then s.fab.fired else s.fab.fired ++ [c] } }
  else .error .denied

/-- CH_REARM (R320): the count clears and captures resume. -/
def State.rearmChannel (s : State) (x : Ctx) (c : Fin 256) : Except BusCause State :=
  if s.mayFire x c || (x.free && !x.debug && bit (s.chAttr c) 9) then
    .ok ((s.putBit (rChMuted 0) c false).setFld (rChCnt c) 0 16 0)
  else .error .denied

/-- A reader sees the true state of channel c (R316, R317). -/
def State.chVisible (s : State) (x : Ctx) (c : Nat) : Bool :=
  let a := s.chAttr c
  x.debug || (bit a 9 && (x.free || x.world == bit a 8))

/-- A writer may clear CH_COINC bit c (R317). -/
def State.coincMayClear (s : State) (x : Ctx) (c : Nat) : Bool :=
  let a := s.chAttr c
  x.debug || (bit a 9 && (x.free || (s.chOwner x c && (x.world == bit a 8))))

/-! ## Event counters (R321) -/

/-- Event counter n at an edge where its inputs act. -/
def State.evcntEdge (s : State) (n : Nat) (cnt clr : Bool) : State :=
  let v := s.fld (rEvcntVal n) 0 32
  if clr then s.setFld (rEvcntVal n) 0 32 (b2n cnt)
  else if cnt then s.setFld (rEvcntVal n) 0 32 (min 0xFFFFFFFF (v + 1)) else s

/-- Every activation count cleared (R318). -/
def State.clearChCounts (s : State) : State := { s with regs := sclear s.regs (rChCnt 0) (4 * 256) }

/-- Counts of the channels that captured at a tick edge take 1 (R318). -/
def State.tickChCounts (s : State) : State :=
  (s.regs.filter (fun e => decide (rChCnt 0 ≤ e.1) && decide (e.1 < rChCnt 256))).foldl
    (fun t e => t.setFld e.1 0 16 (b2n (s.fab.stage.getLsbD ((e.1 - rChCnt 0) / 4) && !s.muted ((e.1 - rChCnt 0) / 4)))) s

end Sys2Proof.Machine
end

