-- ==== Sys2Proof/Machine/Pwm.lean ====
section
/-! DEFINITION. Pwm.lean: the PWM timers (chapter 5): counting, reload, compares, trip, dead time, safe-hold and pins. -/

namespace Sys2Proof.Machine

/-- PTn_MODE, PTn_ACT, PTn_DTR, PTn_DTF, PTn_TRIP, PTn_SAFE and PTn_PHASE of the active set. -/
def State.ptSet (s : State) (n : Nat) (off : Nat) : Word := s.act 5 (64 * n + off)

def rPtRld (n : Nat) : Nat := rPt n 0x44
def rPtShA (n : Nat) : Nat := rPt n 0x48
def rPtShB (n : Nat) : Nat := rPt n 0x4C
def rPtCmpA (n : Nat) : Nat := rPt n 0x50
def rPtCmpB (n : Nat) : Nat := rPt n 0x54
def rPtCtl (n : Nat) : Nat := rPt n 0x58
def rPtStat (n : Nat) : Nat := rPt n 0x5C

/-- The fraction of a compare word (R128). -/
def fracOf (w : Word) : Fin 32 := ⟨w.toNat % 32, Nat.mod_lt _ (by decide)⟩

/-- A pin action applied to a level (Table 31). -/
def pinAction (code : Nat) (l : Bool) : Bool :=
  match code with
  | 1 => true
  | 2 => false
  | 3 => !l
  | _ => l

/-- The timer counts (PTn_MODE.EN). -/
def State.ptEn (s : State) (n : Nat) : Bool := bit (s.ptSet n 0) 7

/-- The trip line: a weir channel in the mask holds an activation in its register stage (R140). -/
def State.tripLine (s : State) (n : Nat) : Bool :=
  (onesBelow (bits (s.ptSet n 0x10) 0 16) 16).any (fun w => s.fab.stage.getLsbD w)

/-! ## Events of a timer -/

/-- The counter reaches zero: the source activates, a trip may end (R142), a pin whose safe-hold condition has ended
comes back at the next counting edge (R147). -/
def State.ptZero (s : State) (n : Fin 48) : State :=
  let p := s.pt n
  let st := s.rg (rPtStat n)
  let latch := bit (s.ptSet n 0) 6
  let ends := bit st 0 && !p.tripLine && (!latch || bit st 7)
  let s1 := if ends then s.setRg (rPtStat n) (setBit (setBit st 0 false) 7 false) else s
  (s1.setPt n { p with cnt := 0, evZ := true, zsA := true, zsB := true }).fire (4 * n)

/-- A compare matches (R129). -/
def State.ptMatch (s : State) (n : Fin 48) (b : Bool) : State :=
  let p := s.pt n
  let w := s.rg (if b then rPtCmpB n else rPtCmpA n)
  let p1 := if b then { p with cnt := bits w 5 27, evB := some (fracOf w) }
            else { p with cnt := bits w 5 27, evA := some (fracOf w) }
  (s.setPt n p1).fire (4 * n + 1 + b2n b)

/-- The level of a pin for the trip stage: a high-impedance pin counts as low. -/
def pinLevel (x : Option Bool) : Bool := x.getD false

/-- The timer enters the tripped state (R140, R141), the pins having been at the given levels in the cycle before. With
TRIP_DIRECT at 0 the action stage applies the trip's actions; the levels that the entry edge gives are kept all the same, for a swap
that sets TRIP_DIRECT while the timer is tripped (DESIGN CHOICE, log entry 43). -/
def State.ptTrip (s : State) (n : Fin 48) (a b : Bool) : State :=
  let p := s.pt n
  let act := s.ptSet n 4
  let fix := fun (code : Nat) (l : Bool) => if code ≠ 0 then some (pinAction code l) else none
  let p1 := { p with fixA := fix (bits act 6 2) a, fixB := fix (bits act 14 2) b }
  (((s.setPt n p1).setFlag (rPtStat n) 0 true).count (rPtStat n) 16 16 1).fire (4 * n + 3)

/-! ## Pins -/

/-- The safe-hold pattern of a pin of timer n (R144). -/
def State.safePattern (s : State) (n : Nat) (b : Bool) : Nat := bits (s.ptSet n 0x14) (2 * b2n b) 2

/-- Every PWM pin is high-impedance: in DORMANT, and in BOOT until the OTP configuration record is loaded (R146). -/
def State.pinsHighZ (s : State) : Bool := s.mode == 0 || (s.mode == 1 && !s.otpLoaded)

/-- A pin's level after the trip and safe-hold stages, from the dead-time stage's output; the trip stage acts while TRIP_DIRECT is
1. -/
def State.pinAfter (s : State) (n : Nat) (b : Bool) (d : Bool) (fix : Option Bool) (sh : Bool) (hold : Option Bool) :
    Option Bool :=
  if s.pinsHighZ then none
  else if sh then
    match s.safePattern n b with
    | 0 => some false
    | 1 => some true
    | 2 => none
    | _ => some (hold.getD false)
  else some (if bit (s.ptSet n 0) 5 then fix.getD d else d)

/-- Both pins formed again from their stages (R135). Under PWM_LOOPBACK they toggle: their levels are free values (R410). -/
def State.ptPins (s : State) (n : Fin 48) : State :=
  let p := s.pt n
  if s.testing 9 n then
    let r := s.takeFree
    r.2.setPt n { p with pinA := some (r.1.getLsbD 0), pinB := some (r.1.getLsbD 1) }
  else s.setPt n { p with
    pinA := s.pinAfter n false p.dA p.fixA p.shA p.holdA
    pinB := s.pinAfter n true p.dB p.fixB p.shB p.holdB }

/-- A dead time expires: the pin rises if the level that calls for it still holds (R139). -/
def State.ptRise (s : State) (n : Fin 48) (b : Bool) : State :=
  let p := s.pt n
  if b then
    match p.riseB with
    | some d => if p.la then s else (s.setPt n { p with dB := true, riseB := none, edgeB := d, roseB := d }).ptPins n
    | none => s
  else
    match p.riseA with
    | some d => if p.la then (s.setPt n { p with dA := true, riseA := none, edgeA := d, roseA := d }).ptPins n else s
    | none => s

/-- The rises whose time lies in the cycle that this edge opens (R138). -/
def State.ptDueRises (s : State) (n : Fin 48) : State :=
  let due := fun (r : Option Nat) => r.any (fun d => decide (d < 32 * (s.now + 1)))
  let s1 := if due (s.pt n).riseA then s.ptRise n false else s
  if due (s.pt n).riseB then s1.ptRise n true else s1

/-- The action stage at an edge: the levels after the events of the cycle before and a trip whose entry edge this is, and the
fraction by which the change is delayed (R136, R137, R141). -/
def ptAction (mode act : Word) (tripped evT : Bool) (p : PwmState) (pinB : Bool) (l : Bool) : Bool × Nat :=
  let o := if pinB then 8 else 0
  let direct := bit mode 5
  let latch := bit mode 6
  let supp := tripped && !direct
  let t := if evT then bits act (o + 6) 2 else 0
  let eb := if p.evB.isSome && !supp then bits act (o + 4) 2 else 0
  let ea := if p.evA.isSome && !supp then bits act (o + 2) 2 else 0
  let z := if p.evZ && !(supp && latch) then bits act o 2 else 0
  if t ≠ 0 then (pinAction t l, 0)
  else if eb ≠ 0 then (pinAction eb l, (p.evB.getD 0).val)
  else if ea ≠ 0 then (pinAction ea l, (p.evA.getD 0).val)
  else if z ≠ 0 then (pinAction z l, 0)
  else (l, 0)

/-- The dead-time stage in complementary mode when LA takes a new level at time t, in 1/32 tb cycles; the second component
says that a pulse was suppressed (R138, R139). The pin that falls does so at t; where its rise d waits for an earlier time of the
same cycle, it rises at d first. -/
def deadTime (dtr dtf : Nat) (p : PwmState) (la : Bool) (t : Nat) : PwmState × Bool :=
  let before := fun (r : Option Nat) => r.any (fun d => decide (d < t))
  if la = p.la then (p, false)
  else if la then
    ({ p with la := true, dB := false, riseB := none, riseA := some (t + dtr)
              edgeB := if p.dB || before p.riseB then t else p.edgeB
              roseB := if before p.riseB then p.riseB.getD 0 else p.roseB },
      p.riseB.any (fun d => decide (t ≤ d)))
  else
    ({ p with la := false, dA := false, riseA := none, riseB := some (t + dtf)
              edgeA := if p.dA || before p.riseA then t else p.edgeA
              roseA := if before p.riseA then p.riseA.getD 0 else p.roseA },
      p.riseA.any (fun d => decide (t ≤ d)))

/-- The dead-time stage of a timer that a swap at time t has set to complementary mode: it takes the output that LA calls for, a pin
that rises doing so after its dead time (R484). -/
def cplStart (dtr dtf : Nat) (p : PwmState) (la : Bool) (t u : Nat) : PwmState :=
  { p with
    la := la, dA := la && p.dA, dB := !la && p.dB
    riseA := if la && !p.dA then some (u + dtr) else none
    riseB := if !la && !p.dB then some (u + dtf) else none
    edgeA := if p.dA && !la then t else p.edgeA
    edgeB := if p.dB && la then t else p.edgeB }

/-- In independent mode the dead-time stage passes LA and LB, whose changes lie at ta and tb (R135, R137). -/
def passLevels (p : PwmState) (la lb : Bool) (ta tb : Nat) : PwmState :=
  { p with
    la := la, lb := lb, dA := la, dB := lb, riseA := none, riseB := none
    edgeA := if p.dA = la then p.edgeA else ta
    edgeB := if p.dB = lb then p.edgeB else tb
    roseA := if la && !p.dA then ta else p.roseA
    roseB := if lb && !p.dB then tb else p.roseB }

/-- The action and dead-time stages at the edge t (in 1/32 tb cycles); `newCpl`: a swap at this edge has set complementary mode. -/
def ptStages (mode act : Word) (dtr dtf : Nat) (tripped evT newCpl : Bool) (p : PwmState) (t : Nat) : PwmState × Bool :=
  let la := ptAction mode act tripped evT p false p.la
  if !bit mode 4 then
    let lb := ptAction mode act tripped evT p true p.lb
    (passLevels p la.1 lb.1 (t + la.2) (t + lb.2), false)
  else if newCpl then (cplStart dtr dtf p la.1 t (if la.1 = p.la then t else t + la.2), false)
  else deadTime dtr dtf p la.1 (t + la.2)

/-- The stages of timer n at the edge of the state. -/
def State.ptStagesAt (s : State) (n : Nat) (tripped evT newCpl : Bool) (p : PwmState) (now : Nat) : PwmState × Bool :=
  ptStages (s.ptSet n 0) (s.ptSet n 4) (bits (s.ptSet n 0x08) 0 17) (bits (s.ptSet n 0x0C) 0 17) tripped evT newCpl p (32 * now)

/-- The level that HOLD keeps: taken from the last cycle before HOLD began to act, low where HOLD acts as LOW (R145). A pin that
showed HIGHZ just before drove no level, and LOW is taken for it as R145 does for the high impedance of R146 (DESIGN CHOICE, log entry
43). -/
def holdLevel (lowHold : Bool) (pat : Nat) (sh : Bool) (hold pin : Option Bool) : Option Bool :=
  if pat ≠ 3 then none
  else match sh, hold with
    | true, some l => some l
    | _, _ => some (if lowHold then false else pinLevel pin)

/-- A pin's safe-hold state at an edge: cond is the condition of R145 in the cycle before, x whether the timer counts at
this edge (R145, R147). The result: in safe-hold, a zero has come, the level HOLD keeps. -/
def safeEdge (cond x lowHold : Bool) (pat : Nat) (sh zs : Bool) (hold pin : Option Bool) : Bool × Bool × Option Bool :=
  if cond then (true, false, holdLevel lowHold pat sh hold pin)
  else if sh && zs && x then (false, false, none)
  else (sh, sh && zs, if sh then holdLevel lowHold pat sh hold pin else none)

/-- HOLD acts as LOW: in COMMISSION and DIAGNOSE, and in BOOT, before which no pin was driven (R145, R146). -/
def State.holdLow (s : State) : Bool := s.mode == 1 || s.mode == 2 || s.mode == 5

/-- The sync input of timer n in the cycle before the edge: event, level, and whether it came through the fabric (R148). -/
def State.ptSync (s : State) (n : Fin 48) (cons : List Nat) : Bool × Bool :=
  let mode := s.ptSet n 0
  if bit mode 11 then
    let m : Nat := 8 * (n.val / 8) + bits mode 12 3
    if h : m < 48 then
      if m = n.val then (false, false)
      else
        let q := s.pt ⟨m, h⟩
        match bits mode 16 2 with
        | 0 => (q.evZ, q.evZ)
        | 1 => (q.evA.isSome, q.evA.isSome)
        | 2 => (q.evB.isSome, q.evB.isSome)
        | _ => (q.la && !q.laPrev, q.la)
    else (false, false)
  else (cons.contains n.val, cons.contains n.val)

/-- Transfers into the active compares at an edge (R130 to R132): from the old counter, whether the timer counts. -/
def State.ptTransfer (s : State) (n : Fin 48) (b : Bool) (p : PwmState) (counting : Bool) : State :=
  let mode := s.ptSet n 0
  let code := bits mode (2 * b2n b) 2
  let rCmp := if b then rPtCmpB n else rPtCmpA n
  let rSh := if b then rPtShB n else rPtShA n
  let held := if b then p.shb else p.sha
  let imm := if b then p.immB else p.immA
  match code with
  | 1 => if p.evA.isSome then s.setRg rCmp held else s
  | 2 =>
    if imm then
      let w := s.rg rSh
      let s1 := s.setRg rCmp w
      if p.cnt ≤ bits w 5 27 then s1.hwFlag (rPtStat n) (4 + b2n b) else s1
    else s
  | _ => if counting && p.cnt == 0 then s.setRg rCmp held else s

/-- Timer n at a tb edge, the whole state before the edge being s0 (R124 to R150). `fresh`: a swap at this edge has set EN, so the
counter first counts at the next one, and a counter that holds 0 begins a period (R125). `newCpl`: it has set CPL (R484). -/
def State.ptEdge (s0 : State) (cons : List Nat) (fresh newCpl : Bool) (s : State) (n : Fin 48) : State :=
  let p := s0.pt n
  let mode := s0.ptSet n 0
  let en := bit mode 7 && !fresh
  let sync := s0.ptSync n cons
  let sact := bits mode 8 3
  let reset := en && (p.loadph || (decide (sact = 2) && sync.1))
  let counting := reset || (en && (match sact with
    | 1 => sync.2
    | 3 => sync.1
    | _ => true))
  let cnt' := if reset then bits (s0.ptSet n 0x18) 0 27
    else if counting then (if p.cnt = 0 then bits p.rld 0 27 else p.cnt - 1) else p.cnt
  let tripped := s0.flag (rPtStat n) 0
  let line := s0.tripLine n
  let evT := line && !tripped && !bit mode 5
  -- the action stage and the dead-time stage, from the events of the cycle before
  let dt := s0.ptStagesAt n tripped evT newCpl p s.now
  let p1 := dt.1
  -- safe-hold
  let cond := fun (b : Bool) => s0.pinSafe (2 * n.val + b2n b)
  let low := s0.holdLow
  let sa := safeEdge (cond false) counting low (s0.safePattern n false) p.shA p.zsA p.holdA p.pinA
  let sb := safeEdge (cond true) counting low (s0.safePattern n true) p.shB p.zsB p.holdB p.pinB
  let s1 := (s.ptTransfer n false p counting).ptTransfer n true p counting
  -- a counter that rests at 0 keeps what the zero cycle held (R124, R130)
  let rest := en && p.cnt == 0 && !counting
  let p2 := { p1 with
    cnt := cnt'
    rld := if rest then p.rld else s0.rg (rPtRld n)
    sha := if rest then p.sha else s0.rg (rPtShA n)
    shb := if rest then p.shb else s0.rg (rPtShB n)
    immA := false, immB := false, laPrev := p.la
    evZ := false, evA := none, evB := none, tripLine := line, loadph := false
    fixA := if tripped then p.fixA else none, fixB := if tripped then p.fixB else none
    shA := sa.1, zsA := sa.2.1, holdA := sa.2.2, shB := sb.1, zsB := sb.2.1, holdB := sb.2.2 }
  let s2 := s1.setPt n p2
  let s3 := if dt.2 then s2.hwFlag (rPtStat n) 6 else s2
  let s4 := if en && p.loadph && decide (sact ≠ 0) && sync.1 && !bit mode 11 then s3.hwFlag (rConsCoinc (n / 32)) (n % 32) else s3
  -- events of this edge
  let mA := counting && decide (cnt' = s1.fld (rPtCmpA n) 5 27)
  let mB := counting && decide (cnt' = s1.fld (rPtCmpB n) 5 27)
  let s5 := if (counting || fresh) && decide (cnt' = 0) then s4.ptZero n else s4
  let s6 := if mA then s5.ptMatch n false else s5
  let s7 := if mB then s6.ptMatch n true else s6
  let s8 := if line && !tripped then s7.ptTrip n (pinLevel p.pinA) (pinLevel p.pinB) else s7
  let s10 := s8.ptDueRises n
  -- a zero that falls while the condition still holds does not end safe-hold (R147)
  let q := s10.pt n
  (s10.setPt n { q with zsA := q.zsA && !cond false, zsB := q.zsB && !cond true }).ptPins n

/-! ## Writes (R126, R130, R133, R142, R150) -/

/-- A write that reaches the reload buffer. -/
def State.ptRldIn (s : State) (n : Fin 48) (v : Word) : State := s.writeRg false (rPtRld n) v

/-- A write that reaches a shadow. -/
def State.ptShIn (s : State) (n : Fin 48) (b : Bool) (v : Word) : State :=
  let p := s.pt n
  if b then (s.setRg (rPtShB n) v).setPt n { p with immB := true }
  else (s.setRg (rPtShA n) v).setPt n { p with immA := true }

/-- A write of PTn_RLD (off 0x44), PTn_SHA (0x48) or PTn_SHB (0x4C), from the bus or a duty register: staged while HOLD is 1. -/
def State.ptBufWrite (s : State) (n : Fin 48) (off : Nat) (v : Word) : State :=
  let p := s.pt n
  if s.flag (rPtCtl n) 0 then
    s.setPt n (if off = 0x44 then { p with stRld := some v }
      else if off = 0x48 then { p with stShA := some v } else { p with stShB := some v })
  else if off = 0x44 then s.ptRldIn n v else s.ptShIn n (off != 0x48) v

/-- Every staged value is committed, as if written together (R133). -/
def State.ptCommit (s : State) (n : Fin 48) : State :=
  let p := s.pt n
  let s1 := s.setPt n { p with stRld := none, stShA := none, stShB := none }
  let s2 := match p.stRld with | some v => s1.ptRldIn n v | none => s1
  let s3 := match p.stShA with | some v => s2.ptShIn n false v | none => s2
  match p.stShB with | some v => s3.ptShIn n true v | none => s3

/-- A write of a timer register outside the set. -/
def State.ptWrite (s : State) (n : Fin 48) (off : Nat) (v : Word) : State :=
  if off = 0x44 ∨ off = 0x48 ∨ off = 0x4C then s.ptBufWrite n off v
  else if off = 0x58 then
    let old := s.rg (rPtCtl n)
    let s1 := s.writeRg false (rPtCtl n) v
    let s2 := if bit old 0 && !bit v 0 then s1.ptCommit n else s1
    let s3 := if bit v 1 then s2.setPt n { s2.pt n with loadph := true } else s2
    let s4 := if bit v 2 && s3.flag (rPtStat n) 0 && bit (s3.ptSet n 0) 6 then s3.setFlag (rPtStat n) 7 true else s3
    if bit v 3 then s4.setFld (rPtStat n) 16 16 0 else s4
  else s.writeRg false (rPt n off) v

/-- What a register of the timer reads as: the counter, the status with its pins (R135), and the rest as stored. -/
def State.ptRead (s : State) (n : Fin 48) (off : Nat) : Word :=
  let p := s.pt n
  if off < 0x40 then s.ptSet n off
  else if off = 0x40 then BitVec.ofNat 32 p.cnt
  else if off = 0x5C then
    setBit (setBit (setBit (s.rg (rPtStat n)) 1 (p.shA || p.shB)) 2 (pinLevel p.pinA)) 3 (pinLevel p.pinB)
  else s.rg (rPt n off)

/-! ## A swap (R125, R484) -/

/-- Timer n at a swap that takes place within the cycle, cpl being PTn_MODE.CPL of the old set: the stages take what the new modes
call for, and a pin that now meets a condition of R145 shows its pattern. -/
def State.ptSwap (s : State) (cpl : Bool) (n : Fin 48) : State :=
  let p := s.pt n
  let new := bit (s.ptSet n 0) 4
  let t := 32 * s.now
  let p1 :=
    if new && !cpl then cplStart (bits (s.ptSet n 0x08) 0 17) (bits (s.ptSet n 0x0C) 0 17) p p.la t t
    else if cpl && !new then passLevels p p.la p.lb t t
    else p
  let sa := safeEdge (s.pinSafe (2 * n.val)) false s.holdLow (s.safePattern n false) p.shA p.zsA p.holdA p.pinA
  let sb := safeEdge (s.pinSafe (2 * n.val + 1)) false s.holdLow (s.safePattern n true) p.shB p.zsB p.holdB p.pinB
  ((s.setPt n { p1 with
    shA := sa.1, zsA := sa.2.1, holdA := sa.2.2, shB := sb.1, zsB := sb.2.1, holdB := sb.2.2 }).ptDueRises n).ptPins n

/-! ## The rows that are events of a timer -/

/-- A zero within the cycle: it ends no safe-hold whose condition still holds (R147). -/
def State.ptZeroNow (s : State) (n : Fin 48) : State :=
  let t := s.ptZero n
  let q := t.pt n
  t.setPt n { q with zsA := q.zsA && !s.pinSafe (2 * n.val), zsB := q.zsB && !s.pinSafe (2 * n.val + 1) }

/-- The ZERO transfers of a counting edge that finds the counter at 0 (R130). -/
def State.ptZeroTransfer (s : State) (n : Fin 48) (b : Bool) : State :=
  let p := s.pt n
  let code := bits (s.ptSet n 0) (2 * b2n b) 2
  if p.cnt = 0 ∧ (code = 0 ∨ code = 3) then s.setRg (if b then rPtCmpB n else rPtCmpA n) (if b then p.shb else p.sha) else s

/-- What a counting edge does before the counter moves: the ZERO transfers, and the return of the pins whose zero has come (R147). -/
def State.ptCountingEdge (s : State) (n : Fin 48) : State :=
  let t := (s.ptZeroTransfer n false).ptZeroTransfer n true
  let p := t.pt n
  let a := p.shA && p.zsA && !s.pinSafe (2 * n.val)
  let b := p.shB && p.zsB && !s.pinSafe (2 * n.val + 1)
  (t.setPt n { p with
    shA := p.shA && !a, zsA := p.zsA && !a, holdA := if a then none else p.holdA
    shB := p.shB && !b, zsB := p.zsB && !b, holdB := if b then none else p.holdB }).ptPins n

/-- COMPARE_MATCH (R129). -/
def execCompareMatch (n : Fin 48) (b : Bool) (s : State) : Host.Outcome State Fault Refusal :=
  .next (if s.ptEn n then s.ptMatch n b else s)

/-- The trip's own actions applied by the action stage, where TRIP_DIRECT is 0 (R141). -/
def State.ptTripAct (s : State) (n : Fin 48) : State :=
  if bit (s.ptSet n 0) 5 then s
  else
    let p := s.pt n
    let r := s.ptStagesAt n false true false { p with evZ := false, evA := none, evB := none } s.now
    let t := (s.setPt n { r.1 with evZ := p.evZ, evA := p.evA, evB := p.evB }).ptDueRises n
    if r.2 then t.hwFlag (rPtStat n) 6 else t

/-- TRIP_ENTRY (R140): a timer already tripped stays as it is. -/
def execTripEntry (n : Fin 48) (s : State) : Host.Outcome State Fault Refusal :=
  .next (if s.flag (rPtStat n) 0 then s
    else ((s.ptTrip n (pinLevel (s.pt n).pinA) (pinLevel (s.pt n).pinB)).ptTripAct n).ptPins n)

/-- DEAD_TIME_EXPIRY (R139). -/
def execDeadTimeExpiry (n : Fin 48) (b : Bool) (s : State) : Host.Outcome State Fault Refusal :=
  .next (s.ptRise n b)

end Sys2Proof.Machine
end

