-- ==== Sys2Proof/Machine/GTimer.lean ====
section
/-! DEFINITION. GTimer.lean: the general timers, their captures and cascades, and TS64 (chapter 5). -/

namespace Sys2Proof.Machine

/-- GTn_MODE, GTn_CCM, GTn_CSEL, GTn_PHASE of the active set. -/
def State.gtSet (s : State) (n : Nat) (off : Nat) : Word := s.act 6 (32 * n + off)

def rGtRld (n : Nat) : Nat := rGt n 0x24
def rGtStat (n : Nat) : Nat := rGt n 0x2C
def rGtCcr (n i : Nat) : Nat := rGt n (0x30 + 4 * i)

/-- Timer n is the low word of a cascade; or its high word (R155). -/
def State.gtCasc (s : State) (n : Nat) : Bool := decide (n % 2 = 0) && bit (s.gtSet n 0) 1
def State.gtUpper (s : State) (n : Nat) : Bool := decide (n % 2 = 1) && bit (s.gtSet (n - 1) 0) 1

/-- The other timer of a cascade pair. -/
def gtMate (n : Fin 32) : Fin 32 := ⟨if n.val % 2 = 0 then n.val + 1 else n.val - 1, by have := n.isLt; split <;> omega⟩

/-- Channel i of timer n: mode, edge and source of GTn_CCM. -/
def State.ccm (s : State) (n i lo len : Nat) : Nat := bits (s.gtSet n 4) (8 * i + lo) len

/-- The timer whose MODE and sync input govern timer n: a cascade's even timer (R155). -/
def State.gtGov (s : State) (n : Fin 32) : Fin 32 := if s.gtUpper n then gtMate n else n

/-- The whole counter: 64 bits in a cascade. -/
def State.gtCount (s : State) (n : Fin 32) : Nat :=
  if s.gtCasc n then (s.gt n).cnt + 2 ^ 32 * (s.gt (gtMate n)).cnt else (s.gt n).cnt

/-- A value put into the counter. -/
def State.gtSetCount (s : State) (n : Fin 32) (v : Nat) : State :=
  if s.gtCasc n then
    let s1 := s.setGt n { s.gt n with cnt := v % 2 ^ 32 }
    s1.setGt (gtMate n) { s1.gt (gtMate n) with cnt := v / 2 ^ 32 % 2 ^ 32 }
  else s.setGt n { s.gt n with cnt := v % 2 ^ 32 }

/-- The compare or capture value of channel i. -/
def State.gtCcrVal (s : State) (n : Fin 32) (i : Nat) : Nat :=
  (s.rg (rGtCcr n i)).toNat + (if s.gtCasc n then 2 ^ 32 * (s.rg (rGtCcr (gtMate n) i)).toNat else 0)

/-- Channel i matches (R152). -/
def State.gtMatch (s : State) (n : Fin 32) (i : Fin 4) : State :=
  (s.hwFlag (rGtStat n) (8 + i)).fire (192 + 4 * n + i)

/-- Channel i captures value v (R153, R154). -/
def State.gtCaptureVal (s : State) (n : Fin 32) (i : Fin 4) (v : Nat) : State :=
  let s1 := if s.flag (rGtStat n) i then s.hwFlag (rGtStat n) (4 + i) else s
  let s2 := s1.setFlag (rGtStat n) i true
  let s3 := s2.setRg (rGtCcr n i) (BitVec.ofNat 32 v)
  let s4 := if s.gtCasc n then s3.setRg (rGtCcr (gtMate n) i) (BitVec.ofNat 32 (v / 2 ^ 32)) else s3
  s4.fire (192 + 4 * n + i)

/-- Channel i is a capture channel with source code c, on a timer that acts. With EN at 0 no channel captures: R312 says so of
consumer inputs, and latches and pins are treated alike (DESIGN CHOICE, log entry 43). -/
def State.gtCapOn (s : State) (n i c : Nat) : Bool :=
  decide (s.ccm n i 0 2 = 2) && decide (s.ccm n i 4 2 = c) && !s.gtUpper n && bit (s.gtSet n 0) 0

/-- The latch of comparator m sets: every channel that selects it captures at that edge (R153). -/
def State.gtLatchCapture (s : State) (m : Nat) : State :=
  (List.finRange 32).foldl (fun (t : State) (n : Fin 32) => (List.finRange 4).foldl (fun (u : State) (i : Fin 4) =>
    if u.gtCapOn n i 1 && decide (bits (u.gtSet n 8) (8 * i.val) 5 = m) then u.gtCaptureVal n i (u.gtCount n) else u) t) s

/-- Pin PIO m is sampled at a new level: the channels that select the edge note the counter; the register takes it two
edges later (R153). -/
def State.gtPinSample (s : State) (m : Nat) (high : Bool) : State :=
  (List.finRange 32).foldl (fun (t : State) (n : Fin 32) => (List.finRange 4).foldl (fun (u : State) (i : Fin 4) =>
    let e := u.ccm n i 2 2
    let sel := if high then decide (e = 1) || decide (e = 3) else decide (e = 2) || decide (e = 3)
    if u.gtCapOn n i 2 && decide (bits (u.gtSet n 8) (8 * i.val) 5 = m) && sel then
      u.setGt n { u.gt n with caps := (u.gt n).caps ++ [(u.now + 2, i.val, u.gtCount n)] }
    else u) t) s

/-- The timer reaches zero: a general timer has no zero source; the next counting edge reloads (R151). -/
def State.gtZeroAt (s : State) (n : Fin 32) : State := s.gtSetCount n 0

/-- Whether timer n loads PHASE, and whether it counts, at an edge (R125, R150, R151). -/
def State.gtCounting (s0 : State) (cons : List Nat) (fresh : Bool) (n : Fin 32) : Bool × Bool :=
  let mode := s0.gtSet n 0
  let sact := bits mode 2 3
  let sync := cons.contains (48 + n.val)
  let en := bit mode 0 && !fresh
  let reset := en && ((s0.gt n).loadph || (decide (sact = 2) && sync))
  (reset, reset || (en && (match sact with
    | 1 => sync
    | 3 => sync
    | _ => true)))

/-- Timer n at a tb edge, the whole state before the edge being s0 (R151 to R155). `fresh`: a swap at this edge has set EN of the
timer that governs it. -/
def State.gtEdge (s0 : State) (cons : List Nat) (fresh : Bool) (s : State) (n : Fin 32) : State :=
  let p := s0.gt n
  let gov := s0.gtGov n
  -- a counter that rests at 0 keeps the reload value of its zero cycle (R124)
  let rest := bit (s0.gtSet gov 0) 0 && !fresh && s0.gtCount gov == 0 && !(s0.gtCounting cons fresh gov).2
  let s1 := s.setGt n { s.gt n with rld := if rest then p.rld else s0.rg (rGtRld n), loadph := false }
  if s0.gtUpper n then s1
  else
    let sact := bits (s0.gtSet n 0) 2 3
    let sync := cons.contains (48 + n.val)
    let reset := (s0.gtCounting cons fresh n).1
    let counting := (s0.gtCounting cons fresh n).2
    let old := s0.gtCount n
    let phase := (s0.gtSet n 0x0C).toNat +
      (if s0.gtCasc n then 2 ^ 32 * (s0.gtSet (gtMate n) 0x0C).toNat else 0)
    let rl := p.rld.toNat + (if s0.gtCasc n then 2 ^ 32 * (s0.gt (gtMate n)).rld.toNat else 0)
    let new := if reset then phase else if counting then (if old = 0 then rl else old - 1) else old
    let s2 := if counting then s1.gtSetCount n new else s1
    let s3 := if bit (s0.gtSet n 0) 0 && !fresh && p.loadph && decide (sact ≠ 0) && sync then s2.hwFlag (rConsCoinc ((48 + n) / 32)) ((48 + n) % 32) else s2
    let s4 := (List.finRange 4).foldl (fun (t : State) (i : Fin 4) =>
      if counting && decide (s0.ccm n i 0 2 = 1) && decide (new = t.gtCcrVal n i) then t.gtMatch n i else t) s3
    let s5 := (List.finRange 4).foldl (fun (t : State) (i : Fin 4) =>
      if s0.gtCapOn n i 0 && cons.contains (80 + 4 * n.val + i.val) then t.gtCaptureVal n i (t.gtCount n) else t) s4
    let ready := (s5.gt n).caps.filter (fun c => decide (c.1 ≤ s.now))
    let s6 := s5.setGt n { s5.gt n with caps := (s5.gt n).caps.filter (fun c => decide (s.now < c.1)) }
    ready.foldl (fun t c => if h : c.2.1 < 4 then t.gtCaptureVal n ⟨c.2.1, h⟩ c.2.2 else t) s6

/-! ## Snapshots (R157) and the registers of the general timers -/

/-- The low-word read by master m latches the high word of key k. -/
def State.snap (s : State) (m k : Nat) (v : Word) : State :=
  { s with snaps := ⟨m, k, v⟩ :: s.snaps.filter (fun x => !(x.master == m && x.key == k)) }

/-- A read of the high word of key k by master m: the snapshot once, then the live value. -/
def State.readHigh (s : State) (m k : Nat) (live : Word) : Word × State :=
  match s.snaps.find? (fun x => x.master == m && x.key == k) with
  | some x => (x.value, { s with snaps := s.snaps.filter (fun y => !(y.master == m && y.key == k)) })
  | none => (live, s)

def rTs64Lo : Nat := baseGt + 0x1000
def rTs64Hi : Nat := baseGt + 0x1004

/-- A read of a general-timer register by master m (R154, R157). -/
def State.gtRead (s : State) (m : Nat) (n : Fin 32) (off : Nat) : Word × State :=
  let mate := gtMate n
  if off < 0x20 then (s.gtSet n off, s)
  else if off = 0x20 then
    let v := BitVec.ofNat 32 (s.gt n).cnt
    if s.gtCasc n then (v, s.snap m (rGt mate 0x20) (BitVec.ofNat 32 (s.gt mate).cnt))
    else if s.gtUpper n then s.readHigh m (rGt n 0x20) v
    else (v, s)
  else if 0x30 ≤ off ∧ off < 0x40 then
    let i := (off - 0x30) / 4
    let v := s.rg (rGt n off)
    let s1 := s.setFlag (rGtStat n) i false
    if s.gtCasc n then (v, s1.snap m (rGt mate off) (s.rg (rGt mate off)))
    else if s.gtUpper n then s1.readHigh m (rGt n off) v
    else (v, s1)
  else (s.rg (rGt n off), s)

/-- A read of TS64 by master m. -/
def State.tsRead (s : State) (m : Nat) (hi : Bool) : Word × State :=
  if hi then s.readHigh m rTs64Hi (s.ts64.extractLsb' 32 32)
  else (s.ts64.extractLsb' 0 32, s.snap m rTs64Hi (s.ts64.extractLsb' 32 32))

/-- A write of a general-timer register outside the set; low words of a cascade are staged until the high word (R156);
a capture channel's CCR is RO. The CCR of a channel that is off takes a write as a compare channel's does (DESIGN CHOICE, log entry 43:
R162 gives RW for compare and RO for capture only). -/
def State.gtWrite (s : State) (n : Fin 32) (off : Nat) (v : Word) : State :=
  let p := s.gt n
  let mate := gtMate n
  if off = 0x24 then
    if s.gtCasc n then s.setGt n { p with stRld := some v }
    else if s.gtUpper n then
      let lo := (s.gt mate).stRld
      let s1 := s.setRg (rGtRld n) v
      let s2 := match lo with
        | some w => (s1.setRg (rGtRld mate) w).setGt mate { s1.gt mate with stRld := none }
        | none => s1
      -- the 64-bit reload value is at least 1 (R10, R151)
      if v = 0 ∧ s2.rg (rGtRld mate) = 0 then s2.setRg (rGtRld mate) 1 else s2
    else s.writeRg false (rGtRld n) v
  else if off = 0x28 then (if bit v 0 then s.setGt n { p with loadph := true } else s)
  else if 0x30 ≤ off ∧ off < 0x40 then
    let i : Fin 4 := ⟨(off - 0x30) / 4 % 4, Nat.mod_lt _ (by decide)⟩
    let gov : Nat := if s.gtUpper n then mate else n
    if s.ccm gov i 0 2 = 2 then s
    else if s.gtCasc n then s.setGt n { p with stCcr := p.stCcr.set i (some v) }
    else if s.gtUpper n then
      let s1 := s.setRg (rGt n off) v
      match (s.gt mate).stCcr[i] with
      | some w => (s1.setRg (rGt mate off) w).setGt mate { s1.gt mate with stCcr := (s1.gt mate).stCcr.set i none }
      | none => s1
    else s.writeRg false (rGt n off) v
  else s.writeRg false (rGt n off) v

/-! ## Event rows -/

/-- GT_ZERO (R151): an enabled timer's counter takes 0; the following counting edge reloads. -/
def execGtZero (n : Fin 32) (s : State) : Host.Outcome State Fault Refusal :=
  .next (if bit (s.gtSet n 0) 0 && !s.gtUpper n then s.gtZeroAt n else s)

/-- GT_COMPARE_MATCH (R152). -/
def execGtCompareMatch (n : Fin 32) (i : Fin 4) (s : State) : Host.Outcome State Fault Refusal :=
  .next (if bit (s.gtSet n 0) 0 && decide (s.ccm n i 0 2 = 1) && !s.gtUpper n
    then (s.gtSetCount n (s.gtCcrVal n i)).gtMatch n i else s)

/-- GT_CAPTURE (R153): the channel records the counter. A capture of a pin's edge that is under way comes at its own edge, two after
that of the pin. -/
def execGtCapture (n : Fin 32) (i : Fin 4) (s : State) : Host.Outcome State Fault Refusal :=
  .next (if s.gtCapOn n i (s.ccm n i 4 2) && !(s.gt n).caps.any (fun c => c.2.1 == i.val) then s.gtCaptureVal n i (s.gtCount n)
    else s)

/-- TS64_WRAP (R158): TS64 goes from all ones to zero. -/
def execTs64Wrap (s : State) : Host.Outcome State Fault Refusal :=
  .next ({ s with ts64 := 0 }.fire 989)

/-- TS64 at a tb edge: it holds in DORMANT. -/
def State.tsEdge (s : State) : State :=
  if s.mode = 0 then s
  else if s.ts64 = BitVec.allOnes 64 then { s with ts64 := 0 }.fire 989
  else { s with ts64 := s.ts64 + 1 }

end Sys2Proof.Machine
end

