-- ==== Sys2Proof/Machine/Mem.lean ====
section
/-! DEFINITION. Mem.lean: bytes and words of the shared SRAM and the local memories. Every wider access is built here, so
the byte order of R11 is decided once. -/

namespace Sys2Proof.Machine

/-- The canonical form of memory: addresses strictly rising, and no listed byte equal to what an unlisted one reads as, 0 (log
entry 7). -/
def Memory.wf (m : List Host.Cell) : Bool := swf (fun _ => 0) m

/-- The alias address of a byte of core c's local memory (R27). -/
def locAddr (c : Nat) (off : Nat) : Nat := 0x04000000 + c * 0x40000 + off

def localSize : Nat := 0x30000

/-- The free value that stands for an undefined byte, if the address lies in an undefined range. -/
def poisonAt : List (Nat × Nat × Nat) → Nat → Option Nat
  | [], _ => none
  | (b, n, f) :: r, a => if b ≤ a ∧ a < b + n then some (f + (a - b)) else poisonAt r a

/-- The undefined ranges without the n bytes from address a. -/
def unpoison (l : List (Nat × Nat × Nat)) (a n : Nat) : List (Nat × Nat × Nat) :=
  l.flatMap (fun p =>
    let (b, k, f) := p
    if a + n ≤ b ∨ b + k ≤ a then [p]
    else (if b < a then [(b, a - b, f)] else []) ++
      (if a + n < b + k then [(a + n, b + k - (a + n), f + (a + n - b))] else []))

/-- A byte of memory. -/
def State.memByte (s : State) (a : Nat) : Byte :=
  match poisonAt s.poison a with
  | some f => Config.freeByte f
  | none => sget 0 s.mem a

/-- Bytes written from address a. -/
def putBytes (m : List Host.Cell) (a : Nat) : List Byte → List Host.Cell
  | [] => m
  | b :: bs => putBytes (sput 0 m a b) (a + 1) bs

/-- n bytes from address a. -/
def State.memBytes (s : State) (a n : Nat) : List Byte := (List.range n).map (fun i => s.memByte (a + i))

/-- Bytes stored in memory from address a. -/
def State.memPut (s : State) (a : Nat) (bs : List Byte) : State :=
  { s with mem := putBytes s.mem a bs, poison := if s.poison.isEmpty then [] else unpoison s.poison a bs.length }

/-- The word at an address. -/
def State.memWord (s : State) (a : Nat) : Word := leWord (s.memBytes a 4)

/-- An image or a packet stored, with its check bits. -/
def State.memLoad (s : State) (a : Nat) (bs : List Byte) : State :=
  let t := s.memPut a bs
  { t with ecc := sclear t.ecc a bs.length }

/-- A word stored. -/
def State.memPutWord (s : State) (a : Nat) (w : Word) : State := s.memPut a (wordBytes w)

/-- Memory from address a of length n cleared to zero. -/
def State.memZero (s : State) (a n : Nat) : State :=
  { s with mem := sclear s.mem a n, poison := unpoison s.poison a n, ecc := sclear s.ecc a n }

/-- Memory from address a of length n becomes undefined (R440). -/
def State.memUndef (s : State) (a n : Nat) : State :=
  { s with mem := sclear s.mem a n, poison := (a, n, s.free) :: unpoison s.poison a n, ecc := sclear s.ecc a n, free := s.free + n }

/-- Memory copied: n bytes from src to dst. -/
def State.memCopy (s : State) (src dst n : Nat) : State :=
  let moved := (s.mem.filter (fun e => decide (src ≤ e.1) && decide (e.1 < src + n))).map (fun e => (e.1 - src + dst, e.2))
  let und := s.poison.flatMap (fun p =>
    let (b, k, f) := p
    let lo := max b src
    let hi := min (b + k) (src + n)
    if lo < hi then [(lo - src + dst, hi - lo, f + (lo - b))] else [])
  let s1 := s.memZero dst n
  { s1 with mem := moved.foldl (fun m e => sput 0 m e.1 e.2) s1.mem, poison := und ++ s1.poison }

/-- The word of a store narrower than a word: the bytes of the mask taken from v. -/
def mergeBytes (old v : Word) (m : Nat) : Word :=
  (List.range 4).foldl (fun w i => if m.testBit i then setBits w (8 * i) 8 (bits v (8 * i) 8) else w) old

/-- The standing ECC error of the unit that holds an address: 64-bit units in local memory (R172), words elsewhere. -/
def State.eccAt (s : State) (a : Nat) : Option Bool :=
  if a < 0x20000000 then sfind s.ecc (a / 8 * 8) else sfind s.ecc (a / 4 * 4)

end Sys2Proof.Machine
end

