-- ==== Sys2Proof/Machine/Sram.lean ====
section
/-! DEFINITION. Sram.lean: shared SRAM and local memory as their ports see them: error correction, write-backs, remapping,
collisions, the sparge, and the control of the DMA channels (chapter 12, R172 to R174). -/

namespace Sys2Proof.Machine

/-- Shared SRAM (R30). -/
def sramBase : Nat := 0x20000000
def isSram (a : Nat) : Bool := decide (sramBase ≤ a) && decide (a < sramBase + 0x800000)

/-- The device-wide bank of an address (R30). -/
def bankOf (a : Nat) : Nat := 8 * ((a - sramBase) / 0x100000) + a / 4 % 8

/-! ## Performance counters (R462, R463) -/

/-- k events on counter n: it holds its largest value and sets SAT. That it counts in a cycle is noted, since a clear on the same
edge leaves 1. -/
def State.pmAdd (s : State) (n k : Nat) : State :=
  let hi := s.rg (rPm n 8)
  let v := min (2 ^ 48 - 1) ((s.rg (rPm n 4)).toNat + 2 ^ 32 * bits hi 0 16 + k)
  let s0 := { s with hwSet := sput 0 s.hwSet (rPm n 4) 1 }
  let s1 := s0.setRg (rPm n 4) (BitVec.ofNat 32 v)
  s1.setRg (rPm n 8) (setBit (setBits hi 0 16 (v / 2 ^ 32)) 30 (bit hi 30 || decide (v = 2 ^ 48 - 1)))

/-- The enabled counters with their PMn_SEL. -/
def State.pmSel (s : State) : List (Nat × Word) :=
  (s.regs.filter (fun e => decide (basePm ≤ e.1) && decide (e.1 < basePm + 0x400) && decide (e.1 % 16 = 0) && bit e.2 31)).map
    (fun e => ((e.1 - basePm) / 16, e.2))

/-- Each enabled counter that is not frozen counts what `hit` finds for its selection. -/
def State.pmEvents (s : State) (hit : Word → Nat) : State :=
  s.pmSel.foldl (fun t e =>
    if hit e.2 = 0 || (bit e.2 30 && (s.core (coreId (bits e.2 16 6))).run == .halted) then t else t.pmAdd e.1 (hit e.2)) s

/-- n events of code `code` of Table 103 on core c. -/
def State.pmCore (s : State) (c : CoreId) (code n : Nat) : State :=
  s.pmEvents (fun w => if bit w 10 ∧ bits w 16 6 = c.val ∧ bits w 0 3 = code then n else 0)

/-- A user of priority 3 to 6 in Table 35 takes the port of core c's memory. The core cycles for which the core held it before are a
free value (event 4 of Table 103; log entry 39). -/
def State.portWait (s : State) (c : CoreId) : State :=
  if s.pmSel.any (fun e => bit e.2 10 && bits e.2 0 3 == 4 && bits e.2 16 6 == c.val) then
    let r := s.takeFree
    r.2.pmCore c 4 (r.1.toNat % 64)
  else s

/-! ## The sparges (R338, R339) -/

def spargeIdx : SpargeTarget → Fin 45
  | .quadrant q => ⟨q.val, by omega⟩
  | .local c => ⟨8 + c.val, by omega⟩

/-- Base address, number of regions and power domain of a target. -/
def spargeBase : SpargeTarget → Nat
  | .quadrant q => sramBase + 0x100000 * q.val
  | .local c => locAddr c 0
def spargeRegions : SpargeTarget → Nat
  | .quadrant _ => 16384
  | .local _ => 3072
def spargeDom : SpargeTarget → Nat
  | .quadrant q => 55 + q.val
  | .local c => c.val

def State.spg (s : State) (t : SpargeTarget) : SpargeState := s.sparges[spargeIdx t]
def State.setSpg (s : State) (t : SpargeTarget) (p : SpargeState) : State := { s with sparges := s.sparges.set (spargeIdx t) p }

/-- The address of the region that a sparge stands at. -/
def State.spargeAddr (s : State) (t : SpargeTarget) : Nat := spargeBase t + 64 * (s.spg t).next

/-- The sparge of the memory that holds an address stands at its region, and the save buffer serves it (R339). -/
def State.spargeHolds (s : State) (a : Nat) : Bool :=
  let t : SpargeTarget := if isSram a then .quadrant ⟨(a - sramBase) / 0x100000 % 8, Nat.mod_lt _ (by decide)⟩
    else .local (coreId ((a - 0x04000000) / 0x40000))
  (s.spg t).busy && decide (s.spargeAddr t ≤ a) && decide (a < s.spargeAddr t + 64)

/-! ## Remapping and write-backs (R333 to R336) -/

/-- The register field that counts the remap entries of the memory that holds a unit, and how many there are. -/
def remapField (a : Nat) : Nat × Nat × Nat :=
  if isSram a then (rSram (0x40 + 4 * (bankOf a / 8)), 4 * (bankOf a % 8), 8)
  else
    let c := (a - 0x04000000) / 0x40000
    (rSram (0x60 + 4 * (c / 8)), 4 * (c % 8), 4)

/-- A unit that failed gets a remap entry, or stays in place when none is free (R336). -/
def State.remapAlloc (s : State) (a : Nat) : State :=
  let (r, lo, cap) := remapField a
  if s.remap.contains a then s
  else if s.fld r lo 4 < cap then
    ({ s.setFld r lo 4 (s.fld r lo 4 + 1) with remap := s.remap ++ [a] }).fire 932
  else (s.fire 933).hwFlag (rSram 0) 2

/-- A word's queued write-back is cancelled by a write (R334). -/
def State.wbCancel (s : State) (a : Nat) : State :=
  if s.wbq.isEmpty then s else { s with wbq := s.wbq.filter (fun w => w.addr != a) }

/-- A corrected word is queued for write-back, four per bank (R333, R334). -/
def State.wbQueue (s : State) (a : Nat) : State :=
  if s.wbq.any (fun w => w.addr == a) then s
  else if (s.wbq.filter (fun w => bankOf w.addr == bankOf a)).length < 4 then { s with wbq := s.wbq ++ [⟨a, false, s.now⟩] }
  else s.hwFlag (rSram 0) 4

/-- An ECC error that a read finds: what is counted and recorded is so d edges later (R350, R485). -/
def State.eccLater (s : State) (d a : Nat) (uncorr : Bool) : State := { s with eccNew := s.eccNew ++ [(s.now + d, a, uncorr)] }

/-- An ECC error of shared SRAM or of a local memory is counted, an uncorrectable one recorded too, and its source activates (R333,
R335). -/
def State.eccReport (s : State) (a : Nat) (uncorr : Bool) : State :=
  let r := if isSram a then rSram 0x10 else rSram 0x14
  let src := (if isSram a then 928 else 930) + b2n uncorr
  let s1 := if uncorr then s.setRg (rSram 0x18) (BitVec.ofNat 32 a) else s
  (s1.count r (16 * b2n uncorr) 16 1).fire src

/-- The unit of an address: 64 bits in local memory, a word in shared SRAM. -/
def eccUnit (a : Nat) : Nat := if a < sramBase then a / 8 * 8 else a / 4 * 4

/-- A unit that was written back is read again (R336): where the error persists it gets a remap entry, or is left to be corrected on
every read. -/
def State.reread (s : State) (u : Nat) (persists : Bool) : State :=
  if persists && !s.remap.contains u then
    let t := s.remapAlloc u
    if t.remap.contains u then { t with ecc := serase t.ecc u } else t
  else { s with ecc := serase s.ecc u }

/-- A corrected unit of local memory is written back in a free port cycle (R173). -/
def State.localWriteBack (s : State) (u : Nat) : State :=
  let s1 := s.portWait (coreId ((u - 0x04000000) / 0x40000))
  { s1 with free := s1.free + 1 }.reread u (Config.persists s1.free)

/-- The write-back of a word of shared SRAM that a link access meets in its cycle is made, and the word read again (R330, R336). -/
def State.wbNow (s : State) (a : Nat) : State :=
  let s1 := s.wbCancel a
  { s1 with free := s1.free + 1 }.reread a (Config.persists s1.free)

/-- The error check of a read of the unit that holds an address: true when the data may be used. A correctable error of
shared SRAM queues a write-back; the write-back of local memory delays nobody (R173). -/
def State.eccRead (s : State) (a : Nat) : Bool × State :=
  if s.ecc.isEmpty then (true, s)
  else
    let u := eccUnit a
    -- no error can arise in a save buffer (R339)
    if s.spargeHolds u then (true, s)
    else match sfind s.ecc u with
    | none => (true, s)
    | some true => (false, s.eccLater 1 u true)
    | some false =>
      let s1 := s.eccLater 1 u false
      (true, if isSram a then s1.wbQueue u else s1.localWriteBack u)

/-- A word read from shared SRAM or a local memory (alias address): where a link writes the word in the same cycle, a mix of its old
and its new bits, whose check bits are not examined (R331). -/
def State.ramRead (s : State) (a : Nat) : Except BusCause Word × State :=
  let plain :=
    let r := s.eccRead a
    if r.1 then (Except.ok (r.2.memWord (a / 4 * 4)), r.2) else (.error .ecc, r.2)
  match s.collided with
  | some (x, old) =>
    if x = a / 4 * 4 then
      let r := s.takeFreeWord
      (.ok ((old &&& ~~~ r.1) ||| (s.memWord x &&& r.1)), r.2)
    else plain
  | none => plain

/-- A whole word of shared SRAM stored with its own check bits, which cancels a queued write-back (R334). -/
def State.sramPut (s : State) (a : Nat) (v : Word) : State :=
  let s1 := s.wbCancel a
  { s1 with ecc := if s1.ecc.isEmpty then s1.ecc else serase s1.ecc a }.memPutWord a v

/-- Bytes of a word stored under a mask. A whole word of shared SRAM brings its own check bits; every other store merges
with the unit, which must be readable (R332, R174). -/
def State.ramWrite (s : State) (a : Nat) (v : Word) (m : Nat) : Except BusCause State × State :=
  let w := a / 4 * 4
  let whole := isSram a && decide (m = 15)
  let r := if whole || s.ecc.isEmpty then (true, s) else s.eccRead a
  if r.1 then
    let x := if m = 15 then v else mergeBytes (r.2.memWord w) v m
    -- a narrow store in a save buffer does not mend a word whose copy was uncorrectable (R338)
    let lost := !whole && sfind r.2.ecc w == some true
    (.ok (if isSram a then (if lost then (r.2.wbCancel w).memPutWord w x else r.2.sramPut w x) else r.2.memPutWord w x), r.2)
  else (.error .ecc, r.2)

/-- ECC_WRITE_BACK (R333, R336): the oldest queued word of the bank is written back and read again. -/
def execEccWriteBack (bank : Fin 64) (persists : Bool) (s : State) : Host.Outcome State Fault Refusal :=
  match s.wbq.find? (fun w => bankOf w.addr == bank.val) with
  | none => .next s
  | some w => .next ((s.wbCancel w.addr).reread w.addr persists)

/-- WRITE_BACK_FORCED (R325): the oldest write-back of the bank has waited 16 cycles. -/
def execWriteBackForced (bank : Fin 64) (s : State) : Host.Outcome State Fault Refusal :=
  match s.wbq.find? (fun w => bankOf w.addr == bank.val && !w.forced && decide (w.since + 16 ≤ s.now)) with
  | none => .next s
  | some w => .next { s with wbq := s.wbq.map (fun x => if x.addr = w.addr then { x with forced := true } else x) }

/-- A same-word collision is recorded (R331): kind, core-side master, link, word. Source 936 activates in the cycle after. -/
def State.collision (s : State) (kind master link a : Nat) : State :=
  let w := setBits (setBits (setBits (s.rg (rSram 8)) 0 3 kind) 8 6 master) 14 2 link
  ((((s.setRg (rSram 8) w).count (rSram 8) 16 16 1).setRg (rSram 4) (BitVec.ofNat 32 a)).hwFlag (rSram 0) 0).fireCore 936

/-! ## Sparge (R338 to R342) -/

/-- The sparge runs: enabled, or in a requested pass, on a memory that is powered. -/
def State.spargeOn (s : State) (t : SpargeTarget) : Bool :=
  s.domReady (spargeDom t) && (decide (0 < (s.spg t).fast) ||
    s.flag (rSram 0x100) (match t with | .quadrant _ => 0 | .local _ => 1))

/-- The BEHIND bit of a target sets (R340). -/
def State.spargeBehind (s : State) (t : SpargeTarget) : State :=
  match t with
  | .quadrant q => s.hwFlag (rSram 0x110) (8 + q.val)
  | .local c => s.hwFlag (rSram (0x118 + 4 * (c.val / 32))) (c.val % 32)

/-- The copy step reads every unit of the region: errors are counted, and no write-back is queued. -/
def State.spargeCopy (s : State) (t : SpargeTarget) : State :=
  let a := s.spargeAddr t
  (s.ecc.filter (fun e => decide (a ≤ e.1) && decide (e.1 < a + 64))).foldl
    (fun u e => u.eccLater 1 e.1 e.2) s

/-- The interval of a target's regions in tb cycles: PACE, or FASTPACE in a requested pass, which a local memory counts in cycles of
its core (R340, R341). -/
def State.spargePace (s : State) (t : SpargeTarget) : Nat :=
  let n := if 0 < (s.spg t).fast then s.fld (rSram 0x104) 0 16 else s.fld (rSram 0x100) 16 16
  match t with
  | .quadrant _ => n
  | .local c => s.coreTb c n

/-- A region starts, and the next falls due an interval later. -/
def State.spargeBegin (s : State) (t : SpargeTarget) : State :=
  let u := match t with | .local c => s.portWait c | .quadrant _ => s
  (u.setSpg t { u.spg t with busy := true, due := false, dueAt := u.now + u.spargePace t }).spargeCopy t

/-- A region that is due starts, or waits for the one before, which has not finished (R340). -/
def State.spargeStart (s : State) (t : SpargeTarget) : State :=
  if !s.spargeOn t || decide (s.now < (s.spg t).dueAt) || (s.spg t).due then s
  else if (s.spg t).busy then (s.setSpg t { s.spg t with due := true }).spargeBehind t
  else s.spargeBegin t

/-- The regions that fall due at this edge. -/
def State.spargeDue (s : State) : List Instr :=
  let on := fun (t : SpargeTarget) => decide ((s.spg t).dueAt ≤ s.now) && !(s.spg t).due && s.spargeOn t
  ((List.finRange 8).filter (fun q => on (.quadrant q))).map (fun q => .spargeRegionStart (.quadrant q)) ++
    ((List.finRange 37).filter (fun c => on (.local c))).map (fun c => .spargeRegionStart (.local c))

/-- A word that failed the march (R342): word i of the region, or 64-bit word i of a local memory. -/
def State.spargeFailure (s : State) (t : SpargeTarget) (i : Fin 16) : State :=
  let a := s.spargeAddr t + (match t with | .quadrant _ => 4 * i.val | .local _ => 8 * (i.val % 8))
  let s := s.setSpg t { s.spg t with fails := (s.spg t).fails + 1 }
  (((s.fire 935).hwFlag (rSram 0) 3).setRg (rSram 0x120) (BitVec.ofNat 32 a)).remapAlloc a

/-- The pass of a quadrant has ended: PASSES counts when every powered quadrant has ended one (R340). -/
def State.spargePass (s : State) : State :=
  let live := (List.finRange 8).filter (fun q => s.domReady (55 + q.val))
  if live.all (fun q => (s.spg (.quadrant q)).done) then
    let s1 := (List.finRange 8).foldl (fun u q => u.setSpg (.quadrant q) { u.spg (.quadrant q) with done := false }) s
    (s1.setFld (rSram 0x110) 16 16 (s1.fld (rSram 0x110) 16 16 + 1)).fire 934
  else s

/-- A region ends: the restore writes fresh check bits, which cancels queued write-backs (R334), failing words are remapped, and the
sparge moves on. -/
def State.spargeEnd (s : State) (t : SpargeTarget) (failing : List (Fin 16)) : State :=
  if !(s.spg t).busy then s
  else
    let a := s.spargeAddr t
    let s1 := { s with
      ecc := s.ecc.filter (fun e => e.2 || decide (e.1 < a) || decide (a + 64 ≤ e.1))
      wbq := s.wbq.filter (fun w => decide (w.addr < a) || decide (a + 64 ≤ w.addr)) }
    let s2 := failing.foldl (fun u i => u.spargeFailure t i) s1
    let p : SpargeState := s2.spg t
    let wrap := decide (p.next + 1 = spargeRegions t)
    let p1 := { p with next := if wrap then 0 else p.next + 1, busy := false, due := false, fast := p.fast - 1,
                       done := p.done || wrap }
    let s3 := s2.setSpg t p1
    let s4 : State := match t with
      | .quadrant q =>
        let u : State := if p.fast = 1 then s3.setFlag (rSram 0x110) q.val false else s3
        if wrap then u.spargePass else u
      | .local _ => s3
    let s5 := if p.fast = 1 then s4.fire 998 else s4
    if p.due && s5.spargeOn t then s5.spargeBegin t else s5

/-- A fast pass is requested (R341): one that runs already changes nothing. -/
def State.spargeFast (s : State) (t : SpargeTarget) : State :=
  if 0 < (s.spg t).fast then s
  else
    let s0 := s.setSpg t { s.spg t with fast := spargeRegions t, fails := 0 }
    let s1 := s0.setSpg t { s0.spg t with dueAt := min (s0.spg t).dueAt (s0.now + s0.spargePace t) }
    match t with
    | .quadrant q => s1.setFlag (rSram 0x110) q.val true
    | .local _ => s1

/-- A write of SPG_REQ: TARGET takes the nearest legal number for its KIND, GO starts the pass. -/
def State.spgReqWrite (s : State) (v : Word) : State :=
  let s1 := s.writeRg false (rSram 0x108) v
  let n := s1.fld (rSram 0x108) 0 6
  let s2 := if bit v 6 then s1 else s1.setFld (rSram 0x108) 0 6 (min 7 n)
  if bit v 8 then
    s2.spargeFast (if bit v 6 then .local (coreId n) else .quadrant ⟨min 7 n, by omega⟩)
  else s2

def execSpargeRegionStart (t : SpargeTarget) (s : State) : Host.Outcome State Fault Refusal := .next (s.spargeStart t)
def execSpargeRegionEnd (t : SpargeTarget) (failing : List (Fin 16)) (s : State) : Host.Outcome State Fault Refusal :=
  .next (s.spargeEnd t failing)

/-! ## DMA channels (R343 to R345) -/

def State.dma (s : State) (n : Fin 16) : DmaState := s.dmas[n]
def State.setDma (s : State) (n : Fin 16) (d : DmaState) : State := { s with dmas := s.dmas.set n d }

def State.dmaActive (s : State) (n : Fin 16) : Bool := s.flag (rDma n 4) 0
def State.dmaPend (s : State) (n : Fin 16) : Bool := s.flag (rDma n 4) 1
def dmaSource (n : Fin 16) (k : Nat) : Nat := 768 + 4 * n.val + k

/-- Descriptor i of the active set is loaded (Table 64). -/
def State.dmaLoad (s : State) (n : Fin 16) (i : Nat) : State :=
  let w := fun (o : Nat) => s.act 11 (32 * i + o)
  let s1 := s.setDma n { s.dma n with src := w 0, dst := w 4, size := w 8, attr := w 12, own := w 16 }
  (s1.setFld (rDma n 4) 16 11 i).setFld (rDma n 8) 0 16 (max 1 (bits (w 8) 0 16))

/-- GO (R344). -/
def State.dmaStart (s : State) (n : Fin 16) : State :=
  let s1 := s.dmaLoad n (min 1535 (s.fld (rDma n 0) 0 11))
  (s1.setDma n { s1.dma n with stop := false, out := false }).setFld (rDma n 4) 0 2 1

/-- The channel goes idle. -/
def State.dmaIdle (s : State) (n : Fin 16) : State :=
  (s.setDma n { s.dma n with stop := false, out := false }).setFld (rDma n 4) 0 2 0

/-- STOP (R344): after the current element, at once when there is none. -/
def State.dmaHalt (s : State) (n : Fin 16) : State :=
  if !s.dmaActive n then s
  else if s.dmaPend n then s.setDma n { s.dma n with stop := true }
  else s.dmaIdle n

/-- What DMAn_CTL reads as: STOP stands until the channel takes it up (R481). -/
def State.dmaCtlRead (s : State) (n : Fin 16) : Word := setBit (s.rg (rDma n 0)) 17 (s.dma n).stop

/-- A write of DMAn_CTL. -/
def State.dmaCtlWrite (s : State) (n : Fin 16) (v : Word) : State :=
  let s1 := s.writeRg false (rDma n 0) v
  let s2 := if bit v 16 then s1.dmaStart n else s1
  if bit v 17 then s2.dmaHalt n else s2

/-- A request (R344): merged while one is pending, ignored by an idle channel. -/
def State.dmaReq (s : State) (n : Fin 16) : State :=
  if !s.dmaActive n then s
  else if s.dmaPend n then s.fire (dmaSource n 3)
  else (s.setDma n { s.dma n with since := s.now, starved := [] }).setFlag (rDma n 4) 1 true

/-- Bytes of an element (Table 64): size code 3 is undefined and takes word (R10). -/
def dmaBytes (d : DmaState) : Nat :=
  match bits d.size 16 2 with
  | 1 => 2
  | 2 => 1
  | _ => 4

/-- An element has been moved (R344). -/
def State.dmaMoved (s : State) (n : Fin 16) : State :=
  let d := s.dma n
  let step := BitVec.ofNat 32 (dmaBytes d)
  let rem := s.fld (rDma n 8) 0 16 - 1
  let s1 := s.setDma n { d with
    src := if bit d.attr 0 then d.src else d.src + step
    dst := if bit d.attr 1 then d.dst else d.dst + step
    out := false
    since := s.now
    starved := [] }
  let s2 := s1.setFld (rDma n 8) 0 16 rem
  let s3 :=
    if rem = 0 then
      let t := s2.fire (dmaSource n 0)
      if bit d.attr 3 then (t.fire (dmaSource n 1)).dmaIdle n
      else (t.dmaLoad n (min 1535 (bits d.attr 16 11))).setFlag (rDma n 4) 1 false
    else if bit d.attr 2 then s2 else s2.setFlag (rDma n 4) 1 false
  if d.stop then s3.dmaIdle n else s3

/-- A bus error stops the channel; CUR keeps the descriptor (R344). -/
def State.dmaError (s : State) (n : Fin 16) : State := ((s.dmaIdle n).hwFlag (rDma n 4) 2).fire (dmaSource n 2)

/-- How a DMA channel presents itself (R343). -/
def State.dmaCtx (s : State) (n : Fin 16) : Ctx :=
  let o := bits (s.dma n).own 0 6
  ⟨37 + n.val, if o < 37 then o else 0, bit (s.dma n).own 6, bit (s.dma n).own 7, false, false⟩

def execDmaRequest (n : Fin 16) (s : State) : Host.Outcome State Fault Refusal := .next (s.dmaReq n)

/-- Channel n may have waited longer than THR for a bank, which its element still has to reach, since it last began to wait, and that
wait has not been reported (R328). -/
def State.dmaStarves (s : State) (n : Fin 16) (bank : Fin 64) : Bool :=
  let d := s.dma n
  s.dmaActive n && s.dmaPend n && !d.out && decide (d.since + s.fld (rSram 0x0C) 0 16 < s.now) &&
    decide (d.starved.count bank <
      ([d.src.toNat, d.dst.toNat].filter (fun a => isSram a && decide (bankOf a = bank.val))).length)

/-- DMA_STARVE (R328): a request has waited longer than THR for one bank, which is reported once for that wait. -/
def execDmaStarve (n : Fin 16) (bank : Fin 64) (s : State) : Host.Outcome State Fault Refusal :=
  .next (if s.dmaStarves n bank then
    ((((s.setDma n { s.dma n with since := s.now, starved := bank :: (s.dma n).starved }).hwFlag (rSram 0) 1).setFld
      (rSram 0) 8 6 bank).count (rSram 0x0C) 16 16 1).fire 937
  else s)

/-- A quadrant that is off, or under the ECC_PATTERN self-test, does not answer. -/
def State.sramBad (s : State) (a : Nat) : Bool :=
  let q := (a - sramBase) / 0x100000
  !s.domReady (55 + q) || s.testing 8 q

/-- A bank refuses an access by its world attribute (R250, R418). Nothing in the spec sets one: none is held at reset (log entry
16). -/
def State.bankRefuses (s : State) (world : Bool) (a : Nat) : Bool :=
  match s.bankWorld[bankOf a % 64]'(Nat.mod_lt _ (by decide)) with
  | some w => w != world
  | none => false

end Sys2Proof.Machine
end

