-- ==== Sys2Proof/Machine/Net.lean ====
section
/-! DEFINITION. Net.lean: Ethernet, CAN, UART and their rings (R426 to R431). What a datagram for the command engine does
stands in Ozgan.lean. -/

namespace Sys2Proof.Machine

def State.eth (s : State) (p : Fin 2) : RingState := s.eths[p]
def State.setEth (s : State) (p : Fin 2) (r : RingState) : State := { s with eths := s.eths.set p r }
def State.can (s : State) (c : Fin 6) : RingState := s.cans[c]
def State.setCan (s : State) (c : Fin 6) (r : RingState) : State := { s with cans := s.cans.set c r }
def State.uart (s : State) (u : Fin 3) : UartState := s.uarts[u]
def State.setUart (s : State) (u : Fin 3) (x : UartState) : State := { s with uarts := s.uarts.set u x }

def ethDom : Nat := 82
def ifDom : Nat := 83

/-! ## Rings (R430) -/

def State.ring (s : State) : RingPort → RingState
  | .eth p => s.eth p
  | .can c => s.can c
def State.setRing (s : State) (r : RingPort) (x : RingState) : State :=
  match r with
  | .eth p => s.setEth p x
  | .can c => s.setCan c x

/-- A ring register of a port. -/
def rRing : RingPort → Nat → Nat
  | .eth p, o => rEth p (0x40 + o)
  | .can c, o => rCan c (0x20 + o)

/-- The port is enabled and powered. -/
def State.portOn (s : State) : RingPort → Bool
  | .eth p => s.flag (rEth p 0) 0 && s.domReady ethDom
  | .can c => s.flag (rCan c 0) 0 && s.domReady ifDom

/-- The ring engines reach the word at address a: shared SRAM, in a quadrant that answers, of a bank that admits the Service world. -/
def State.ringReach (s : State) (a : Nat) : Bool := isSram a && !s.sramBad a && !s.bankRefuses true a

/-- The word at a shared-SRAM address, as the ring engine reaches it; none with an uncorrectable error. -/
def State.ringRead (s : State) (a : Nat) : Option Word × State :=
  if !s.ringReach a then (none, s)
  else match s.ramRead a with
    | (.ok w, t) => (some w, t)
    | (.error _, t) => (none, t)

/-- A write by the ring engine, and whether it could be made. -/
def State.ringWrite (s : State) (a : Nat) (v : Word) (m : Nat) : Bool × State :=
  if !s.ringReach a then (false, s)
  else match s.ramWrite a v m with
    | (.ok t, _) => (true, t)
    | (.error _, t) => (false, t)

/-- Bytes put from an address; the flag tells whether all of them could be. -/
def State.ringPut (s : State) (a : Nat) : List Byte → Bool × State
  | [] => (true, s)
  | b :: bs =>
    match s.ringWrite (a / 4 * 4) (BitVec.ofNat 32 (b.toNat <<< (8 * (a % 4)))) (1 <<< (a % 4)) with
    | (true, t) => t.ringPut (a + 1) bs
    | (false, t) => (false, t)

/-- n bytes from an address, while all of them can be read. -/
def State.ringGet (s : State) (a : Nat) : Nat → Option (List Byte) × State
  | 0 => (some [], s)
  | n + 1 =>
    match s.ringRead (a / 4 * 4) with
    | (some w, t) =>
      match t.ringGet (a + 1) n with
      | (some bs, u) => (some (BitVec.ofNat 8 (bits w (8 * (a % 4)) 8) :: bs), u)
      | (none, u) => (none, u)
    | (none, t) => (none, t)

/-- A received frame goes to the next entry of the receive ring (R430). An entry that is not owned takes no frame. LEN is
left as the number of bytes stored (log entry 22). -/
def State.ringReceive (s : State) (r : RingPort) (bs : List Byte) : State :=
  let n := s.fld (rRing r 8) 0 8
  if n = 0 then s
  else
    let x := s.ring r
    let e := s.fld (rRing r 0) 0 32 + 8 * (x.rxPos % n)
    match s.ringRead (e + 4) with
    | (some w1, t1) =>
      if !bit w1 16 then t1
      else match t1.ringRead e with
        | (some w0, t2) =>
          let len := bits w1 0 13
          let put := t2.ringPut w0.toNat (bs.take len)
          let err := !put.1 || decide (len < bs.length)
          let w := setBits (setBit (setBit w1 16 false) 17 err) 0 13 (min len bs.length)
          let t3 := (put.2.ringWrite (e + 4) w 15).2
          t3.setRing r { t3.ring r with rxPos := (x.rxPos + 1) % n }
        | (none, t2) => t2
    | (none, t) => t

/-- The port sends frames: a CAN controller in listen-only mode or bus-off sends none (ISO 11898-1, log entry 22). -/
def State.sends (s : State) : RingPort → Bool
  | .eth p => s.portOn (.eth p)
  | .can c => s.portOn (.can c) && !s.flag (rCan c 0) 2 && decide (s.fld (rCan c 0x0C) 16 2 ≠ 2)

/-- The octets of a transmit buffer as they leave: the MAC appends the FCS (R426). -/
def ringFrame (r : RingPort) (bs : List Byte) : List Byte :=
  match r with
  | .eth _ => bs ++ wordBytes (crc32 bs)
  | .can _ => bs

/-- The frame is not sent: an Ethernet frame that is too long is dropped (R426); an FD frame is not allowed while FD is 0 (R429). -/
def State.unsent (s : State) (r : RingPort) (f : List Byte) : Bool :=
  match r with
  | .eth _ => decide (1522 < f.length)
  | .can c => bit (leWord f) 30 && !s.flag (rCan c 0) 1

/-- The transmit ring is walked: the next owned entry's frame is begun; an entry whose buffer cannot be read, or an FD frame that is not
allowed, ends with ERR; one that is dropped ends without (DESIGN CHOICE, log entry 22). -/
def State.ringWalk (s : State) (r : RingPort) : Nat → State
  | 0 => s
  | fuel + 1 =>
    let n := s.fld (rRing r 8) 8 8
    let x := s.ring r
    let stop := fun (t : State) => t.setRing r { t.ring r with walk := false }
    if n = 0 ∨ !s.sends r then stop s
    else
      let e := s.fld (rRing r 4) 0 32 + 8 * (x.txPos % n)
      match s.ringRead (e + 4) with
      | (some w1, t1) =>
        if !bit w1 16 then stop t1
        else match t1.ringRead e with
          | (some w0, t2) =>
            match t2.ringGet w0.toNat (bits w1 0 13) with
            | (got, t3) =>
              let f := got.map (ringFrame r)
              match f.filter (fun b => !t3.unsent r b) with
              | some b => t3.setRing r { t3.ring r with walk := true, out := b }
              | none =>
                let err := match r with | .eth _ => f.isNone | .can _ => true
                let t4 := (t3.ringWrite (e + 4) (setBit (setBit w1 16 false) 17 err) 15).2
                (t4.setRing r { t4.ring r with txPos := (x.txPos + 1) % n }).ringWalk r fuel
          | (none, t2) => stop t2
      | (none, t) => stop t

/-- TXGO: a walk in progress goes on as it is. -/
def State.ringGo (s : State) (r : RingPort) : State := if (s.ring r).walk then s else s.ringWalk r 255

/-! ## Ethernet (R426 to R428) -/

def natBE (bs : List Byte) : Nat := bs.foldl (fun v b => 256 * v + b.toNat) 0
def beAt (bs : List Byte) (off n : Nat) : Nat := natBE (slice bs off n)

/-- The EtherType and the offset of what follows it, behind at most one 802.1Q tag. -/
def etherType (f : List Byte) : Nat × Nat := if beAt f 12 2 = 0x8100 then (beAt f 16 2, 18) else (beAt f 12 2, 14)

/-- The one's-complement sum of the bytes of a list, as 16-bit words. -/
def onesSum : Nat → List Byte → Nat
  | 0, _ => 0
  | _, [] => 0
  | _, [b] => 256 * b.toNat
  | k + 1, a :: b :: r =>
    let v := 256 * a.toNat + b.toNat + onesSum k r
    if 0x10000 ≤ v then v - 0xFFFF else v

/-- The UDP checksum of a datagram is correct or zero. -/
def udpSumOk (ipHead udp : List Byte) : Bool :=
  decide (beAt udp 6 2 = 0) ||
    (let pseudo := slice ipHead 12 8 ++ [0, 17] ++ slice udp 4 2
     decide (onesSum (udp.length + 12) (pseudo ++ udp) = 0xFFFF))

/-- A datagram for the command engine: source address, source port, whether it is a fragment, payload. -/
structure Datagram where
  ip   : Word
  port : BitVec 16
  frag : Bool
  data : List Byte
  deriving DecidableEq, Repr

/-- The UDP parser (R427), on a frame without its FCS. -/
def State.udpParse (s : State) (p : Fin 2) (f : List Byte) : Option Datagram :=
  let et := etherType f
  let ip := f.drop et.2
  let total := beAt ip 2 2
  let udp := slice ip 20 (total - 20)
  let dst := leWord (slice ip 16 4)
  if s.flag (rEth p 0) 4 && decide (s.rg (rEth p 0x0C) ≠ 0) && decide (et.1 = 0x0800) && decide (beAt ip 0 1 = 0x45) &&
      decide (28 ≤ total) && decide (total ≤ ip.length) && decide (dst = s.rg (rEth p 0x0C)) && decide (beAt ip 9 1 = 17) &&
      decide (beAt udp 2 2 = 48840) && (decide (beAt ip 6 2 % 0x4000 ≠ 0) || udpSumOk ip (udp.take (beAt udp 4 2))) then
    some ⟨leWord (slice ip 12 4), BitVec.ofNat 16 (beAt udp 0 2), decide (beAt ip 6 2 % 0x4000 ≠ 0),
      slice udp 8 (beAt udp 4 2 - 8)⟩
  else none

/-- The port's MAC address. -/
def State.mac (s : State) (p : Fin 2) : List Byte := wordBytes (s.rg (rEth p 4)) ++ (wordBytes (s.rg (rEth p 8))).take 2

/-- A frame is an ARP request for the port's address. -/
def State.arpFor (s : State) (p : Fin 2) (f : List Byte) : Bool :=
  s.flag (rEth p 0) 5 && decide (s.rg (rEth p 0x0C) ≠ 0) && decide (beAt f 12 2 = 0x0806) &&
    decide (slice f 14 8 = [0, 1, 8, 0, 6, 4, 0, 1]) && decide (leWord (slice f 38 4) = s.rg (rEth p 0x0C))

/-- The answer to an ARP request. -/
def State.arpReply (s : State) (p : Fin 2) (f : List Byte) : List Byte :=
  let me := s.mac p
  slice f 22 6 ++ me ++ [8, 6, 0, 1, 8, 0, 6, 4, 0, 2] ++ me ++ wordBytes (s.rg (rEth p 0x0C)) ++ slice f 22 6 ++ slice f 28 4

/-- The port sends a frame on its own account, padded to the least length of IEEE 802.3 (PRESUMED, log entry 22), with its FCS; one that
is too long is dropped (R426). -/
def State.ethOwn (s : State) (p : Fin 2) (f : List Byte) : State :=
  let g := ringFrame (.eth p) (f ++ List.replicate (60 - f.length) 0)
  if s.portOn (.eth p) && decide (g.length ≤ 1522) then s.setEth p { s.eth p with own := g :: (s.eth p).own } else s

/-- A 16-bit number, high byte first. -/
def be16 (v : Nat) : List Byte := [BitVec.ofNat 8 (v / 256), BitVec.ofNat 8 v]

/-- The link header of the frame that brought a datagram: the sender's address, and its tag where it has one. -/
def State.ethPeer (s : State) (p : Fin 2) (f : List Byte) (d : Datagram) : State :=
  let tag := if beAt f 12 2 = 0x8100 then slice f 12 4 else []
  let x := s.eth p
  s.setEth p { x with peers := (d.ip, d.port, slice f 6 6 ++ tag) :: x.peers.filter (fun e => e.1 != d.ip || e.2.1 != d.port) }

/-- A datagram leaves port p for an address and port (R427): from port 48840, TTL 64, with a computed checksum. It goes to the address on
the link, behind the tag, from which the last one came (DEDUCED, log entry 22). The IP header's other fields, and the link address of a
host from which no frame has come, are not given: they are free values. -/
def State.udpSend (s : State) (p : Fin 2) (ip : Word) (port : BitVec 16) (data : List Byte) : State :=
  let fr := fun (i : Nat) => Config.freeByte (s.free + i)
  let link := match (s.eth p).peers.find? (fun e => e.1 == ip && e.2.1 == port) with
    | some e => e.2.2
    | none => (List.range 6).map (fun i => fr (4 + i))
  let addrs := wordBytes (s.rg (rEth p 0x0C)) ++ wordBytes ip
  let n := 8 + data.length
  let head := fun (sum : Nat) => [0x45, fr 0] ++ be16 (20 + n) ++ [fr 1, fr 2, fr 3 &&& 0x40, 0, 64, 17] ++ be16 sum ++ addrs
  let udp := fun (sum : Nat) => be16 48840 ++ be16 port.toNat ++ be16 n ++ be16 sum ++ data
  let hs := 0xFFFF - onesSum 20 (head 0)
  let us := 0xFFFF - onesSum (n + 12) (addrs ++ [0, 17] ++ be16 n ++ udp 0)
  State.ethOwn { s with free := s.free + 10 } p
    (link.take 6 ++ s.mac p ++ link.drop 6 ++ [8, 0] ++ head hs ++ udp (if us = 0 then 0xFFFF else us))

/-- The frame is an IEEE 802.1AS event message: Sync, Pdelay_Req or Pdelay_Resp (R428). -/
def isGptp (f : List Byte) : Bool :=
  decide (beAt f 12 2 = 0x88F7) && (let t := beAt f 14 1 % 16; t == 0 || t == 2 || t == 3)

/-- The tb cycles in which n octets cross the MII, at the port's SPEED. -/
def State.miiTime (s : State) (p : Fin 2) (n : Nat) : Nat :=
  match s.fld (rEth p 0) 2 2 with
  | 2 => n * 32 / 5
  | 1 => n * 64
  | _ => n * 640

/-- TS64 is captured for a frame of n octets, whose last has just crossed the MII: the value at its start-of-frame delimiter (R428,
DEDUCED, log entry 22), corrected by TSADJ. -/
def State.tsCapture (s : State) (p : Fin 2) (tx : Bool) (f : List Byte) (n : Nat) : State :=
  let off := if tx then 0x20 else 0x18
  let adj := ((s.rg (rEth p 0x10)).extractLsb' (if tx then 16 else 0) 16).toInt
  let v : BitVec 64 := s.ts64 - BitVec.ofNat 64 (s.miiTime p n) + BitVec.ofInt 64 adj
  let seq := beAt f 44 2
  let x := s.eth p
  let s1 := (s.setRg (rEth p off) (v.extractLsb' 0 32)).setRg (rEth p (off + 4)) (v.extractLsb' 32 32)
  let s2 := if tx then s1.setFld (rEth p 0x28) 16 15 seq else s1.setFld (rEth p 0x28) 0 16 seq
  let s3 := if (if tx then x.txRead else x.rxRead) then s2 else s2.hwFlag (rEth p 0x28) 31
  (s3.setEth p (if tx then { x with txRead := false } else { x with rxRead := false })).fire (896 + 3 * p.val + 2)

/-- The frame that the MAC accepts, without its FCS (R426). -/
def State.ethAccept (s : State) (p : Fin 2) (f : List Byte) : Option (List Byte) :=
  let n := f.length
  if !s.portOn (.eth p) || decide (1522 < n) || decide (n < 18) then none
  else
    let body := f.take (n - 4)
    if wordBytes (crc32 body) = f.drop (n - 4) then some body else none

/-- A frame that is not the command engine's: time stamp, ARP or the receive ring, source k = 0. -/
def State.ethPlain (s : State) (p : Fin 2) (f : List Byte) : State :=
  let s1 := if isGptp f then s.tsCapture p false f (f.length + 4) else s
  if s1.arpFor p f then s1.ethOwn p (s1.arpReply p f)
  else (s1.ringReceive (.eth p) f).fire (896 + 3 * p.val)

/-! ## CAN (R429) -/

def State.canState (s : State) (c : Fin 6) : Nat := s.fld (rCan c 0x0C) 16 2

/-- The error counters take values, and the state follows them: error-passive above 127, bus-off above 255 (ISO 11898-1, log
entry 22). -/
def State.canCounts (s : State) (c : Fin 6) (tec rec : Nat) : State :=
  let st := if 255 < tec then 2 else if 127 < tec ∨ 127 < rec then 1 else 0
  s.setRg (rCan c 0x0C) (setBits (setBits (setBits (s.rg (rCan c 0x0C)) 0 8 (min 255 tec)) 8 8 (min 255 rec)) 16 2 st)

/-- A filter passes a frame. -/
def State.canFilter (s : State) (c : Fin 6) (f : CanFrame) : Bool :=
  (List.range 16).any (fun i =>
    let id := s.rg (rCan c (0x40 + 8 * i))
    let m := s.rg (rCan c (0x44 + 8 * i))
    bit id 31 && (bit id 29 == f.ide) && decide ((id ^^^ f.ident.setWidth 32) &&& m &&& 0x1FFFFFFF = 0))

/-- The buffer of a CAN frame: two words and the data (R430). -/
def canBuffer (f : CanFrame) : List Byte :=
  let w0 := setBit (setBit (setBit (f.ident.setWidth 32) 29 f.ide) 30 f.fdf) 31 f.brs
  let w1 := setBit (BitVec.ofNat 32 f.dlc.toNat) 8 f.esi
  wordBytes w0 ++ wordBytes w1 ++ f.data

/-- A frame that passes a filter goes to the receive ring. -/
def State.canStore (s : State) (c : Fin 6) (f : CanFrame) : State :=
  if s.canFilter c f then (s.ringReceive (.can c) (canBuffer f)).fire (902 + 3 * c.val) else s

/-- CAN_FRAME_RECEIVE (R429): a frame has been received without error. In internal loopback the controller does not hear the bus
(PRESUMED, log entry 22). -/
def State.canIn (s : State) (c : Fin 6) (f : CanFrame) : State :=
  if !s.portOn (.can c) || s.flag (rCan c 0) 3 || s.canState c == 2 || (f.fdf && !s.flag (rCan c 0) 1) then s
  else
    let rec_ := s.fld (rCan c 0x0C) 8 8
    (s.canCounts c (s.fld (rCan c 0x0C) 0 8) (if 127 < rec_ then 127 else rec_ - 1)).canStore c f

def execCanFrameReceive (c : Fin 6) (f : CanFrame) (s : State) : Host.Outcome State Fault Refusal := .next (s.canIn c f)

def canErrCode : CanError → Nat
  | .stuff => 1
  | .form => 2
  | .ack => 3
  | .bit1 => 4
  | .bit0 => 5
  | .crc => 6

/-- CAN_PROTOCOL_ERROR (R429): a transmitter counts 8, a receiver 1 (ISO 11898-1, log entry 22). -/
def execCanProtocolError (c : Fin 6) (e : CanError) (tx : Bool) (s : State) : Host.Outcome State Fault Refusal :=
  .next (if !s.portOn (.can c) || s.flag (rCan c 0) 3 || s.canState c == 2 then s
  else
    let t := s.fld (rCan c 0x0C) 0 8
    let r := s.fld (rCan c 0x0C) 8 8
    let s1 := (s.setFld (rCan c 0x0C) 18 3 (canErrCode e)).canCounts c (if tx then t + 8 else t) (if tx then r else r + 1)
    let s2 := s1.fire (902 + 3 * c.val + 2)
    if s2.canState c = 2 then s2.setCan c { s2.can c with walk := false, recover := s2.flag (rCan c 0) 4 } else s2)

/-- BUS_OFF_RECOVERY (R429): 128 sequences of 11 recessive bits have passed. -/
def execBusOffRecovery (c : Fin 6) (s : State) : Host.Outcome State Fault Refusal :=
  .next (if s.portOn (.can c) && s.canState c == 2 && (s.can c).recover
    then (s.canCounts c 0 0).setCan c { s.can c with recover := false } else s)

/-- A write of CANc_CTL: RECOVER begins the recovery of a controller that is bus-off. -/
def State.canCtlWrite (s : State) (c : Fin 6) (v : Word) : State :=
  let s1 := s.writeRg false (rCan c 0) v
  if s1.canState c = 2 ∧ (bit v 5 ∨ bit v 4) then s1.setCan c { s1.can c with recover := true } else s1

/-- The frame in a CAN transmit buffer. -/
def canOfBuffer (bs : List Byte) : CanFrame :=
  let w0 := leWord bs
  let w1 := leWord (bs.drop 4)
  ⟨w0.setWidth 29, bit w0 29, bit w0 30, bit w0 31, bit w1 8, w1.setWidth 4, bs.drop 8⟩

/-! ## FRAME_TRANSMIT_COMPLETE (R428, R430) -/

/-- The frame of the entry under way has been sent. -/
def State.frameSent (s : State) (r : RingPort) : State :=
  let x := s.ring r
  let n := s.fld (rRing r 8) 8 8
  if !x.walk || n = 0 then s
  else
    let e := s.fld (rRing r 4) 0 32 + 8 * (x.txPos % n)
    let s1 := match s.ringRead (e + 4) with
      | (some w, t) => (t.ringWrite (e + 4) (setBit (setBit w 16 false) 17 false) 15).2
      | (none, t) => t
    let s2 := s1.setRing r { s1.ring r with txPos := (x.txPos + 1) % n, walk := false }
    let s3 := match r with
      | .eth p =>
        let t := if isGptp x.out then s2.tsCapture p true x.out x.out.length else s2
        t.fire (896 + 3 * p.val + 1)
      | .can c =>
        let tec := s2.fld (rCan c 0x0C) 0 8
        let t := (s2.canCounts c (tec - 1) (s2.fld (rCan c 0x0C) 8 8)).fire (902 + 3 * c.val + 1)
        if t.flag (rCan c 0) 3 then t.canStore c (canOfBuffer x.out) else t
    s3.ringWalk r 255

def execFrameTransmitComplete (r : RingPort) (s : State) : Host.Outcome State Fault Refusal := .next (s.frameSent r)

/-! ## UART (R431) -/

def State.uartOn (s : State) (u : Fin 3) : Bool := s.flag (rUart u 0) 0 && s.domReady ifDom
def State.uartSel (s : State) (u : Fin 3) : Nat := s.fld (rUart u 0) 6 2

/-- UART_RECEIVE: the byte enters the FIFO with its errors, or is lost when the FIFO is full. -/
def State.uartIn (s : State) (u : Fin 3) (b : Byte) (perr ferr : Bool) : State :=
  if !s.uartOn u then s
  else
    let k := 5 + s.fld (rUart u 0) 4 2
    let d := BitVec.ofNat 32 (b.toNat % 2 ^ k + 256 * b2n perr + 512 * b2n ferr)
    let x := s.uart u
    let full := decide (16 ≤ x.rx.length)
    let s1 := if full then s.hwFlag (rUart u 8) 16 else s.setUart u { x with rx := x.rx ++ [d] }
    let s2 := if ferr then s1.hwFlag (rUart u 8) 17 else s1
    let s3 := if perr then s2.hwFlag (rUart u 8) 18 else s2
    let s4 := if full || ferr || perr then s3.fire (920 + 2 * u.val + 1) else s3
    let s5 := if !full && s4.uartSel u == 0 && decide (x.rx.length + 1 = s4.fld (rUart u 8) 24 4)
      then s4.fire (920 + 2 * u.val) else s4
    (s5.cancelDue (.uartRxTimeout u)).after (32 * s5.fld (rUart u 0) 8 24) (.uartRxTimeout u)

def execUartReceive (u : Fin 3) (b : Byte) (perr ferr : Bool) (s : State) : Host.Outcome State Fault Refusal :=
  .next (s.uartIn u b perr ferr)

/-- UART_RX_TIMEOUT: 32 bit times without a new byte. -/
def execUartRxTimeout (u : Fin 3) (s : State) : Host.Outcome State Fault Refusal :=
  .next (let s0 := s.cancelDue (.uartRxTimeout u)
    if s.notYet (.uartRxTimeout u) then s
    else if s0.uartOn u && !(s0.uart u).rx.isEmpty && s0.uartSel u == 1 then s0.fire (920 + 2 * u.val) else s0)

/-- UART_BYTE_SENT: the oldest byte has left the transmit FIFO. -/
def execUartByteSent (u : Fin 3) (s : State) : Host.Outcome State Fault Refusal :=
  .next (match (s.uart u).tx with
    | [] => s
    | _ :: r =>
      if !s.uartOn u then s
      else
        let s1 := s.setUart u { s.uart u with tx := r }
        if r.isEmpty && s1.uartSel u == 2 then s1.fire (920 + 2 * u.val) else s1)

/-- A write of UARTu_DATA: a byte that finds the FIFO full is dropped. -/
def State.uartPush (s : State) (u : Fin 3) (b : Byte) : State :=
  let x := s.uart u
  if 16 ≤ x.tx.length then s else s.setUart u { x with tx := x.tx ++ [b] }

/-- A read of UARTu_DATA. -/
def State.uartPop (s : State) (u : Fin 3) : Word × State :=
  match (s.uart u).rx with
  | [] => (0x80000000, s)
  | w :: r => (w, s.setUart u { s.uart u with rx := r })

/-! ## Registers of the standard interfaces (R433) -/

/-- A write of an Ethernet register. -/
def State.ethWrite (s : State) (p : Fin 2) (off : Nat) (v : Word) : State :=
  if off = 0x4C then (if bit v 0 then s.ringGo (.eth p) else s)
  else s.writeRg false (rEth p off) v

/-- A read of an Ethernet register by master m: a low time-stamp word latches the high one (R157). -/
def State.ethRead (s : State) (m : Nat) (p : Fin 2) (off : Nat) : Word × State :=
  let k := rEth p off
  if off = 0x18 ∨ off = 0x20 then
    let s1 := s.setEth p (if off = 0x18 then { s.eth p with rxRead := true } else { s.eth p with txRead := true })
    (s1.rg k, s1.snap m (rEth p (off + 4)) (s1.rg (rEth p (off + 4))))
  else if off = 0x1C ∨ off = 0x24 then s.readHigh m k (s.rg k)
  else if off = 0x4C then (0, s)
  else (s.rg k, s)

/-- A write of a register of the CAN, UART and SPIH block. -/
def State.ifWrite (s : State) (off : Nat) (v : Word) : State :=
  if off < 0x600 then
    let c : Fin 6 := ⟨off / 0x100 % 6, Nat.mod_lt _ (by decide)⟩
    let q := off % 0x100
    if q = 0x00 then s.canCtlWrite c v
    else if q = 0x2C then (if bit v 0 then s.ringGo (.can c) else s)
    else
      let s1 := s.writeRg false (rCan c q) v
      -- SJW is at most TSEG2 (R433)
      if q = 0x04 ∨ q = 0x08 then s1.setFld (rCan c q) 24 7 (min (s1.fld (rCan c q) 24 7) (s1.fld (rCan c q) 16 7)) else s1
  else if 0x800 ≤ off ∧ off < 0x8C0 ∧ off % 0x40 = 4 then
    s.uartPush ⟨(off - 0x800) / 0x40 % 3, Nat.mod_lt _ (by decide)⟩ (v.setWidth 8)
  else s.writeRg false (baseIf + off) v

/-- A read of a register of that block. -/
def State.ifRead (s : State) (off : Nat) : Word × State :=
  if 0x800 ≤ off ∧ off < 0x8C0 then
    let u : Fin 3 := ⟨(off - 0x800) / 0x40 % 3, Nat.mod_lt _ (by decide)⟩
    if off % 0x40 = 4 then s.uartPop u
    else if off % 0x40 = 8 then
      (setBits (setBits (s.rg (rUart u 8)) 0 5 (s.uart u).rx.length) 8 5 (s.uart u).tx.length, s)
    else (s.rg (baseIf + off), s)
  else if off = 0xC00 then (setBits (s.rg rSpih) 0 5 (min 16 s.oz.spih.length), s)
  else (s.rg (baseIf + off), s)

end Sys2Proof.Machine
end

