-- ==== Sys2Proof/Machine/Samples.lean ====
section
/-! DEFINITION. Samples.lean: the sample registers of the cores and the words delivered to them (Table 25, R83, R225, R226). -/

namespace Sys2Proof.Machine

/-- A sample word (Table 25). -/
def sampleWord (value : Int) (seq : Nat) (relief early : Bool) (src : Nat) : Word :=
  (BitVec.ofInt 16 value).setWidth 32 ||| BitVec.ofNat 32 ((seq % 256) <<< 16) |||
    BitVec.ofNat 32 ((b2n relief) <<< 24 + (b2n early) <<< 25 + src <<< 26)

/-- Core n's register k receives a word: the early flag, and for a final word both (R226). -/
def CoreState.receive (k : CoreState) (i : Fin 16) (w : Word) (final : Bool) : CoreState :=
  let bit : BitVec 16 := BitVec.ofNat 16 (2 ^ i.val)
  { k with smp := k.smp.set i w, newE := k.newE ||| bit, newF := if final then k.newF ||| bit else k.newF }

/-- The binding of sample register k of block n that is in force in this cycle (R225). -/
def State.binding (s : State) (n : Nat) (k : Fin 16) : Word :=
  match s.rebind.find? (fun e => e.1 == n && e.2.1 == k) with
  | some e => e.2.2
  | none => s.rg (rSbind n k)

/-- The block of bindings that a core uses (R275). -/
def State.bindBlock (s : State) (c : CoreId) : Nat :=
  match s.role c with
  | .main k | .checker k => 2 * k.val
  | .solo => c.val

/-- Sample register k of core c is bound: one that is not reads 0 and is never fresh (R228). -/
def State.smpBound (s : State) (c : CoreId) (k : Fin 16) : Bool := bit (s.binding (s.bindBlock c) k) 15

/-- The fresh flag of sample register k of core c, final or early (R226, R228). -/
def State.smpFresh (s : State) (c : CoreId) (k : Fin 16) (final : Bool) : Bool :=
  s.smpBound c k && (if final then (s.core c).newF.getLsbD k else (s.core c).newE.getLsbD k)

/-- The registers of core n that are bound to a source and tag (R225). -/
def State.bound (s : State) (n src tag : Nat) : List (Fin 16) :=
  (List.finRange 16).filter (fun k =>
    let w := s.binding n k
    bit w 15 && decide (bits w 0 6 = src) && decide (bits w 8 5 = tag))

/-- A word of a source and tag reaches every sample register bound to it; the bindings of C(2k) serve the main role (R275). -/
def State.deliver (s : State) (src tag : Nat) (w : Word) (final : Bool) : State :=
  (List.range 36).foldl (fun t n =>
    let c := coreId (t.holder n)
    if t.domReady c then
      (t.bound n src tag).foldl (fun u k => u.setCore c ((u.core c).receive k w final)) t
    else t) s

/-- A write of SBINDk: the old binding stays in force until the next edge (R225). -/
def State.sbindWrite (s : State) (n : Fin 36) (k : Fin 16) (v : Word) : State :=
  { s with rebind := s.rebind ++ [(n.val, k, s.binding n k)] }.writeRg false (rSbind n k) v

/-- The sample registers whose bindings were written in the cycle before clear, with their flags, and the new bindings take effect
(R225). -/
def State.rebindEdge (s : State) : State :=
  s.rebind.foldl (fun (t : State) e =>
    let c := coreId (t.holder e.1)
    let k := t.core c
    let keep : BitVec 16 := ~~~ (BitVec.ofNat 16 (2 ^ e.2.1.val))
    t.setCore c { k with smp := k.smp.set e.2.1 0, newE := k.newE &&& keep, newF := k.newF &&& keep }) { s with rebind := [] }

/-- A write of DBINDj clears the staging of dj (R248). -/
def State.dbindWrite (s : State) (n : Fin 36) (j : Fin 8) (v : Word) : State :=
  let c := coreId (s.holder n)
  let st := s.core c
  (s.writeRg false (rDbind n j) v).setCore c { st with duty := st.duty.set j none }

end Sys2Proof.Machine
end

