-- ==== Sys2Proof/Machine/Adc.lean ====
section
/-! DEFINITION. Adc.lean: converters, relief converters and decimators (chapter 3). The inputs that a conversion finds come with
the commands EARLY_RESULT and FINAL_RESULT at the edges of Table 24: the analogue world decides them. Where no command has come by
the end of that edge's cycle, the result is a free value (log entry 8). -/

namespace Sys2Proof.Machine

def rAdcCtl (n : Nat) : Nat := rAdc n 0x40
def rAdcStat (n : Nat) : Nat := rAdc n 0x44
def rAdcCnt (n : Nat) : Nat := rAdc n 0x48
def rAdcLast (n : Nat) : Nat := rAdc n 0x4C
def rAdcLastE (n : Nat) : Nat := rAdc n 0x50
def rAdcLim (n : Nat) : Nat := rAdc n 0x54
def rAdcLimCtl (n : Nat) : Nat := rAdc n 0x58
def rAdcQCtl (n : Nat) : Nat := rAdc n 0x68
def rAdcQStat (n : Nat) : Nat := rAdc n 0x6C
def rAdcCal (n : Nat) : Nat := rAdc n 0x70

/-- tb cycles in a millisecond, and of one calibration (R90, R94). -/
def msCycles : Nat := 800000
def calCycles : Nat := 16000

/-- The relief converter that serves ADCn (R17), and its power domain. -/
def reliefOf (n : Fin 16) : Fin 2 := if n.val < 8 then 0 else 1
def reliefDom (g : Fin 2) : Nat := 53 + g.val

def State.adcEn (s : State) (n : Nat) : Bool := s.flag (rAdcCtl n) 0
def State.adcOn (s : State) (n : Nat) : Bool := s.domReady (37 + n)
def State.slotWord (s : State) (n k : Nat) : Word := s.act 7 (64 * n + 4 * k)
def State.relieved (s : State) (n : Nat) : Bool := s.flag (rAdcStat n) 1

/-- The 14-bit code of an input against the reference, as 16-bit value units (R71): rounded to the nearest step, a midway value to the
higher one, and limited to the end codes. -/
def adcCode (v : Volts) : Int :=
  let ref : Int := max 1 v.vref.toNat
  4 * clampInt ((16384 * (2 * v.vin.toInt - ref) + ref) / (2 * ref)) (-8192) 8191

/-! ## The sequencer -/

/-- The converter tracks the input of a slot: a change of input starts tracking afresh (R77). -/
def State.adcAim (s : State) (n : Fin 16) (slot : Nat) : State :=
  let a := s.adc n
  let i := bits (s.slotWord n slot) 24 2
  if i = a.tracked then s else s.setAdc n { a with tracked := i, freeAt := max a.freeAt s.now }

/-- The slot that an idle converter will execute next: in SEQUENCE mode SLOT0, in STEP mode where the sequencer stands (R75). -/
def State.adcNextSlot (s : State) (n : Fin 16) : Nat := if s.flag (rAdcCtl n) 1 then (s.adc n).slot else 0

/-- The sequencer stands at a slot, and the converter tracks its input. -/
def State.adcTrack (s : State) (n : Fin 16) (slot : Nat) : State := (s.setAdc n { s.adc n with slot := slot }).adcAim n slot

/-- The hold edge of a slot: R76, moved by R77 until its input has been tracked for ACQ. The ACQ of the moment of scheduling governs
all conversions of the slot (DESIGN CHOICE, log entry 43: a write of ADC_CTL.ACQ meanwhile is not spoken of). -/
def State.adcSchedule (s : State) (n : Fin 16) (slot : Nat) : State :=
  let s1 := s.adcTrack n slot
  let a := s1.adc n
  let w := s1.slotWord n slot
  let acq := s1.fld (rAdcCtl n) 8 8
  let due := a.trigAt + 1 + bits w 0 16
  let hold := max due (a.freeAt + acq)
  s1.setAdc n { a with word := w, convs := 0, sum := 0, nextHold := some hold, late := decide (due < hold), acq := acq }

/-- The sequence or slot is over, and the converter stands at a slot. -/
def State.adcIdle (s : State) (n : Fin 16) (slot : Nat) : State :=
  let s1 := s.setAdc n { s.adc n with busy := false, nextHold := none, abandon := false, slot := slot }
  s1.adcAim n (s1.adcNextSlot n)

/-- A sequence or slot is in progress (R78): from the edge after its trigger up to that of its last final result. -/
def State.adcBusy (s : State) (n : Fin 16) : Bool :=
  ((s.adc n).busy && decide ((s.adc n).trigAt < s.now)) || (s.adc n).ended == some s.now

/-- ADC_TRIGGER (R76, R78, R80, R96); a second one in the same tb cycle is none (R78). -/
def State.adcTrig (s : State) (n : Fin 16) : State :=
  let a := s.adc n
  if !s.adcOn n || !s.adcEn n || s.flag (rAdcStat n) 2 then s
  else if s.adcBusy n then (s.hwFlag (rAdcStat n) 9).count (rAdcCnt n) 16 16 1
  else if a.busy then s
  else
    (s.setAdc n { a with busy := true, trigAt := s.now, step := s.flag (rAdcCtl n) 1 }).adcSchedule n (s.adcNextSlot n)

/-- HOLD_EDGE (R76, R77, R79): at its scheduled edge the sample switch opens. A relief converter that cross-checks n samples at the
same edge, up to 64 times (R91). LATE is set and LATE_CNT counts at the moved hold edge itself, so never for a slot that is abandoned
before it (DESIGN CHOICE, log entry 43: R77 gives no edge). -/
def State.adcHold (s : State) (n : Fin 16) : State :=
  let a := s.adc n
  match a.nextHold with
  | none => s
  | some h =>
    if s.now < h ∨ a.inFlight.isSome then s else
    let g := reliefOf n
    let r := s.relief g
    let s1 := if a.late then (s.hwFlag (rAdcStat n) 8).count (rAdcCnt n) 0 16 1 else s
    -- the target takes back the first slot whose window opens at or after C (R94)
    let back := s1.relieved n && r.calDone && decide (a.convs = 0) && decide (r.calEnd + a.acq ≤ s.now)
    let s2 := if back then
        ((s1.setFlag (rAdcStat n) 1 false).setFld (rAdcCal n) 4 3 0).setRelief g { r with target := none, calDone := false }
      else s1
    let s3 := if back then s2.setFld (rRlStat g) 4 3 0 else s2
    let total := bits a.word 16 8 + 1
    s3.setAdc n { a with
      convs := a.convs + 1, inFlight := some s.now, earlyDone := false, earlyVal := 0, late := false, freeAt := s.now + 40
      par := r.target == some n && decide (s.fld (rRlStat g) 4 3 = 1) && decide (r.count < 64)
      nextHold := if a.convs + 1 < total then some (s.now + 40 + a.acq) else none }

/-- The conversions of the slot, and whether the one under way is its last. -/
def AdcState.last (a : AdcState) : Bool := decide (bits a.word 16 8 + 1 ≤ a.convs)

/-- The early result falls due in this cycle: 22 edges after the hold edge (Table 24). -/
def State.earlyDue (s : State) (n : Fin 16) : Bool :=
  !(s.adc n).earlyDone && (match (s.adc n).inFlight with
    | some h => decide (s.now = h + 22)
    | none => false)

/-- The final result falls due in this cycle: 39 edges after the hold edge (Table 24). -/
def State.finalDue (s : State) (n : Fin 16) : Bool :=
  match (s.adc n).inFlight with
  | some h => decide (s.now = h + 39)
  | none => false

/-- EARLY_RESULT (R73, R79, R83): only the last conversion of a slot delivers one. -/
def State.adcEarly (s : State) (n : Fin 16) (v : Byte) : State :=
  let a := s.adc n
  let e := v.toInt * 256
  if !s.earlyDue n then s
  else if !a.last then s.setAdc n { a with earlyDone := true, earlyVal := e }
  else
    let osr := bits a.word 16 8 + 1
    let value := if osr = 1 then e else roundAway (a.sum + e) osr
    let w := sampleWord value (s.fld (rAdcStat n) 16 16 + 1) (s.relieved n) true n
    let s1 := (s.setAdc n { a with earlyDone := true, earlyVal := e }).setRg (rAdcLastE n) w
    (s1.deliver n (bits a.word 26 5) w false).fire (320 + 4 * n)

/-! ## The queue (R84 to R88) -/

/-- A word written to the queue, with the threshold event (R87). -/
def State.qPush (s : State) (n : Fin 16) (w : Word) : State :=
  let a := s.adc n
  let s1 := s.setAdc n { a with queue := a.queue ++ [w] }
  if s.fld (rAdcQCtl n) 8 7 ≤ a.queue.length + 1 then s1.fire (320 + 4 * n + 3) else s1

/-- A final word dropped into the pending gap marker, or starting one (R85). -/
def State.qDrop (s : State) (n : Fin 16) (seq : Nat) : State :=
  let a := s.adc n
  let g := match a.gap with
    | some w => setBits w 0 16 (min 0xFFFF (bits w 0 16 + 1))
    | none => sampleWord 1 seq false true n
  ((s.setAdc n { a with gap := some g }).hwFlag (rAdcQStat n) 8).count (rAdcQStat n) 16 16 1

/-- A final word of an input offered to the queue. One that finds it full waits for the end of the cycle, since a removal at the same
edge acts first (R86). -/
def State.qOffer (s : State) (n : Fin 16) (input seq : Nat) (w : Word) : State :=
  let a := s.adc n
  if !(s.flag (rAdcQCtl n) 0 && s.flag (rAdcQCtl n) (4 + input)) then s
  else if a.gap.isSome then s.qDrop n seq
  else if 64 ≤ a.queue.length then s.setAdc n { a with offer := some (w, seq) }
  else s.qPush n w

/-- At the end of the cycle a final word that found the queue full is written into a place that a removal has freed, or dropped. -/
def State.qJudge (s : State) (n : Fin 16) : State :=
  let a := s.adc n
  match a.offer with
  | none => s
  | some (w, seq) =>
    let s1 := s.setAdc n { a with offer := none }
    if a.gap.isNone && decide (a.queue.length < 64) then s1.qPush n w else s1.qDrop n seq

/-- GAP_MARKER_WRITE (R85): the pending marker goes into the place a removal freed. -/
def State.qGapWrite (s : State) (n : Fin 16) : State :=
  let a := s.adc n
  match a.gap with
  | some w => if a.queue.length < 64 then (s.setAdc n { a with gap := none, gapDue := false }).qPush n w else s
  | none => s

/-- A read of ADC_Q_DATA (R84). -/
def State.qRead (s : State) (n : Fin 16) : Word × State :=
  let a := s.adc n
  match a.queue with
  | [] => (0xFFFFFFFF, s.hwFlag (rAdcQStat n) 10)
  | w :: ws => (w, s.setAdc n { a with queue := ws, gapDue := a.gap.isSome })

/-- ADC_Q_CTL.FLUSH (R88). A final word of the same edge that waits because the queue was full goes with the queue, uncounted, and one
that is offered after the write is kept (DESIGN CHOICE, log entry 43: R88 does not say). -/
def State.qFlush (s : State) (n : Fin 16) : State :=
  s.setAdc n { s.adc n with queue := [], gap := none, gapDue := false, offer := none }

/-! ## Final results -/

/-- The cross-check takes one pair of final values of a conversion that both held at the same edge (R91). -/
def State.crossCheck (s : State) (n : Fin 16) (t r : Int) : State :=
  let g := reliefOf n
  let l := s.relief g
  if (s.adc n).par ∧ l.target = some n ∧ s.fld (rRlStat g) 4 3 = 1 ∧ l.count < 64 then
    (s.setRelief g { l with count := l.count + 1, sumDiff := l.sumDiff + (t - r), maxDiff := max l.maxDiff (t - r).natAbs }).setFld
      (rAdcCal n) 8 8 (l.count + 1)
  else s

/-- After a slot's final result: the next slot of the sequence, or rest (R74, R75, R80). A sequence or slot goes on in the MODE in
which it was triggered. -/
def State.adcNext (s : State) (n : Fin 16) : State :=
  let a := s.adc n
  let ending := bit a.word 31 || decide (15 ≤ a.slot)
  let done := fun (slot : Nat) => (s.setAdc n { a with ended := some s.now }).adcIdle n slot
  if a.abandon then done 0
  else if a.step then done (if ending then 0 else a.slot + 1)
  else if ending then done 0
  else s.adcSchedule n (a.slot + 1)

/-- A final result (R79, R81, R83, R89): v is the converter's value, r that of a relief converter sampling in parallel. The value
lies within 768 units of the early result of the same conversion (R73). -/
def State.adcResult (s : State) (n : Fin 16) (v r : Int) : State :=
  let a := s.adc n
  if !s.finalDue n then s
  else
    let value := clampInt v (a.earlyVal - 768) (a.earlyVal + 768)
    let s1 := (s.setAdc n { a with inFlight := none, par := false, sum := a.sum + value }).crossCheck n value r
    if !a.last then s1
    else
      let osr := bits a.word 16 8 + 1
      let out := if osr = 1 then value else roundAway (a.sum + value) osr
      let input := bits a.word 24 2
      let seq := (s.fld (rAdcStat n) 16 16 + 1) % 0x10000
      let w := sampleWord out seq (s.relieved n) false n
      let s2 := (s1.setFld (rAdcStat n) 16 16 seq).setRg (rAdcLast n) w
      let s3 := (s2.deliver n (bits a.word 26 5) w true).fire (320 + 4 * n + 1)
      let s4 := s3.qOffer n input seq w
      let judged := s.flag (rAdcLimCtl n) input
      let lim := s.rg (rAdcLim n)
      let outside := decide ((lim.extractLsb' 16 16).toInt < out) || decide (out < (lim.extractLsb' 0 16).toInt)
      let s5 := if judged then s4.setAdc n { s4.adc n with verdict := some outside } else s4
      s5.adcNext n

/-- FINAL_RESULT: the inputs that the converter and a relief converter have held. -/
def State.adcFinal (s : State) (n : Fin 16) (v r : Volts) : State := s.adcResult n (adcCode v) (adcCode r)

/-- At the end of a cycle: a result of converter n that is due and that no command has brought takes a free value (Table 24), and a
final word that found the queue full is judged (R86). -/
def State.adcCycleEnd (s : State) (n : Fin 16) : State :=
  let s1 := if s.earlyDue n then (let f := s.takeFree; f.2.adcEarly n f.1) else s
  let s2 := if s1.finalDue n then
      (let f := s1.takeFreeWord; f.2.adcResult n ((f.1.extractLsb' 0 14).toInt * 4) ((f.1.extractLsb' 16 14).toInt * 4))
    else s1
  s2.qJudge n

/-- The limit checker at A + 40 (R89). -/
def State.adcLimit (s : State) (n : Fin 16) : State :=
  let a := s.adc n
  match a.verdict with
  | none => s
  | some out =>
    let s1 := (s.setAdc n { a with verdict := none, prevOut := out }).setFlag (rAdcLimCtl n) 8 out
    if out then
      let s2 := s1.hwFlag (rAdcLimCtl n) 9
      if s.flag (rAdcLimCtl n) 4 || !a.prevOut then s2.fire (320 + 4 * n + 2) else s2
    else s1

/-- The sequence in progress is cut at edge x: a slot whose first hold edge lies at or before x completes, the rest is
abandoned (R80). -/
def State.adcCut (s : State) (n : Fin 16) (x : Nat) : State :=
  let a := s.adc n
  if a.busy then
    if decide (a.convs = 0) && a.nextHold.all (fun h => decide (x < h)) then s.adcIdle n 0
    else s.setAdc n { a with abandon := true }
  else s.adcTrack n 0

/-- The domain of converter n is on: its input is tracked from here on (R77). -/
def State.adcUp (s : State) (n : Fin 16) : State :=
  s.setAdc n { s.adc n with tracked := bits (s.slotWord n (s.adcNextSlot n)) 24 2, freeAt := s.now }

/-- ADC_CTL_WRITE (R80, R96). The period of a converter that has never been calibrated counts from the write that first enables it
(DESIGN CHOICE, log entry 26: R90 counts from the end of the last calibration). -/
def State.adcCtlWrite (s : State) (n : Fin 16) (v : Word) : State :=
  let was := s.adcEn n
  let s1 := s.writeRg false (rAdcCtl n) v
  if s.flag (rAdcStat n) 2 then
    -- calibrating in place: EN takes effect at the end
    (s1.setFlag (rAdcCtl n) 0 false).setAdc n { s.adc n with enPend := bit v 0 }
  else if was && !bit v 0 then s1.adcCut n (s.now + 1)
  else if !was && bit v 0 then
    let s2 := s1.setAdc n { s1.adc n with calEnd := if (s1.adc n).calEnd = 0 then s.now else (s1.adc n).calEnd }
    if (s2.adc n).busy then s2 else s2.adcTrack n 0
  -- a change of MODE leaves the sequencer where it stands, but may change the slot to execute next (R75, R77)
  else if was && !(s1.adc n).busy then s1.adcAim n (s1.adcNextSlot n)
  else s1

/-! ## Calibration and relief (R90 to R97) -/

/-- Converter n joins its group's queue, unless it is there or being served (R90, R95). -/
def State.calEnqueue (s : State) (n : Fin 16) (req : Bool) : State :=
  let g := reliefOf n
  let r := s.relief g
  if r.queue.contains n || r.target == some n then s
  else (s.setRelief g { r with queue := r.queue ++ [n], requested := if req then r.requested ++ [n] else r.requested }).setFlag
      (rAdcCal n) 2 true

/-- CALIBRATION_DUE (R90, R97): PERIOD after the last calibration. -/
def State.calDue (s : State) (n : Fin 16) : State :=
  if s.adcEn n && s.adcOn n && decide (s.fld rCalCtl 0 10 ≠ 0) && s.domReady (reliefDom (reliefOf n)) &&
      decide ((s.adc n).calEnd + s.fld rCalCtl 0 10 * msCycles ≤ s.now) then
    s.calEnqueue n false else s

/-- A requested calibration (R95, R97): whether it is accepted, and the state. -/
def State.calRequest (s : State) (n : Fin 16) : Bool × State :=
  if !s.adcOn n then (false, s)
  else if s.adcEn n && !s.domReady (reliefDom (reliefOf n)) then (false, s)
  else (true, s.calEnqueue n true)

/-- The relief converter's own calibration is requested. -/
def State.calSelf (s : State) (g : Fin 2) : State := s.setRelief g { s.relief g with selfReq := true }

/-- CALIBRATION_SERVICE_START (R91, R94, R96): a free relief converter first recalibrates itself when it is due, else it
serves the head of its queue: a cross-check, or calibration in place of a disabled converter, which begins at once, beside a slot that
still completes under R80 (DESIGN CHOICE, log entry 43: R96 does not say that it waits). -/
def State.calStart (s : State) (g : Fin 2) : State :=
  let r := s.relief g
  let on := s.domReady (reliefDom g)
  let per := s.fld rCalCtl 0 10
  let idle := r.target.isNone && decide (s.fld (rRlStat g) 4 3 = 0)
  if !idle then s
  else if on && (r.selfReq || (decide (per ≠ 0) && !r.queue.isEmpty && decide (r.selfEnd + per * msCycles ≤ s.now))) then
    ((s.setRelief g { r with selfReq := false, selfAsked := r.selfReq, calEnd := s.now + calCycles }).setFld (rRlStat g) 4 3 3).after
      calCycles (.reliefSelfCalibrationEnd g)
  else match r.queue with
  | [] => s
  | n :: rest =>
    let s1 := (s.setRelief g { r with
      queue := rest, target := some n, count := 0, sumDiff := 0, maxDiff := 0, calDone := false, calEnd := s.now + calCycles }).setFlag
      (rAdcCal n) 2 false
    let s2 := if on then s1.setFld (rRlStat g) 0 4 n else s1
    if !s.adcEn n then
      ((s2.setFlag (rAdcStat n) 2 true).setFld (rAdcCal n) 4 3 3).after calCycles (.inPlaceCalibrationEnd n)
    else if on then ((s2.setFld (rRlStat g) 4 3 1).setFld (rAdcCal n) 4 3 1).setFld (rAdcCal n) 8 8 0
    else s1.setRelief g { r with queue := rest, requested := r.requested.erase n }

/-- A requested calibration is over: source 999 (R95). -/
def State.calReport (s : State) (g : Fin 2) (n : Fin 16) : State :=
  let r := s.relief g
  if r.requested.contains n then (s.setRelief g { r with requested := r.requested.erase n }).fire 999 else s

/-- Converter n is in the middle of a slot: a conversion is under way, or conversions of the slot are still to come. -/
def State.slotUnderWay (s : State) (n : Fin 16) : Bool :=
  let a := s.adc n
  a.inFlight.isSome || decide (s.now < a.freeAt) || (a.busy && decide (a.convs ≠ 0))

/-- CROSS_CHECK_COMPLETE (R92, R93). -/
def State.crossDone (s : State) (g : Fin 2) : State :=
  let r := s.relief g
  match r.target with
  | none => s
  | some n =>
    if s.fld (rRlStat g) 4 3 ≠ 1 ∨ r.count < 64 ∨ s.slotUnderWay n then s
    else
      let x := s.fld rCalCtl 16 4
      if r.sumDiff.natAbs ≤ 64 * (x * 4) ∧ r.maxDiff ≤ 16 * x then
        let s1 := s.setRelief g { r with handOver := s.now, calEnd := s.now + calCycles }
        (((s1.setFld (rRlStat g) 4 3 2).setFld (rAdcCal n) 4 3 2).setFlag (rAdcStat n) 1 true).after calCycles (.calibrationEnd g)
      else
        let s1 := (s.setRelief g { r with target := none }).setAdc n { s.adc n with calEnd := s.now }
        let s2 := ((s1.setFld (rRlStat g) 4 3 0).setFld (rAdcCal n) 4 3 0).hwFlag (rAdcCal n) 0
        (s2.count (rAdcCal n) 16 8 1).calReport g n

/-- A completed calibration counts (ADC_CAL_STAT.CAL_CNT, modulo 256). -/
def State.calCount (s : State) (n : Fin 16) : State :=
  (s.setFld (rAdcCal n) 24 8 (s.fld (rAdcCal n) 24 8 + 1)).setAdc n { s.adc n with calEnd := s.now }

/-- CALIBRATION_END (R94): the target will take back at its next slot. -/
def State.calFinish (s : State) (g : Fin 2) : State :=
  let r := s.relief g
  match r.target with
  | none => s
  | some n =>
    if s.fld (rRlStat g) 4 3 ≠ 2 ∨ r.calDone ∨ s.now < r.calEnd then s
    else ((s.setRelief g { r with calDone := true, calEnd := s.now }).calCount n).calReport g n

/-- RELIEF_SELF_CALIBRATION_END: source 999 where it was requested (R95). -/
def State.calSelfEnd (s : State) (g : Fin 2) : State :=
  let r := s.relief g
  if s.fld (rRlStat g) 4 3 = 3 ∧ r.calEnd ≤ s.now then
    let s1 := (s.setRelief g { r with selfEnd := s.now, selfAsked := false }).setFld (rRlStat g) 4 3 0
    if r.selfAsked then s1.fire 999 else s1
  else s

/-- IN_PLACE_CALIBRATION_END (R96). -/
def State.calInPlaceEnd (s : State) (n : Fin 16) : State :=
  let g := reliefOf n
  if s.flag (rAdcStat n) 2 ∧ (s.relief g).calEnd ≤ s.now then
    let s1 := ((s.setFlag (rAdcStat n) 2 false).setFld (rAdcCal n) 4 3 0).setRelief g { s.relief g with target := none }
    let a := s1.adc n
    let s2 := if a.enPend then (s1.setFlag (rAdcCtl n) 0 true).setAdc n { a with enPend := false } else s1
    let s3 := (s2.calCount n).calReport g n
    if a.enPend then s3.adcTrack n 0 else s3
  else s

/-- The service of the relief converter ends without result (R97): a target's domain or its own is switched off. -/
def State.calDrop (s0 : State) (g : Fin 2) : State :=
  let s := s0.cancelDue (.calibrationEnd g)
  let r := s.relief g
  let s1 := match r.target with
    | some n => ((s.setFld (rAdcCal n) 4 3 0).setFlag (rAdcStat n) 1 false).cancelDue (.inPlaceCalibrationEnd n)
    | none => s
  (s1.setRelief g { r with target := none, calDone := false, requested := match r.target with
      | some n => r.requested.erase n
      | none => r.requested }).setFld (rRlStat g) 4 3 0

/-- The relief converter of group g loses its power (R97): its service and its own calibration end; a converter that calibrates in
place goes on. -/
def State.reliefLost (s : State) (g : Fin 2) : State :=
  let r := s.relief g
  let inPlace := match r.target with
    | some n => s.flag (rAdcStat n) 2
    | none => false
  let s1 := (if inPlace then s else s.calDrop g).cancelDue (.reliefSelfCalibrationEnd g)
  let q := s1.relief g
  (s1.setRelief g { reliefFresh with queue := q.queue, requested := q.requested, target := q.target, calEnd := q.calEnd }).setRg (rRlStat g) 0

/-! ## Decimators (R98 to R102) -/

def State.sdCtl (s : State) (g : Nat) : Word := s.act 7 (0x400 + 16 * g)
def State.sdSyncReg (s : State) (g : Nat) : Word := s.act 7 (0x404 + 16 * g)
def State.sdOn (s : State) (g : Nat) : Bool := bit (s.sdCtl g) 0 && s.domReady (68 + g)

/-- The weight of the i-th newest bit in the third-order sinc response over D bits (R99). -/
def sincWeight (d i : Nat) : Int :=
  let t := fun (n : Int) => n * (n + 1) / 2
  let k : Int := i + 1
  t k - (if d ≤ i then 3 * t (k - d) else 0) + (if 2 * d ≤ i then 3 * t (k - 2 * d) else 0)

/-- The output value over the bits held, newest first (R99). -/
def sincValue (d : Nat) (bs : List Bool) : Int :=
  let sum := ((bs.take (3 * d - 2)).zipIdx).foldl (fun (a : Int) p => a + (if p.1 then 1 else -1) * sincWeight d p.2) 0
  min (roundAway (sum * 32768) (d * d * d)) 32767

/-- D, kept to 16 to 256. -/
def State.sdDec (s : State) (g : Nat) : Nat := max 16 (min 256 (bits (s.sdCtl g) 4 9))

/-- One bit is shifted into decimator g (R98, R100). -/
def State.sdShift (s : State) (g : Fin 8) (b : Bool) : State :=
  if !s.sdOn g then s
  else
    let d := s.sdDec g
    let x := b ^^ bit (s.sdCtl g) 24
    let p := s.sd g
    let run := match p.bits with
      | y :: _ => if x == y then p.run + 1 else 1
      | [] => 1
    let bs := (x :: p.bits).take 766
    let p1 := { p with bits := bs, run := run, lastBit := s.now }
    if d ≤ p.count + 1 then
      if 0 < p.suppress then
        let s1 := s.setSd g { p1 with count := 0, suppress := p.suppress - 1 }
        s1
      else
        let seq := (s.fld (rSdStat g) 16 16 + 1) % 0x10000
        let w := sampleWord (sincValue d bs) (seq + p.out.length) false false (16 + g)
        s.setSd g { p1 with count := 0, out := p.out ++ [(s.now + 4, w)] }
    else s.setSd g { p1 with count := p.count + 1 }

/-- DECIMATOR_OUTPUT (R100): the oldest output under way is delivered at its edge; a stalled decimator delivers none (R102). An output
computed before a sync leaves SETTLING as it is (R101). -/
def State.sdOutput (s : State) (g : Fin 8) : State :=
  let p := s.sd g
  match p.out with
  | [] => s
  | o :: rest =>
    if s.now < o.1 then s else
    let e := bits (s.sdCtl g) 1 2
    let s1 := (s.setSd g { p with out := rest }).setFld (rSdStat g) 16 16 (s.fld (rSdStat g) 16 16 + 1)
    let s2 := (if p.suppress = 0 then s1.setFlag (rSdStat g) 0 false else s1).setRg (rSdData g) o.2
    (s2.deliver (16 + g) (bits (s.sdCtl g) 16 5) o.2 true).fire (672 + 12 * g + 3 * e + 1)

/-- The bit count that a sync sets: a PHASE at or above D acts as D − 1. -/
def State.sdPhase (s : State) (g : Nat) : Nat := min (min 255 (bits (s.sdSyncReg g) 0 9)) (s.sdDec g - 1)

/-- SD_SYNC (R101): an activation at edge G, which acts at G + 1. -/
def State.sdSync (s : State) (g : Fin 8) : State :=
  if s.sdOn g && bit (s.sdSyncReg g) 16 then s.setSd g { s.sd g with syncDue := true } else s

/-- At an edge the sync activations of the one before are taken up. -/
def State.sdSyncTake (s : State) : State :=
  (List.finRange 8).foldl (fun (t : State) (g : Fin 8) => if (t.sd g).syncDue then t.setSd g { t.sd g with syncDue := false } else t) s

/-- The sync of edge G, in state s0 of that edge, acts at G + 1 after the bits of G + 1, unless the count held PHASE at G. -/
def State.sdSyncAct (s0 s : State) (g : Fin 8) : State :=
  if !(s0.sd g).syncDue || !s.sdOn g || decide ((s0.sd g).count = s0.sdPhase g) then s
  else (s.setSd g { s.sd g with count := s.sdPhase g, suppress := 3 }).setFlag (rSdStat g) 0 true

/-- DECIMATOR_STALL and DECIMATOR_STUCK (R102), where their condition holds. -/
def State.sdStall (s : State) (g : Fin 8) : State :=
  if s.sdOn g && decide ((s.sd g).lastBit + 1024 ≤ s.now) then (s.hwFlag (rSdStat g) 1).setSd g { s.sd g with out := [] } else s
def State.sdStuck (s : State) (g : Fin 8) : State :=
  if s.sdOn g && decide (4 * s.sdDec g ≤ (s.sd g).run) then s.hwFlag (rSdStat g) 2 else s

/-! ## Edges, registers -/

/-- The converter block at a tb edge: gap markers, verdicts, scheduled hold edges, calibration. -/
def State.adcEdge (s : State) (n : Fin 16) : State :=
  let a := s.adc n
  let s1 := if a.gapDue then s.qGapWrite n else s
  let s2 := s1.adcLimit n
  (s2.adcHold n).calDue n

/-- A relief converter at a tb edge: its cross-check is judged once the target is free after the 64th pair, and not within an
oversampled slot, which is never split (R93, R94); a free relief converter serves its queue. -/
def State.reliefEdge (s : State) (g : Fin 2) : State :=
  let r := s.relief g
  match r.target with
  | some _ => s.crossDone g
  | none => if r.queue.isEmpty && !r.selfReq then s else s.calStart g

/-- A decimator at a tb edge. -/
def State.sdEdge (s : State) (g : Fin 8) : State :=
  if !s.sdOn g then s
  else
    let p := s.sd g
    let s1 := s.sdOutput g
    let s2 := if decide (p.lastBit + 1024 = s.now) then s1.sdStall g else s1
    if 4 * s.sdDec g ≤ p.run ∧ p.lastBit + 1 = s.now then s2.sdStuck g else s2

/-- What a converter register reads as; a read of ADC_Q_DATA removes an entry. -/
def State.adcRead (s : State) (n : Fin 16) (off : Nat) : Word × State :=
  let a := s.adc n
  if off < 0x40 then (s.slotWord n (off / 4), s)
  else if off = 0x44 then (setBits (setBit (s.rg (rAdcStat n)) 0 (s.adcBusy n)) 4 4 (if a.busy then a.slot else s.adcNextSlot n), s)
  else if off = 0x60 then s.qRead n
  else if off = 0x64 then (a.queue.headD 0xFFFFFFFF, s)
  else if off = 0x6C then (setBit (setBits (s.rg (rAdcQStat n)) 0 7 a.queue.length) 9 a.gap.isSome, s)
  else if off = 0x70 then (setBit (s.rg (rAdcCal n)) 1 (!s.domReady (reliefDom (reliefOf n))), s)
  else (s.rg (rAdc n off), s)

/-- A write of a converter register from offset 0x40. -/
def State.adcWrite (s : State) (n : Fin 16) (off : Nat) (v : Word) : State :=
  if off = 0x40 then s.adcCtlWrite n v
  else if off = 0x44 then
    let s1 := s.writeRg false (rAdcStat n) v
    if bit v 15 then s1.setRg (rAdcCnt n) 0 else s1
  else if off = 0x58 then
    -- a write that changes INMASK or MODE makes the previous judged result count as inside (R89)
    let s1 := s.writeRg false (rAdcLimCtl n) v
    if s1.fld (rAdcLimCtl n) 0 5 ≠ s.fld (rAdcLimCtl n) 0 5 then s1.setAdc n { s1.adc n with prevOut := false } else s1
  else if off = 0x68 then
    let s1 := s.writeRg false (rAdcQCtl n) v
    let s2 := if bit v 16 then s1.qFlush n else s1
    if bit v 17 then s2.setFld (rAdcQStat n) 16 16 0 else s2
  else s.writeRg false (rAdc n off) v

/-- What a register from offset 0x1000 of the converter block reads as. -/
def State.calRead (s : State) (off : Nat) : Word :=
  if off = 0x1010 ∨ off = 0x1014 then
    let g : Fin 2 := if off = 0x1010 then 0 else 1
    (s.relief g).queue.foldl (fun w n => setBit w (8 + n.val) true) (s.rg (rRlStat g))
  -- a request waits until the relief converter takes it up (R481)
  else if off = 0x1004 then BitVec.ofNat 32 (0x10000 * b2n (s.relief 0).selfReq + 0x20000 * b2n (s.relief 1).selfReq)
  else if 0x2000 ≤ off ∧ off < 0x2080 then s.act 7 (0x400 + (off - 0x2000))
  else s.rg (baseAdc + off)

/-- A write of CAL_REQ (R95). -/
def State.calReqWrite (s : State) (v : Word) : State :=
  let s1 := (List.finRange 16).foldl (fun (t : State) n => if bit v n.val then (t.calRequest n).2 else t) s
  let s2 := if bit v 16 then s1.calSelf 0 else s1
  if bit v 17 then s2.calSelf 1 else s2

/-! ## The rows that are events of the converter block -/

def execAdcTrigger (n : Fin 16) (s : State) : Host.Outcome State Fault Refusal := .next (s.adcTrig n)
def execHoldEdge (n : Fin 16) (s : State) : Host.Outcome State Fault Refusal := .next (s.adcHold n)
def execEarlyResult (n : Fin 16) (v : Byte) (s : State) : Host.Outcome State Fault Refusal := .next (s.adcEarly n v)
def execFinalResult (n : Fin 16) (v r : Volts) (s : State) : Host.Outcome State Fault Refusal := .next (s.adcFinal n v r)
def execGapMarkerWrite (n : Fin 16) (s : State) : Host.Outcome State Fault Refusal := .next (s.qGapWrite n)
def execCalibrationDue (n : Fin 16) (s : State) : Host.Outcome State Fault Refusal := .next (s.calDue n)
def execCalibrationServiceStart (g : Fin 2) (s : State) : Host.Outcome State Fault Refusal := .next (s.calStart g)
def execCrossCheckComplete (g : Fin 2) (s : State) : Host.Outcome State Fault Refusal := .next (s.crossDone g)
def execCalibrationEnd (g : Fin 2) (s : State) : Host.Outcome State Fault Refusal := .next (s.calFinish g)
def execReliefSelfCalibrationEnd (g : Fin 2) (s : State) : Host.Outcome State Fault Refusal := .next (s.calSelfEnd g)
def execInPlaceCalibrationEnd (n : Fin 16) (s : State) : Host.Outcome State Fault Refusal := .next (s.calInPlaceEnd n)
def execDecimatorOutput (g : Fin 8) (s : State) : Host.Outcome State Fault Refusal := .next (s.sdOutput g)
def execSdSync (g : Fin 8) (s : State) : Host.Outcome State Fault Refusal := .next (s.sdSync g)
def execDecimatorStall (g : Fin 8) (s : State) : Host.Outcome State Fault Refusal := .next (s.sdStall g)
def execDecimatorStuck (g : Fin 8) (s : State) : Host.Outcome State Fault Refusal := .next (s.sdStuck g)

end Sys2Proof.Machine
end

