-- ==== Sys2Proof/Machine/Comparator.lean ====
section
/-! DEFINITION. Comparator.lean: window comparators, latches, arm points and the slope ramp (chapter 4). -/

namespace Sys2Proof.Machine

/-- CMPn_THR, CMPn_CFG, CMPn_RAMP, CMPn_SLOPE of the active set. -/
def State.cmpSet (s : State) (n off : Nat) : Word := s.act 8 (16 * n + off)
def State.cmpCfg (s : State) (n : Nat) : Word := s.cmpSet n 4

/-- The comparator is enabled and its bank powered, and the device is not in DORMANT, where no latch acts (R121). -/
def State.cmpOn (s : State) (n : Nat) : Bool := bit (s.cmpCfg n) 0 && s.domReady (80 + n / 16) && s.mode != 0

def State.cmpElapsed (s : State) (n : Nat) : Nat := s.fld (rCmpStat n) 16 12

/-- The least ELAPSED at which the latch is armed (R110). -/
def State.cmpArm (s : State) (n : Nat) : Nat :=
  let cfg := s.cmpCfg n
  if bit cfg 1 then max (bits cfg 16 12) 40 else bits cfg 16 12

/-- The latch is armed (R110, R487); a sweep holds it off (Table 87). -/
def State.cmpArmed (s : State) (n : Fin 32) : Bool :=
  s.cmpOn n && !s.testing 4 n && decide ((s.cmp n).holdOff = 0) && decide ((s.cmp n).guard = 0) && decide (s.cmpArm n ≤ s.cmpElapsed n)

/-- The latch sets (R107): SIDE is 1 for BELOW, 0 for ABOVE or BOTH. -/
def State.cmpLatch (s : State) (n : Fin 32) : State :=
  let side := (s.cmp n).raw == .below
  let s1 := ((s.hwFlag (rCmpStat n) 2).setFlag (rCmpStat n) 3 side).count (rCmpCnt n) 0 16 1
  (s1.gtLatchCapture n).fire (384 + 2 * n + b2n side)

/-- An armed, clear latch that sees an outside output sets (R107). -/
def State.cmpJudge (s : State) (n : Fin 32) : State :=
  if s.cmpArmed n && !s.flag (rCmpStat n) 2 && (s.cmp n).raw != .inside then s.cmpLatch n else s

/-- LATCH_SET (R107): the sampled output takes a state, and the latch is judged. -/
def execLatchSet (n : Fin 32) (out : CmpState) (s : State) : Host.Outcome State Fault Refusal :=
  .next ((s.setCmp n { s.cmp n with raw := out }).cmpJudge n)

/-- ARM_POINT_REACHED (R110): ELAPSED reaches the arm point. -/
def execArmPointReached (n : Fin 32) (s : State) : Host.Outcome State Fault Refusal :=
  .next (if s.cmpOn n then
    (if s.cmpElapsed n < s.cmpArm n then s.setFld (rCmpStat n) 16 12 (s.cmpArm n) else s).cmpJudge n
  else s)

/-- HOLD_OFF_END (R113): the enable hold-off ends. -/
def execHoldOffEnd (n : Fin 32) (s : State) : Host.Outcome State Fault Refusal :=
  .next (if s.cmpOn n then (s.setCmp n { s.cmp n with holdOff := 0 }).cmpJudge n else s)

/-- The enable hold-off begins (R113): at a swap that sets EN, or when the bank reports ready. -/
def State.cmpEnable (s : State) (n : Fin 32) : State :=
  let st := setBits (setBit (s.rg (rCmpStat n)) 2 false) 16 12 4095
  (s.setRg (rCmpStat n) st).setCmp n
    { s.cmp n with holdOff := 1600, guard := 0, acc := bits (s.cmpSet n 8) 0 10 * 65536 }

/-- The ramp at a tb edge (R117): START at a period start, else SLOPE lower and not below FLOOR. -/
def State.rampNext (s : State) (n : Fin 32) (start : Bool) : Nat :=
  let r := s.cmpSet n 8
  if start then bits r 0 10 * 65536
  else max ((s.cmp n).acc - bits (s.cmpSet n 12) 0 16) (bits r 16 10 * 65536)

/-- EN is 0: the latch is held clear and a hold-off ends (R114). -/
def State.cmpStop (s : State) (n : Fin 32) : State :=
  (s.setFlag (rCmpStat n) 2 false).setCmp n { s.cmp n with holdOff := 0, guard := 0 }

/-- Comparator n at a tb edge; its timer has already moved (R109, R117). `swapped`: the swap at this edge has loaded its ramp
(R113, R487), and, with `began`, its hold-off (R113); a period start at that very edge still loads ELAPSED with 0 (log entry 34). The ramp
runs whether or not EN is 1. -/
def State.cmpEdge (s : State) (swapped began : Bool) (n : Fin 32) : State :=
  let cfg := s.cmpCfg n
  let tmr := bits cfg 8 6
  let start := bit cfg 2 && (if h : tmr < 48 then (s.pt ⟨tmr, h⟩).evZ else false)
  let e := if !bit cfg 2 then 4095 else if start then 0 else min 4095 (s.cmpElapsed n + 1)
  let s1 := if e = s.cmpElapsed n then s else s.setFld (rCmpStat n) 16 12 e
  let k := s.cmp n
  let s2 := s1.setCmp n { k with
    holdOff := if began then k.holdOff else k.holdOff - 1
    guard := if swapped then k.guard else k.guard - 1
    acc := if bit cfg 1 && !swapped then s.rampNext n start else k.acc }
  let s3 := if start && bit cfg 3 then s2.setFlag (rCmpStat n) 2 false else s2
  if s.cmpOn n then s3.cmpJudge n else s3

/-- A period start of timer m within the cycle, as comparator n takes it (R108, R109, R117). -/
def State.cmpPeriod (m : Fin 48) (s : State) (n : Fin 32) : State :=
  let cfg := s.cmpCfg n
  if bit cfg 2 && decide (bits cfg 8 6 = m.val) then
    let s1 := s.setFld (rCmpStat n) 16 12 0
    let s2 := if bit cfg 1 then s1.setCmp n { s1.cmp n with acc := s1.rampNext n true } else s1
    let s3 := if bit cfg 3 then s2.writeRg false (rCmpStat n) 4 else s2
    s3.cmpJudge n
  else s

/-- Comparator n at a swap within the cycle, whose edge counts as T: a zero of its new timer at T is a period start (R112), which no
ramp loaded at T takes again, and the latch is judged with the new ARM. -/
def State.cmpSwapNow (swapped : List (Fin 32)) (s : State) (n : Fin 32) : State :=
  let cfg := s.cmpCfg n
  let tmr := bits cfg 8 6
  let start := bit cfg 2 && (if h : tmr < 48 then (s.pt ⟨tmr, h⟩).evZ else false)
  let s1 := if !bit cfg 2 then s.setFld (rCmpStat n) 16 12 4095 else if start then s.setFld (rCmpStat n) 16 12 0 else s
  let s2 := if start && bit cfg 1 && !(swapped.contains n && bit cfg 0) then s1.setCmp n { s1.cmp n with acc := s1.rampNext n true } else s1
  let s3 := if start && bit cfg 3 then s2.setFlag (rCmpStat n) 2 false else s2
  if s.cmpOn n then s3.cmpJudge n else s3

/-- A zero of PWM timer m within the cycle, with the period starts that it is (R127). -/
def State.zeroNow (s : State) (m : Fin 48) : State := (List.finRange 32).foldl (State.cmpPeriod m) (s.ptZeroNow m)

/-- ZERO_EVENT (R127): the counter of an enabled timer reaches zero. -/
def execZeroEvent (n : Fin 48) (s : State) : Host.Outcome State Fault Refusal :=
  .next (if s.ptEn n then s.zeroNow n else s)

/-- The code on the high DAC: HIGH, or the ramp code (CMPn_STAT.CODE). -/
def State.cmpCode (s : State) (n : Fin 32) : Nat :=
  if bit (s.cmpCfg n) 1 then (s.cmp n).acc / 65536 else bits (s.cmpSet n 0) 16 10

/-- The number of a sampled output (Table 27). -/
def cmpStateCode : CmpState → Nat
  | .inside => 0
  | .above => 1
  | .below => 2
  | .both => 3

/-- The latch bits of the comparators whose bank is powered (R123). -/
def State.latchSum (s : State) : Word :=
  (List.range 32).foldl (fun w n => if s.flag (rCmpStat n) 2 && s.domReady (80 + n / 16) then setBit w n true else w) 0

/-- What CMPn_STAT reads as. -/
def State.cmpStat (s : State) (n : Fin 32) : Word :=
  let w := setBits (s.rg (rCmpStat n)) 0 2
    (if s.cmpOn n && decide ((s.cmp n).holdOff = 0) then cmpStateCode (s.cmp n).raw else 0)
  setBits (setBit (setBit w 4 (s.cmpArmed n)) 5 (decide (0 < (s.cmp n).holdOff))) 6 10 (s.cmpCode n)

/-- What a comparator register reads as. -/
def State.cmpRead (s : State) (n : Fin 32) (off : Nat) : Word :=
  if off < 0x10 then s.cmpSet n off
  else if off = 0x10 then s.cmpStat n
  else s.rg (baseCmp + 0x20 * n + off)

/-- A write of a comparator register outside the set. -/
def State.cmpWrite (s : State) (n : Fin 32) (off : Nat) (v : Word) : State :=
  if off = 0x14 then (if bit v 31 then s.setFld (rCmpCnt n) 0 16 0 else s)
  else s.writeRg false (baseCmp + 0x20 * n + off) v

/-- A latch cleared by a write of 1 (R108), unless it set in this cycle (R9). -/
def State.latchClear (s : State) (n : Fin 32) : State := s.writeRg false (rCmpStat n) 4

end Sys2Proof.Machine
end

