-- ==== Sys2Proof/Machine/ModeOps.lean ====
section
/-! DEFINITION. ModeOps.lean: the change of mode (R435) and the causes of SAFE-HOLD (R437, Table 94), shared by every unit
that raises one. -/

namespace Sys2Proof.Machine

/-- The mode changes at one edge: PREV takes the old mode, source 984 activates, and 985 on an entry into SAFE-HOLD
(R435, R437). -/
def State.setMode (s : State) (m : Nat) : State :=
  if s.mode = m then s
  else
    let s1 := ((s.setFld rSysMode 4 3 s.mode).setFld rSysMode 0 3 m).fire 984
    if m = 4 then s1.fire 985 else s1

/-- The condition of cause i of Table 94 holds now (SH_CAUSE.HOLD). -/
def State.shHolds (s : State) (i : Nat) : Bool :=
  match i with
  | 0 => s.flag rTemp 24
  | 1 => s.flag rDroopStat 24
  | 2 => s.faulted != 0
  | 3 => s.boot.scDown
  | 4 => (List.finRange 16).any (fun k => s.paired k && s.pairSt k == 6)
  | 5 => s.tickOut
  | _ => false

/-- SH_EN with its fixed bit 3. -/
def State.shEnabled (s : State) (i : Nat) : Bool := i == 3 || s.flag rShEn i

/-- Cause i occurs (R437): its bit sets, and an enabled one sends the device to SAFE-HOLD at the next edge. -/
def State.shOccur (s : State) (i : Nat) : State :=
  let s1 := s.hwFlag rShCause i
  { s1 with shDue := s1.shDue || (s.shEnabled i && decide (2 ≤ s.mode)) }

/-- The mode that the next edge brings: an enabled cause goes before a request made in the same cycle (DESIGN CHOICE, log entry 43).
-/
def State.modeNext (s : State) : Option Nat := if s.shDue then some 4 else s.modeReq.map (fun m => m.val)

/-- The change of mode of an edge, among the modes in which the device runs (R435, R437). -/
def State.modeEdge (s : State) : Option Nat → State
  | some m => s.setMode m
  | none => s

/-- nFAULT is released (R439). -/
def State.nFaultReleased (s : State) : Bool := s.mode == 2 || s.mode == 3 || s.mode == 5

end Sys2Proof.Machine
end

