-- ==== Sys2Proof/Machine/CoreOps.lean ====
section
/-! DEFINITION. CoreOps.lean: the registers of a core, its region descriptors and private space, taking an exception or an
interrupt and returning from one (chapter 9), loop-buffer captures (chapter 6), and the records of a pair (chapter 10). -/

namespace Sys2Proof.Machine

/-! ## Registers (R196, R249) -/

def stN : Nat := 0
def stZ : Nat := 1
def stC : Nat := 2
def stV : Nat := 3
def stQ : Nat := 4
def stSF : Nat := 5
def stFE : Nat := 6

def CoreState.im (k : CoreState) : Nat := bits k.st 8 4
def CoreState.lvl (k : CoreState) : Bool := bit k.st 12
def CoreState.world (k : CoreState) : Bool := bit k.st 13

/-- The index of a stack pointer among the four. -/
def spIdx (world level : Bool) : Fin 4 :=
  match world, level with
  | false, false => 0
  | false, true => 1
  | true, false => 2
  | true, true => 3

def CoreState.spOf (k : CoreState) (world level : Bool) : Word := k.sp[spIdx world level]
def CoreState.setSpOf (k : CoreState) (world level : Bool) (v : Word) : CoreState :=
  { k with sp := k.sp.set (spIdx world level) v }

/-- w31, the stack pointer of the current world and level. -/
def CoreState.curSp (k : CoreState) : Word := k.spOf k.world k.lvl

/-- A general register: w0 reads zero, w31 is the stack pointer. -/
def CoreState.w (k : CoreState) (r : Reg) : Word :=
  if r = 0 then 0
  else if h : r.val < 31 then k.gpr[r.val - 1]'(by omega)
  else k.curSp

/-- A general register written: a result written to w0 is discarded (R197). -/
def CoreState.setW (k : CoreState) (r : Reg) (v : Word) : CoreState :=
  if r = 0 then k
  else if h : r.val < 31 then { k with gpr := k.gpr.set (r.val - 1) v (by omega) }
  else k.setSpOf k.world k.lvl v

/-- A bit of ST written. -/
def CoreState.setSt (k : CoreState) (i : Nat) (b : Bool) : CoreState := { k with st := setBit k.st i b }

/-- A sticky bit of ST set where b holds. -/
def CoreState.sticky (k : CoreState) (i : Nat) (b : Bool) : CoreState := if b then k.setSt i true else k

/-- N, Z, C and V written (R198). -/
def CoreState.setNzcv (k : CoreState) (n z c v : Bool) : CoreState :=
  { k with st := setBit (setBit (setBit (setBit k.st stN n) stZ z) stC c) stV v }

/-- The loaded value in the load shadow becomes visible (R203). -/
def CoreState.commitShadow (k : CoreState) : CoreState :=
  match k.shadow with
  | some (r, v) => { k.setW r v with shadow := none }
  | none => k

/-- How a core presents itself in an access (R250, R275). -/
def State.ctxOf (s : State) (c : CoreId) : Ctx :=
  let k := s.core c
  ⟨c.val, s.ownId c, k.world, k.lvl, decide (c = 36), false⟩

/-! ## Region descriptors (R251) -/

/-- The kinds of access that a descriptor grants. -/
inductive Perm where
  | read | write | exec
  deriving DecidableEq, Repr

/-- Descriptor i of a world covers an address. -/
def State.rgnCovers (s : State) (c : Nat) (w : Bool) (i a : Nat) : Bool :=
  let b := s.rg (rWc c w (0x100 + 8 * i))
  let l := s.rg (rWc c w (0x104 + 8 * i))
  bit b 0 && decide (bits b 6 26 ≤ a / 64) && decide (a / 64 ≤ bits l 6 26)

/-- The descriptors of a world allow an access at a level: the highest-numbered enabled one that covers the address decides;
with none, supervisor level only. -/
def State.rgnAllows (s : State) (c : Nat) (w level : Bool) (p : Perm) (a : Nat) : Bool :=
  match ((List.range 16).reverse).find? (fun i => s.rgnCovers c w i a) with
  | some i => bit (s.rg (rWc c w (0x104 + 8 * i)))
      ((match p with | .read => 0 | .write => 1 | .exec => 2) + (if level then 3 else 0))
  | none => level

/-! ## Private space (Table 11, R195, R223, R273) -/

/-- The world's lock (WC_CTL.LOCK). -/
def State.locked (s : State) (c : Nat) (w : Bool) : Bool := s.flag (rWc c w 0) 1

/-- Bit i of pending word m is visible to a world of core c: the source is routed here and to that world (R273). -/
def State.pendMask (s : State) (c : Nat) (w : Bool) (m : Nat) : Word :=
  (List.range 32).foldl (fun v i =>
    let r := s.route (32 * m + i)
    if s.holder (bits r 0 6) = c ∧ (bit r 12) = w then setBit v i true else v) 0

/-- An interrupt that core c may take: vector, priority, world. -/
structure Irq where
  vec   : Nat
  prio  : Nat
  world : Bool
  deriving DecidableEq, Repr

/-- The pending interrupts of core c, the frame overrun first (R267, R271). What was pending before a swap stays so on this core,
wherever the new set routes its source (Table 20); a Plant source on SC is never taken (R266). -/
def State.irqs (s : State) (c : CoreId) : List Irq :=
  let ctl := s.rg (rIcCtl c)
  let ovr := if bit ctl 8 && bit ctl 5 then [⟨8, bits ctl 0 4, bit ctl 4⟩] else []
  let pend := (List.range 32).flatMap (fun m => (onesBelow (s.rg (rIcPend c m)).toNat 32).map (fun i => 32 * m + i))
  ovr ++ (pend.filterMap (fun src =>
    let r := s.route src
    if c = 36 ∧ ¬ bit r 12 then none else some ⟨16 + src, bits r 8 4, bit r 12⟩))

/-- The interrupt chosen among those above a mask: the highest priority, the first among equals. -/
def bestIrq (l : List Irq) (im : Nat) : Option Irq :=
  l.foldl (fun b i => if i.prio ≤ im then b else match b with
    | some x => if x.prio < i.prio then some i else b
    | none => some i) none

/-- IC_STAT. -/
def State.icStat (s : State) (c : CoreId) : Word :=
  let k := s.core c
  let l := s.irqs c
  let hi := l.foldl (fun a i => max a i.prio) 0
  BitVec.ofNat 32 (k.vecs.headD 0 + hi <<< 16 + (b2n (decide (k.im < hi))) <<< 20)

/-- LB_STAT and LB_RANGE from the capture. -/
def CoreState.lbStat (k : CoreState) : Word :=
  match k.lbBase with
  | none => 0
  | some _ => BitVec.ofNat 32 (1 + k.lbLevel.val <<< 1 + k.lbLen <<< 8 + k.lbCap.toNat <<< 16)
def CoreState.lbRange (k : CoreState) : Word :=
  match k.lbBase with
  | none => 0
  | some b => b &&& 0x0003FFF8

/-- A read of the private space of core c from a world and level. -/
def State.privRead (s : State) (c : CoreId) (w level : Bool) (a : Nat) : Except BusCause Word :=
  let o := a - 0xE0000000
  let k := s.core c
  if 0x4000 ≤ o ∧ o < 0x5000 then .ok (s.rg (privKey c a))
  else if 0x5000 ≤ o ∧ o < 0x6000 then
    .ok (if o = 0x5004 then k.lbStat else if o = 0x5008 then k.lbRange else s.rg (privKey c a))
  else if !level then .error .denied
  else if o < 0x1000 then .ok (s.act 10 o)
  else if o < 0x1180 then
    let m := (o - 0x1000) / 4 % 32
    .ok (s.rg (rIcPend c m) &&& s.pendMask c w m)
  else if o = 0x2004 then .ok (s.icStat c)
  else if 0x6000 ≤ o ∧ o < 0x6800 then
    let bank := decide (0x6400 ≤ o)
    if bank != w then .error .denied
    else if o % 0x400 = 0x008 then .ok (k.spOf bank false)
    else if o % 0x400 = 0x00C then .ok (k.spOf bank true)
    else .ok (s.rg (privKey c a))
  else if 0x7000 ≤ o ∧ o < 0x7010 then
    if decide (0x7008 ≤ o) != w then .error .denied else .ok (s.rg (privKey c a))
  else .ok (s.rg (privKey c a))

/-- The loop-buffer capture is released (R180). -/
def CoreState.lbRelease (k : CoreState) : CoreState := { k with lbBase := none, lbLen := 0, lbCap := 0 }

/-- SETPEND and CLRPEND (R266): bits of sources routed elsewhere or to the other world ignore writes. The pending bits of a
checker are never set (R281). -/
def State.setPend (s : State) (c : CoreId) (w : Bool) (m : Nat) (v : Word) : State :=
  match s.role c with
  | .checker _ => s
  | _ => s.setRg (rIcPend c m) (s.rg (rIcPend c m) ||| (v &&& s.pendMask c w m))
def State.clrPend (s : State) (c : CoreId) (w : Bool) (m : Nat) (v : Word) : State :=
  s.setRg (rIcPend c m) (s.rg (rIcPend c m) &&& ~~~ (v &&& s.pendMask c w m &&& ~~~ sget 0 s.hwSet (rIcPend c m)))

/-- A write of the private space of core c from a world and level. -/
def State.privWrite (s : State) (c : CoreId) (w level : Bool) (a : Nat) (v : Word) : Except BusCause State :=
  let o := a - 0xE0000000
  let k := s.core c
  if 0x4000 ≤ o ∧ o < 0x5000 then .ok s
  else if !level then .error .denied
  else if o = 0x5000 then
    let s1 := s.writeRg false (rLbCtl c) v
    .ok (if bit v 1 || !bit v 0 then s1.setCore c k.lbRelease else s1)
  else if o = 0x500C then .ok (if bit v 31 then s.setRg (rLbAbn c) 0 else s)
  else if 0x1080 ≤ o ∧ o < 0x1100 then .ok (s.setPend c w ((o - 0x1080) / 4) v)
  else if 0x1100 ≤ o ∧ o < 0x1180 then .ok (s.clrPend c w ((o - 0x1100) / 4) v)
  else if o = 0x2000 then .ok (s.writeRg false (rIcCtl c) v)
  else if 0x6000 ≤ o ∧ o < 0x6800 then
    let bank := decide (0x6400 ≤ o)
    if bank != w then .error .denied
    else if o % 0x400 = 0x008 then .ok (s.setCore c (k.setSpOf bank false v))
    else if o % 0x400 = 0x00C then .ok (s.setCore c (k.setSpOf bank true v))
    -- the Plant gate table of SC is fixed disabled (R252)
    else if c = 36 ∧ ¬ bank ∧ 0x040 ≤ o % 0x400 ∧ o % 0x400 < 0x080 then .ok s
    else
      let s1 := s.writeRg (s.locked c bank) (privKey c a) v
      .ok (if o % 0x400 = 0 ∧ bit v 1 then s1.setFlag (rWc c bank 0) 1 true else s1)
  else if 0x7000 ≤ o ∧ o < 0x7010 then
    let bank := decide (0x7008 ≤ o)
    if bank != w then .error .denied else .ok (s.writeRg (s.locked c bank) (privKey c a) v)
  else .ok s

/-! ## Writes of one edge (R9) -/

/-- The value that a write of v by master id puts into the register at a: bits that a higher identity has written at this
edge keep that one's value, so that writes of one edge act in ascending identity (R9). -/
def State.ordered (s : State) (id a : Nat) (v : Word) : Word :=
  s.wrote.foldl (fun w e =>
    if e.1 == a && decide (id < e.2.1) then
      let m := e.2.2.2 &&& ordMask (descOf a).flds a
      (w &&& ~~~ m) ||| (e.2.2.1 &&& m)
    else w) v

/-- A write by master id to the bits m of the register at a is on record until the next edge. -/
def State.noteWrite (s : State) (id a : Nat) (v m : Word) : State :=
  { s with wrote := s.wrote.filter (fun e => decide (e.2.1 ≤ id)) ++ [(a, id, v, m)] ++ s.wrote.filter (fun e => decide (id < e.2.1)) }

/-- A write of the private space of core c from a world and level by master id, in the order of R9. -/
def State.privPut (s : State) (id : Nat) (c : CoreId) (w level : Bool) (a : Nat) (v : Word) : Except BusCause State :=
  match s.privWrite c w level a (s.ordered id (privKey c a) v) with
  | .ok t => .ok (t.noteWrite id (privKey c a) v (mask 0 32))
  | .error e => .error e

/-! ## Records of a pair (R282, R283) -/

/-- A signature record of 16 bytes (Table 58). -/
def pairRecord (w0 : Word) (b4 b5 : Nat) (w2 w3 : Word) : List Byte :=
  wordBytes w0 ++ [BitVec.ofNat 8 b4, BitVec.ofNat 8 b5, 0, 0] ++ wordBytes w2 ++ wordBytes w3

/-- A record enters the signature of the copy that core c is. -/
def State.record (s : State) (c : CoreId) (r : List Byte) : State :=
  match s.role c with
  | .solo => s
  | .main k => s.setPair k { s.pair k with sigM := crc64 (s.pair k).sigM r }
  | .checker k => s.setPair k { s.pair k with sigC := crc64 (s.pair k).sigC r }

def State.recStore (s : State) (c : CoreId) (addr : Word) (size : Nat) (data : Word) : State :=
  s.record c (pairRecord addr 1 size data 0)
def State.recBranch (s : State) (c : CoreId) (target src : Word) : State := s.record c (pairRecord target 3 0 src 0)

/-- The signature at the start of a window. -/
def sigInit : BitVec 64 := BitVec.allOnes 64

/-- The checker's offset O of pair k, in tb cycles. -/
def State.pairOffset (s : State) (k : Fin 16) (extra : Nat) : Nat := s.coreTb (s.mainOf k) (s.fld (rRmPair k 0) 8 8 + extra)

/-- A checkpoint ends the window of the copy that core c is (R283): kind 0 CHKPT, 1 FDONE, 2 count. The copies are compared
O core cycles after the main's. -/
def State.checkpoint (s : State) (c : CoreId) (kind : Fin 3) : State :=
  match s.role c with
  | .solo => s
  | .main k =>
    let p := s.pair k
    let sig := crc64 p.sigM (pairRecord (BitVec.ofNat 32 p.cntM) 5 kind.val 0 0)
    (s.setPair k { p with ckM := p.ckM ++ [⟨kind, p.cntM, sig⟩], sigM := sigInit, sinceM := 0 }).after
      (s.pairOffset k 0) (.checkpointCompare k)
  | .checker k =>
    let p := s.pair k
    let sig := crc64 p.sigC (pairRecord (BitVec.ofNat 32 p.cntC) 5 kind.val 0 0)
    s.setPair k { p with ckC := p.ckC ++ [⟨kind, p.cntC, sig⟩], sigC := sigInit, sinceC := 0 }

/-- Every pin's request from the redundancy manager for the main role of pair k. -/
def State.setHoldRed (s : State) (k : Fin 16) (b : Bool) : State :=
  let m : BitVec 37 := BitVec.ofNat 37 (2 ^ (2 * k.val))
  if b then { s with holdRed := s.holdRed ||| m }
  else { s with holdRed := s.holdRed &&& ~~~ m, holdRedNew := s.holdRedNew &&& ~~~ m }

/-- Such a request raised at this edge: the pins show it from the second edge after this one (R287). -/
def State.askHoldRed (s : State) (k : Fin 16) : State :=
  { s with holdRedNew := s.holdRedNew ||| BitVec.ofNat 37 (2 ^ (2 * k.val)) }

/-- A core stops, as if its instruction in progress were abandoned (R287): a load in its shadow is written (R203), and what it has
prefetched is dropped (R166, R184). -/
def CoreState.stop (k : CoreState) : CoreState :=
  match k.run with
  | .lockup => k.commitShadow
  | .waiting _ _ => { k.commitShadow with run := .halted, pc := k.waitPc, prefetched := false }
  | _ => { k.commitShadow with run := .halted, prefetched := false }

/-- A mismatch of pair k (R287): kinds 1 SIGNATURE, 2 POSITION, 3 AGREE, 4 OUTPUT, 5 LOCKUP; a triage of 32,000 core cycles follows
(R288). The source activates
at the next edge, and the pins show their patterns from the one after it. -/
def State.mismatch (s : State) (k : Fin 16) (kind : Nat) : State :=
  let m := coreId (s.mainOf k)
  let c := coreId (s.checkerOf k)
  let s1 := (s.setCore m (s.core m).stop)
  let s2 := s1.setCore c (s1.core c).stop
  let st := setBits (setBits (s2.rg (rRmPair k 0x08)) 0 3 1) 4 3 kind
  let s2 := (s2.cancelDue (.checkpointCompare k)).cancelDue (.sluiceTimeout k)
  let s3 := ((s2.setRg (rRmPair k 0x08) st).count (rRmPair k 0x18) 0 16 1).setPair k
    { s2.pair k with
      agree := [], sluice := [], ckM := [], ckC := [], ints := [], dbgLog := [], haltAt := none
      act := some (s2.now + s2.coreTb (s2.mainOf k) 32000, .triage) }
  (s3.askHoldRed k).fireCore (520 + k)

/-- The core locks up (R258): source 543; in a paired mode a mismatch of kind LOCKUP; for SC the cause SC_LOCKUP. -/
def State.lockup (s : State) (c : CoreId) : State :=
  let s1 := (s.setCore c { (s.core c).commitShadow with run := .lockup }).fireCore 543
  match s1.role c with
  | .main k => s1.mismatch k 5
  | .checker k => s1.mismatch k 5
  | .solo =>
    if c = 36 then
      -- R437, R438: the cause SC_LOCKUP; SC is about to be restarted and every session is lost (R393)
      { s1.shOccur 3 with boot := { s1.boot with scDown := true }, oz := ozFresh }
    else s1

/-! ## Entry (R257, R259 to R263, R265) -/

/-- A fault (Table 48): its vector, the cause of a BUS_ERROR, PARTIAL, FETCH and FLT_ADDR. -/
structure FaultRec where
  vec     : Nat
  bcause  : Nat
  part    : Bool
  fetch   : Bool
  addr    : Word
  deriving DecidableEq, Repr

def faultIllegal (pc : Word) : FaultRec := ⟨1, 0, false, false, pc⟩
def faultMisaligned (a : Word) : FaultRec := ⟨2, 0, false, false, a⟩
def causeCode : BusCause → Nat
  | .timeout => 1
  | .ecc => 2
  | .denied => 3
  | .fenced => 4
def faultBus (c : BusCause) (a : Word) : FaultRec := ⟨3, causeCode c, false, false, a⟩
def faultStack (sp : Word) : FaultRec := ⟨4, 0, false, false, sp⟩
def faultRsOver (pc : Word) : FaultRec := ⟨5, 0, false, false, pc⟩
def faultRsEmpty (pc : Word) : FaultRec := ⟨6, 0, false, false, pc⟩

/-- The CAUSE word (Table 55). -/
def causeWord (vec : Nat) (f : FaultRec) (emer : Bool) (orig : Nat) : Word :=
  BitVec.ofNat 32 (vec + f.bcause <<< 12 + (b2n f.part) <<< 16 + (b2n f.fetch) <<< 17 + (b2n emer) <<< 18 + (if orig < 8 then orig else 0) <<< 20)

/-- A word pushed on a frame; its store enters the signature of a pair. The spec names an uncorrectable error for the vector read of an
entry only (R262): a push into a 64-bit word that holds one writes its word with no check (DESIGN CHOICE, log entry 43). -/
def State.framePut (s : State) (c : CoreId) (a v : Word) : State :=
  (s.memPutWord (locAddr c a.toNat) v).recStore c a 4 v

/-- The top of a world's emergency stack, and its lowest address (R26). -/
def emerTop (w : Bool) : Nat := if w then 0x30000 else 0x2FFC0
def emerLow (w : Bool) : Nat := if w then 0x2FFC0 else 0x2FF80

/-- The four words of a frame may be written at supervisor level of a world. -/
def State.frameAllowed (s : State) (c : CoreId) (w : Bool) (base : Nat) : Bool :=
  (List.range 4).all (fun i => s.rgnAllows c w true .write (base + 4 * i))

/-- The alias address of a vector of a world of core c. -/
def State.vecAddr (s : State) (c : CoreId) (w : Bool) (vec : Nat) : Nat :=
  locAddr c (((s.rg (rWc c w 0x004)).toNat + 4 * vec) % localSize)

/-- The read of a vector meets an uncorrectable error; none can arise in a save buffer (R339). -/
def State.vectorBad (s : State) (c : CoreId) (w : Bool) (vec : Nat) : Bool := !(s.eccRead (s.vecAddr c w vec)).1

/-- The fault of a vector that cannot be read (R262). -/
def State.vectorFault (s : State) (c : CoreId) (w : Bool) (vec : Nat) : FaultRec :=
  faultBus .ecc (BitVec.ofNat 32 (((s.rg (rWc c w 0x004)).toNat + 4 * vec) / 8 * 8))

/-- E2 to E8: the frame at base, the registers of the fault (for vectors 1 to 7), the vector, the new status and stack
pointer, the crossing record, the suspension of the loops. `kind` names what is entered for. -/
def State.enterFrame (s : State) (c : CoreId) (w : Bool) (vec im : Nat) (base : Nat) (cause pc : Word) (f : FaultRec) : State :=
  let k := s.core c
  let b := BitVec.ofNat 32 base
  let loopWord : Word := k.susp.setWidth 32
  let s1 := (((s.framePut c (b + 12) pc).framePut c (b + 8) k.st).framePut c (b + 4) loopWord).framePut c b cause
  let s2 := if vec < 8 then
      ((s1.setRg (rWc c w 0x010) cause).setRg (rWc c w 0x014) f.addr).setRg (rWc c w 0x018) pc
    else s1
  let vt := (s2.rg (rWc c w 0x004)).toNat + 4 * vec
  let target := s2.memWord (s2.vecAddr c w vec)
  let susp : BitVec 2 := k.susp ||| (if k.lc[0] ≠ 0 then 1 else 0) ||| (if k.lc[1] ≠ 0 then 2 else 0)
  let st := setBits (setBit (setBit k.st 13 w) 12 true) 8 4 im
  let cr := k.cross.set! im (if w != k.world then some b else none)
  let k1 := { (k.setSpOf w true b) with st := st, cross := cr, susp := susp, pc := target, vecs := vec :: k.vecs, noInt := false }
  (s2.setCore c k1).record c (pairRecord (BitVec.ofNat 32 vt) 4 0 (BitVec.ofNat 32 vec) 0)

/-- n bytes from a base lie in the emergency stack of a world, where no stack limit applies (R261). -/
def inEmergency (w : Bool) (base n : Nat) : Bool := decide (emerLow w ≤ base) && decide (base + n ≤ emerTop w)

/-- n bytes of stack from a base: outside local memory, or below the limit of the current world and level (Table 48). -/
def State.areaBad (s : State) (c : CoreId) (base n : Nat) : Bool :=
  let k := s.core c
  decide (localSize < base + n) ||
    (!inEmergency k.world base n && decide (base < (s.rg (rSplim c k.world k.lvl)).toNat))

/-- The stack check of E1 (R261). -/
def State.pushOk (s : State) (c : CoreId) (w : Bool) (base : Nat) : Bool :=
  decide (base % 4 = 0) && decide ((s.rg (rSplim c w true)).toNat ≤ base) && decide (base + 15 ≤ 0x2FF7F) &&
    s.frameAllowed c w base

/-- What Table 49 makes of a fault of vector v at a mask level: the vector entered, the new IM and ORIG; none for lockup. -/
def escalate (im v : Nat) : Option (Nat × Nat × Nat) :=
  if im ≤ 13 then some (v, 14, 0) else if im = 14 then some (7, 15, v) else none

/-- Taking a fault or an interrupt: the one operation of every entry. `vec` and `im` are those judged for it, `orig` its
ORIG, w the target world; a failed push becomes an emergency entry (R261), a bad vector a further fault (R262). The
fuel bounds the chain of entries: IM rises with each, so three suffice. -/
def State.enter (s : State) (c : CoreId) (w : Bool) (vec im orig : Nat) (pc : Word) (f : FaultRec) : Nat → State
  | 0 => s.lockup c
  | fuel + 1 =>
    let k := s.core c
    let base := ((k.spOf w true) - 16).toNat
    let after := fun (t : State) (v : Nat) =>
      -- R262: judged at the IM that the entry has set, the pc being as it was (DESIGN CHOICE, log entry 43); the read is counted and
      -- written back like any other (R173, R335)
      let r := t.eccRead (t.vecAddr c w v)
      if r.1 then r.2
      else match escalate (r.2.core c).im 3 with
        | some (v', im', o') => r.2.enter c w v' im' o' pc (t.vectorFault c w v) fuel
        | none => r.2.lockup c
    if s.pushOk c w base then
      after (s.enterFrame c w vec im base (causeWord vec f false orig) pc f) vec
    else
      -- emergency entry, judged as STACK_FAULT at the IM that stood before it
      match escalate k.im 4 with
      | none => s.lockup c
      | some (v', im', o') =>
        let sp := (k.spOf w true).toNat
        let top := if emerLow w ≤ sp ∧ sp ≤ emerTop w then sp else emerTop w
        let ebase := top - 16
        let g : FaultRec := faultStack (BitVec.ofNat 32 base)
        if ebase < emerLow w ∨ ebase % 4 ≠ 0 ∨ ¬ s.frameAllowed c w ebase then s.lockup c
        else after (s.enterFrame c w v' im' ebase (causeWord v' g true (if o' = 0 then vec else o')) pc g) v'

/-- A fault raised by core c at an address: Table 49. The instruction does not retire. -/
def State.takeFault (s : State) (c : CoreId) (f : FaultRec) : State :=
  let s0 := s.setCore c (s.core c).commitShadow
  let k := s0.core c
  match escalate k.im f.vec with
  | none => s0.lockup c
  | some (v, im, o) =>
    let t := s0.enter c k.world v im o k.pc f 3
    let n := if s0.pushOk c k.world ((k.spOf k.world true) - 16).toNat then 8 else 9
    t.setCore c { t.core c with cycles := (t.core c).cycles + n }

/-- The pending bit of a vector on core c. -/
def State.pendIrq (s : State) (c : CoreId) (vec : Nat) (b : Bool) : State :=
  if vec = 8 then s.setFlag (rIcCtl c) 8 b else s.putBit (rIcPend c 0) (vec - 16) b

/-- The pending bit is cleared at E5: an activation at that very edge leaves it set (R266). -/
def State.ackIrq (s : State) (c : CoreId) (vec : Nat) : State :=
  if 16 ≤ vec ∧ s.fab.feed.contains (vec - 16) then s else s.pendIrq c vec false

/-- The address at which an interrupted core goes on: the WAITS, or the next instruction (R184, Table 50). -/
def CoreState.resumePc (k : CoreState) : Word :=
  match k.run with
  | .waiting _ _ => k.waitPc
  | _ => k.pc

/-- The signature of the copy that core c is, and the same put in place. -/
def State.sigOf (s : State) (c : CoreId) : BitVec 64 :=
  match s.role c with
  | .solo => 0
  | .main k => (s.pair k).sigM
  | .checker k => (s.pair k).sigC
def State.setSig (s : State) (c : CoreId) (v : BitVec 64) : State :=
  match s.role c with
  | .solo => s
  | .main k => s.setPair k { s.pair k with sigM := v }
  | .checker k => s.setPair k { s.pair k with sigC := v }

/-- The frame of an interrupt, whose push cannot fail, and its vector: the read of E6, when it comes to it, may fail (R262). -/
def State.irqFrame (s : State) (c : CoreId) (i : Irq) (pc : Word) : State :=
  let f : FaultRec := ⟨0, 0, false, false, 0⟩
  let base := (((s.core c).spOf i.world true) - 16).toNat
  let t := s.enterFrame c i.world i.vec i.prio base (causeWord i.vec f false 0) pc f
  t.setCore c { t.core c with
    run := if t.vectorBad c i.world i.vec then .vector else .running, cycles := (t.core c).cycles + 8 }

/-- Entry for an interrupt (R259, R260): a failed push leaves it pending (R261). The pending bit clears here and again at E5, and
until E5 the selection may change (R268), which the record in `entering` serves. -/
def State.takeIrq (s : State) (c : CoreId) (i : Irq) : State :=
  let k0 := (s.core c).commitShadow
  let pc := k0.resumePc
  let k := { k0 with run := .running, prefetched := false, pc := pc }
  let s0 := s.setCore c k
  let others := s.entering.filter (fun e => e.core != c)
  if s0.pushOk c i.world ((k.spOf i.world true) - 16).toNat then
    let t := (s0.pendIrq c i.vec false).irqFrame c i pc
    { t with entering := others ++ [⟨c, i.vec, i.prio, i.world, s.now + s.coreTb c 4, s.now + s.coreTb c 8, pc, k.st, k.sp,
        k.cross, k.susp, k.vecs, k.cycles, s0.sigOf c⟩] }
  else
    let t := s0.enter c i.world i.vec i.prio 0 pc ⟨0, 0, false, false, 0⟩ 3
    { t.setCore c { t.core c with cycles := (t.core c).cycles + 9 } with entering := others }

/-- The entry of core c that is under way: nothing has run on the core since. -/
def State.entryOf (s : State) (c : CoreId) : Option Entering :=
  s.entering.find? (fun e => e.core == c && decide (s.now < e.begins) && ((s.core c).run == .running || (s.core c).run == .vector) &&
    decide ((s.core c).cycles = e.cycles + 8))

/-- Interrupt i takes the place of the one that core c has selected: the frame stays, with the CAUSE word, vector and IM of i, and the
displaced one stays pending (R268). -/
def State.redirect (s : State) (e : Entering) (i : Irq) : State :=
  let c := e.core
  let k := { s.core c with pc := e.pc, st := e.st, sp := e.sp, cross := e.cross, susp := e.susp, vecs := e.vecs, cycles := e.cycles }
  let t := (((s.setSig c e.sig).setCore c k).pendIrq c e.vec true).irqFrame c i e.pc
  { t with entering := s.entering.map (fun x => if x = e then { e with vec := i.vec, prio := i.prio } else x) }

/-- E5 of an entry: the final selection among the interrupts of the entry's world, and its pending bit is cleared (R266, R268). A
checker follows its main (R281), one that has begun the displaced entry with it. -/
def State.entryFinal (s : State) (e : Entering) : State :=
  let c := e.core
  if (s.entryOf c).isNone then s
  else
    let better := bestIrq ((s.irqs c).filter (fun i => i.world == e.world)) e.prio
    let move := fun (t : State) => match better with
      | some i => (t.redirect e i).ackIrq c i.vec
      | none => t.ackIrq c e.vec
    match s.role c with
    | .solo => move s
    | .checker k => if s.paired k then s else move s
    | .main k => match better with
      | none => s.ackIrq c e.vec
      | some i =>
        let p := s.pair k
        let t := (s.setPair k { p with ints := p.ints.map (fun x =>
          if x.1 = p.cntM ∧ x.2 % 4096 = e.vec then (x.1, i.vec + x.2 / 4096 * 4096) else x) })
        let u := (t.redirect e i).ackIrq c i.vec
        match u.entryOf (coreId (u.checkerOf k)) with
        | some x => if x.vec = e.vec then u.redirect x i else u
        | none => u

/-- E6 of an entry: the vector is read, with its errors counted and corrected (R173, R335), or the read is a fault raised at the IM that
the entry sets (R262). -/
def State.entryVector (s : State) (c : CoreId) : State :=
  match s.entering.find? (fun e => e.core == c) with
  | none => s
  | some e =>
    let r := s.eccRead (s.vecAddr c e.world e.vec)
    if (s.entryOf c).isNone then (if r.1 then r.2 else s)
    else
      let k := { r.2.core c with run := .running, pc := r.2.memWord (s.vecAddr c e.world e.vec) }
      let t := r.2.setCore c k
      if r.1 then t
      else match escalate k.im 3 with
        | some (v, im, o) => t.enter c e.world v im o e.pc (s.vectorFault c e.world e.vec) 3
        | none => t.lockup c

end Sys2Proof.Machine
end

