-- ==== Sys2Proof/Machine/Flags.lean ====
section
/-! DEFINITION. Flags.lean: the flags that CMP, TST and FCMP write (R198, R220), and the results that saturate and set Q
(R219). -/

namespace Sys2Proof.Machine

/-- The flags of a − b: N and Z of the difference, C for no borrow, V for signed overflow. -/
def subFlags (a b : Word) : Bool × Bool × Bool × Bool :=
  let d := a - b
  (d.msb, d == 0, decide (b.toNat ≤ a.toNat), decide (d.toInt ≠ a.toInt - b.toInt))

/-- The flags of TST. -/
def andFlags (a b : Word) : Bool × Bool × Bool × Bool :=
  let d := a &&& b
  (d.msb, d == 0, false, false)

/-- Flags written. -/
def CoreState.putFlags (k : CoreState) (f : Bool × Bool × Bool × Bool) : CoreState := k.setNzcv f.1 f.2.1 f.2.2.1 f.2.2.2

/-- A result that may have saturated: the register and Q. -/
def CoreState.setSat (k : CoreState) (a : Reg) (r : Word × Bool) : CoreState := (k.sticky stQ r.2).setW a r.1

/-- A float result: the register and FE. -/
def CoreState.setFloat (k : CoreState) (a : Reg) (r : Word × Bool) : CoreState := (k.sticky stFE r.2).setW a r.1

/-- DIV and REM (R219): quotient, remainder, and whether Q is set. -/
def divS (b c : Word) : Word × Word × Bool :=
  if c = 0 then (if b.msb then 0x80000000 else 0x7FFFFFFF, b, true)
  else if b = 0x80000000 ∧ c = 0xFFFFFFFF then (0x7FFFFFFF, 0, true)
  else (BitVec.ofInt 32 (Int.tdiv b.toInt c.toInt), BitVec.ofInt 32 (Int.tmod b.toInt c.toInt), false)

/-- DIVU and REMU. -/
def divU (b c : Word) : Word × Word × Bool :=
  if c = 0 then (0xFFFFFFFF, b, true) else (BitVec.ofNat 32 (b.toNat / c.toNat), BitVec.ofNat 32 (b.toNat % c.toNat), false)

/-- MULQ: the Q1.31 product, rounded to nearest with ties toward positive infinity, saturated. -/
def mulQ (b c : Word) : Word × Bool := sat32 (roundUp (b.toInt * c.toInt) (2 ^ 31))

/-- SAT: b limited to n + 1 bits, n = 31 copies. -/
def satTo (b : Word) (n : Nat) : Word × Bool :=
  if n = 31 then (b, false)
  else
    let v := clampInt b.toInt (-(2 ^ n)) (2 ^ n - 1)
    (BitVec.ofInt 32 v, decide (v ≠ b.toInt))

/-- Leading zeros. -/
def leadZeros (b : Word) : Nat := if b = 0 then 32 else 31 - topBit b.toNat

/-! ## Accumulators (R221) -/

/-- A sum of 72 bits, which wraps. -/
def accAdd (a : BitVec 72) (v : Int) : BitVec 72 := a + BitVec.ofInt 72 v

/-- ACCRD: rounded, shifted and saturated. -/
def accRead (a : BitVec 72) (sh : Nat) : Word × Bool := sat32 (roundUp a.toInt (2 ^ sh))

/-- A part of an accumulator (ACCGT), and with a part replaced (ACCPT). -/
def accPart (a : BitVec 72) (p : Nat) : Word :=
  match p with
  | 0 => a.extractLsb' 0 32
  | 1 => a.extractLsb' 32 32
  | _ => (a.extractLsb' 64 8).signExtend 32
def accPut (a : BitVec 72) (p : Nat) (v : Word) : BitVec 72 :=
  match p with
  | 0 => a.extractLsb' 32 40 ++ v
  | 1 => a.extractLsb' 64 8 ++ v ++ a.extractLsb' 0 32
  | _ => v.extractLsb' 0 8 ++ a.extractLsb' 0 64

end Sys2Proof.Machine
end

