-- ==== Sys2Proof/Machine/Flash.lean ====
section
/-! DEFINITION. Flash.lean: the flash banks, the wear window of the data flash and the protection levels (chapter 13).
Addresses inside the model's flash space: code flash from 0, physical data flash from 2^24. -/

namespace Sys2Proof.Machine

def dfSpace : Nat := 0x1000000

def State.flBank (s : State) (b : Fin 5) : FlBank := s.flBanks[b]
def State.setFlBank (s : State) (b : Fin 5) (k : FlBank) : State := { s with flBanks := s.flBanks.set b k }

/-- FL_STATb.STATE: 0 IDLE, 1 BUSY, 2 SUSPENDED, 3 DONE, 4 ERROR. -/
def State.flSt (s : State) (b : Fin 5) : Nat := s.fld (rFlStat b) 0 3
def State.flBusy (s : State) (b : Fin 5) : Bool := decide (s.flSt b = 1) || decide (s.flSt b = 2)
def State.flCode (s : State) (b : Fin 5) : Nat := s.fld (rFlStat b) 4 4

/-- A byte range of the flash space is undefined, or no longer. -/
def State.flSetUndef (s : State) (a n : Nat) : State := { s with flUndef := (a, n) :: s.flUndef }
def State.flSetDef (s : State) (a n : Nat) : State :=
  { s with flUndef := s.flUndef.flatMap (fun p =>
      if a + n ≤ p.1 ∨ p.1 + p.2 ≤ a then [p]
      else (if p.1 < a then [(p.1, a - p.1)] else []) ++ (if a + n < p.1 + p.2 then [(a + n, p.1 + p.2 - (a + n))] else [])) }
def State.flIsUndef (s : State) (a : Nat) : Bool := s.flUndef.any (fun p => decide (p.1 ≤ a) && decide (a < p.1 + p.2))

def State.flByte (s : State) (a : Nat) : Byte := sget 0xFF s.flash a
def State.flBytes (s : State) (a n : Nat) : List Byte := (List.range n).map (fun i => s.flByte (a + i))

/-- Whether a range is blank: no cell programmed. Where part of it is undefined, the answer is free (R356). -/
def State.flBlank (s : State) (a n : Nat) : Bool × State :=
  if s.flUndef.any (fun p => decide (p.1 < a + n) && decide (a < p.1 + p.2)) then (s.takeFree.1.getLsbD 0, s.takeFree.2)
  else (!s.flash.any (fun e => decide (a ≤ e.1) && decide (e.1 < a + n)) && !s.flProg.any (fun u => decide (a ≤ u) && decide (u < a + n)), s)

/-- A range erased. -/
def State.flErase (s : State) (a n : Nat) : State :=
  let t := s.flSetDef a n
  { t with flash := sclear t.flash a n, flEcc := sclear t.flEcc a n
           flProg := t.flProg.filter (fun u => decide (u < a) || decide (a + n ≤ u)) }

/-- Bytes programmed into a blank range. -/
def flPut (l : Sparse Byte) (a : Nat) : List Byte → Sparse Byte
  | [] => l
  | b :: bs => flPut (sput 0xFF l a b) (a + 1) bs

/-! ## The wear window (R357 to R365) -/

/-- A physical sector as delivered: erased, count 0 (log entry 14). -/
def dfFresh : DfSector := ⟨.written 0 1, .blank, .blank, .blank, false⟩

def State.dfSec (s : State) (p : Nat) : DfSector := sget dfFresh s.dfSecs p
def State.setDfSec (s : State) (p : Nat) (d : DfSector) : State := { s with dfSecs := sput dfFresh s.dfSecs p d }

/-- Table of R358: 0 FREE, 1 COMMITTED, 3 RETIRED, 4 UNDEFINED. -/
def DfSector.state (d : DfSector) : Nat :=
  match d.u3, d.u0, d.u1, d.u2 with
  | .written _ _, _, _, _ => 3
  | .blank, .written _ _, .blank, .blank => 0
  | .blank, .written _ _, .written a b, .written c e => if a = c ∧ b = e then 1 else 4
  | _, _, _, _ => 4

def State.dfQueued (s : State) (p : Nat) : Bool :=
  s.dfQueue.contains p || (match s.dfBg with | some b => b.1 == p | none => false)

/-- A sector that may be allocated. -/
def State.dfFree (s : State) (p : Nat) : Bool := decide ((s.dfSec p).state = 0) && !s.dfQueued p

/-- The first FREE sector from p on, in ascending number, wrapping. -/
def State.dfNextFree (s : State) (p : Nat) : Option Nat :=
  ((List.range 1024).map (fun i => (p + i) % 1024)).find? (fun q => s.dfFree q)

/-- The highest erase count found in any sector (R365). -/
def State.dfTopCount (s : State) : Nat :=
  s.dfSecs.foldl (fun m e => match e.2.u0, e.2.u3 with
    | .written a _, _ => max m a
    | _, .written a _ => max m a
    | _, _ => m) 0

/-- The erase count of a sector, which the engine holds while it erases it (R362); one that cannot be read is what recovery gave,
the highest of all then (R365). -/
def State.dfCount (s : State) (p : Nat) : Nat :=
  match s.dfBg.filter (fun b => b.1 == p), (s.dfSec p).u0, (s.dfSec p).u3 with
  | some b, _, _ => b.2.1
  | none, .written a _, _ => a
  | none, _, .written a _ => a
  | none, _, _ => s.dfTop

def State.dfMap (s : State) (l : Nat) : Nat := s.fld (rDfMap l) 0 10

/-- The flash address of byte o of logical sector l. -/
def State.dfAddr (s : State) (l o : Nat) : Nat := dfSpace + 0x1000 * s.dfMap l + o

/-- NEXT moves on past sector p (R360). -/
def State.dfAdvance (s : State) (p : Nat) : State :=
  match s.dfNextFree ((p + 1) % 1024) with
  | some q => s.setFld rDfHealth 0 10 q
  | none => s

/-- NEXT is FREE by construction: where it was not, since no sector was, it moves to one that is (R360). -/
def State.dfNextFix (s : State) : State :=
  let n := s.fld rDfHealth 0 10
  if s.dfFree n then s else s.dfAdvance n

/-- The allocation step of LOG_ERASE: the sector at NEXT and the next sequence number, or none free (R359 to R361). -/
def State.dfAlloc (s : State) (l : Fin 8) : State :=
  match s.dfNextFree (s.fld rDfHealth 0 10) with
  | none => s.setFlBank 4 { s.flBank 4 with op := some (.logErase l none) }
  | some p =>
    let d := s.dfSec p
    (({ s with dfSeq := (s.dfSeq + 1) % 2 ^ 32 }.setFlBank 4 { s.flBank 4 with op := some (.logErase l (some p)) }).setDfSec p
      { d with u1 := .torn }).dfAdvance p

/-- The commit of LOG_ERASE: the new copy, with the number taken at its allocation, is mapped and the old one queued. -/
def State.dfCommit (s : State) (l : Fin 8) (p : Nat) (old : Option Nat) : State :=
  let q := s.dfSeq
  let s1 := s.setDfSec p { s.dfSec p with u1 := .written l q, u2 := .written l q }
  let s2 := ((s1.setFld (rDfMap l) 0 10 p).setRg (rDfSeq l) (BitVec.ofNat 32 q))
  { s2 with dfQueue := match old with | some o => s2.dfQueue ++ [o] | none => s2.dfQueue }

/-- A sector retired with a reason: 1 WEAR, 2 ERASE_FAIL, 3 PROG_FAIL. U0 is programmed too where the erase succeeded (Table 67); after
one that failed the header is undefined but for U3. -/
def State.dfRetire (s : State) (p count reason : Nat) (u0 : HdrUnit) : State :=
  let u : HdrUnit := if reason = 2 then .torn else .blank
  (s.setDfSec p ⟨u0, u, u, .written count reason, false⟩).setFld rDfHealth 12 10
    (min 1016 (s.fld rDfHealth 12 10 + 1))

/-- The outcome of an erase of sector p with a count before it (R362, R363). -/
def State.dfErased (s : State) (p count : Nat) (r : FlashOutcome) : State :=
  let s0 := s.flErase (dfSpace + 0x1000 * p) 0x1000
  let note := fun (t : State) (n : Nat) => t.setFld rDfHealth 24 4 (max n (t.fld rDfHealth 24 4))
  match r with
  | .failed => ((note s 8).dfRetire p (count + 1) 2 .torn).fire 945
  | .verified n =>
    let n := max 1 n.val
    let u0 := HdrUnit.written (min 0xFFFFF (count + 1)) n
    if (s.dfSec p).marked then (note s0 n).dfRetire p (count + 1) 3 u0
    else if 4 < n then (((note s0 n).dfRetire p (count + 1) 1 u0).hwFlag rDfHealth 10).fire 946
    else (note s0 n).setDfSec p ⟨u0, .blank, .blank, .blank, false⟩

/-- DF_EST (R364). -/
def State.dfEst (s : State) : Word :=
  BitVec.ofNat 32 (s.dfSecs.foldl (fun t e =>
    t - 800000 + (if e.2.state = 3 then 0 else 800000 - s.dfCount e.1)) (1024 * 800000))

/-- DF_PINFO. -/
def State.dfInfo (s : State) : Word :=
  let p := s.fld rDfPsel 0 10
  let d := s.dfSec p
  let pulses := match s.dfBg.filter (fun b => b.1 == p), d.u0, d.u3 with
    | some b, _, _ => b.2.2
    | none, .written _ n, _ => n
    | none, _, .written _ 2 => 8
    | _, _, _ => 0
  BitVec.ofNat 32 (min 0xFFFFF (s.dfCount p) + (min 15 pulses) <<< 20 + (if s.dfQueued p then 2 else d.state) <<< 24)

/-- Recovery of the window at BOOT (R365), and whether it acted. A logical sector without a copy gets one by LOG_ERASE; when
no sector is FREE, the first queued one is erased for it (log entry 14). No header row holds the mark of a failed program, so none
stands after it (DEDUCED, log entry 14). -/
def State.dfRecover (s0 : State) : Bool × State :=
  let s : State := { s0 with dfSecs := s0.dfSecs.map (fun (e : Nat × DfSector) => (e.1, { e.2 with marked := false })) }
  let com := s.dfSecs.filterMap (fun e => match e.2.state, e.2.u1 with
    | 1, .written l q => some (e.1, l, q)
    | _, _ => none)
  let best := fun (l : Nat) => (com.filter (fun e => e.2.1 == l)).foldl (fun (m : Option (Nat × Nat × Nat)) e =>
    match m with
    | some x => if x.2.2 < e.2.2 then some e else m
    | none => some e) none
  let s1 := (List.range 8).foldl (fun t l => match best l with
    | some e => (t.setFld (rDfMap l) 0 10 e.1).setRg (rDfSeq l) (BitVec.ofNat 32 e.2.2)
    | none => t) s
  let mapped := (List.range 8).filterMap (fun l => (best l).map (·.1))
  let queue := (s.dfSecs.filter (fun e =>
    e.2.state == 4 || (e.2.state == 1 && !mapped.contains e.1))).map (·.1)
  let unread := s.dfSecs.any (fun e => match e.2.u0, e.2.u3 with
    | .written _ _, _ => false
    | _, .written _ _ => false
    | _, _ => true)
  let top := com.foldl (fun (m : Nat × Nat) e => if m.2 < e.2.2 then (e.1, e.2.2) else m) (1023, 0)
  let retired := (s.dfSecs.filter (fun e => e.2.state == 3)).length
  let s2 := ({ s1 with dfQueue := queue, dfBg := none, dfSeq := top.2, dfTop := s.dfTopCount }).setRg rDfHealth
    (BitVec.ofNat 32 ((min 1016 retired) <<< 12))
  let s3 := match s2.dfNextFree ((top.1 + 1) % 1024) with
    | some p => s2.setFld rDfHealth 0 10 p
    | none => s2
  let lost := (List.finRange 8).filter (fun l => (best l.val).isNone)
  let s4 := lost.foldl (fun t l =>
    let t1 := if (t.dfNextFree 0).isNone then match t.dfQueue with
        | p :: r => { t with dfQueue := r }.dfErased p (t.dfCount p) (.verified 1)
        | [] => t
      else t
    match t1.dfNextFree (t1.fld rDfHealth 0 10) with
    | some p => ({ t1 with dfSeq := (t1.dfSeq + 1) % 2 ^ 32 }.dfCommit l p none).dfAdvance p
    | none => t1) s3
  (!queue.isEmpty || unread || !lost.isEmpty, s4.dfNextFix)

/-! ## Reads (R348 to R350, R356) -/

/-- The bank, the flash address and the power domain of a core address; none outside flash. -/
def State.flLocate (s : State) (a : Nat) : Option (Fin 5 × Nat) :=
  if 0x10000000 ≤ a ∧ a < 0x11000000 then
    some (⟨(a - 0x10000000) / 0x400000 % 5, Nat.mod_lt _ (by decide)⟩, a - 0x10000000)
  else if 0x18000000 ≤ a ∧ a < 0x18008000 then
    some (4, s.dfAddr ((a - 0x18000000) / 0x1000) ((a - 0x18000000) % 0x1000))
  else none

/-- The core address under which FL_ECC_ADDR records a unit. -/
def flUnitAddr (a : Nat) : Word := BitVec.ofNat 32 (a / 16 * 16)

/-- An ECC error of the flash unit at a core address is counted, an uncorrectable one recorded too, and its source activates (R350).
-/
def State.flReport (s : State) (a : Nat) (uncorr : Bool) : State :=
  let s1 := if uncorr then s.setRg rFlEccAddr (flUnitAddr a) else s
  (s1.count rFlEcc (16 * b2n uncorr) 16 1).fire (943 + b2n uncorr)

/-- The ECC errors whose edge has come are reported. -/
def State.eccEdge (s : State) : State :=
  if s.eccNew.isEmpty then s
  else (s.eccNew.filter (fun e => decide (e.1 ≤ s.now))).foldl
    (fun t e => if (t.flLocate e.2.1).isSome then t.flReport e.2.1 e.2.2 else t.eccReport e.2.1 e.2.2)
    { s with eccNew := s.eccNew.filter (fun e => decide (s.now < e.1)) }

/-- The bank programs or erases, in the background too, and does not stand at a suspend point with reads left to it (R349, R354). A
BLANK_CHECK does neither. -/
def State.flWorking (s : State) (b : Fin 5) : Bool :=
  let k := s.flBank b
  s.protPend || (match s.flSt b, k.op with
    | 1, some (.blankCheck _ _) => false
    | 1, _ => true
    | 2, _ => decide (64 ≤ k.served)
    | _, _ => b == 4 && s.dfBg.isSome && !(k.paused && decide (k.served < 64)))

/-- A load from a bank that is programming or erasing waits for its next suspend point (R29, R349). -/
def State.flashWaits (s : State) (a : Nat) : Bool :=
  match s.flLocate a with
  | some (b, _) => s.domReady (63 + b.val) && s.flWorking b
  | none => false

/-- The bank stands at a suspend point of its operation, or of the background erase. -/
def State.flHalted (s : State) (b : Fin 5) : Bool := s.flSt b == 2 || (s.flBank b).paused

/-- A read that is served at a suspend point counts (R354). -/
def State.flServe (s : State) (b : Fin 5) : State :=
  if s.flHalted b then s.setFlBank b { s.flBank b with served := (s.flBank b).served + 1, last := s.now } else s

/-- The unit read becomes the read line, `held` its data where the unit is undefined. -/
def State.flLine (s : State) (b : Fin 5) (u : Nat) (held : Option (List Byte)) : State :=
  s.setFlBank b { s.flBank b with line := some u, held := held }

/-- The word of flash at a core address, from a bank that serves it. -/
def State.flRead (s0 : State) (a : Nat) : Except BusCause Word × State :=
  match s0.flLocate a with
  | none => (.error .denied, s0)
  | some (b, f) =>
    let u := f / 16 * 16
    let part := fun (d : List Byte) => leWord ((d.drop (f % 16 / 4 * 4)).take 4)
    if !s0.domReady (63 + b.val) then (.error .timeout, s0)
    else
      let s := s0.flServe b
      let w := leWord (s.flBytes (f / 4 * 4) 4)
      if (s.flBank b).line = some u then (.ok ((s.flBank b).held.elim w part), s)
      else if s.flIsUndef u then
        -- undefined unit: free data, with or without an error
        let r := s.takeFree
        let d := (List.range 16).map (fun i => Config.freeByte (r.2.free + i))
        let t := { r.2 with free := r.2.free + 16 }
        if bits (r.1.setWidth 32) 0 2 = 0 then (.ok (part d), t.flLine b u (some d))
        else if bits (r.1.setWidth 32) 0 2 = 1 then (.ok (part d), (t.flLine b u (some d)).eccLater 24 a false)
        else (.error .ecc, t.eccLater 24 a true)
      else match sfind s.flEcc u with
        | some true => (.error .ecc, s.eccLater 24 a true)
        | some false => (.ok w, (s.flLine b u none).eccLater 24 a false)
        | none => (.ok w, s.flLine b u none)

/-! ## Commands (R351 to R355) -/

/-- The status (Table 73) of a code of FL_STATb: 0 OK, 1 BUSY, 2 NOT_BLANK, 3 PROG_FAIL, 4 ERASE_FAIL, 5 and 6 refused. -/
def flStatus (code : Nat) : Nat :=
  match code with
  | 0 => 0
  | 1 => 1
  | 2 => 10
  | 3 => 11
  | 4 => 12
  | 5 => 6
  | _ => 7

/-- An operation ends: STATE, CODE, PULSES, and the bank's source (R355). -/
def State.flEnd (s : State) (b : Fin 5) (code pulses : Nat) : State :=
  let w := setBits (setBits (setBits (s.rg (rFlStat b)) 0 3 (if code = 0 then 3 else 4)) 4 4 code) 8 4 pulses
  let t := ((s.setRg (rFlStat b) w).setFlBank b { s.flBank b with op := none }).fire (938 + b.val)
  (t.endJob (.erase b) (BitVec.ofNat 8 (flStatus code)) [BitVec.ofNat 8 pulses]).endJob (.blank b)
    (BitVec.ofNat 8 (flStatus code)) []

/-- STATE BUSY, CODE OK. -/
def State.flSetBusy (s : State) (b : Fin 5) : State :=
  s.setRg (rFlStat b) (setBits (setBits (s.rg (rFlStat b)) 0 3 1) 4 4 0)

/-- An operation starts, and the read line is invalid where the array changes. A background erase stands while it runs (R362). -/
def State.flStart (s : State) (b : Fin 5) (op : FlashOp) : State :=
  let k := s.flBank b
  let k1 := match op with | .blankCheck _ _ => k | _ => { k with line := none, held := none }
  (s.flSetBusy b).setFlBank b { k1 with op := some op, since := s.now, wait := none, paused := false }

/-- A command that is not started: CODE alone says why. -/
def State.flRefuse (s : State) (b : Fin 5) (code : Nat) : State := s.setFld (rFlStat b) 4 4 code

/-- PROGRAM of the 16 bytes at a flash address (R352). -/
def State.flProgramAt (s : State) (b : Fin 5) (a : Nat) (data : List Byte) : State :=
  let r := s.flBlank a 16
  if r.1 then (r.2.flStart b (.program a data)).flSetUndef a 16
  else (r.2.flEnd b 2 0).fire 948

/-- The flash address of a unit number of a bank. -/
def State.flUnit (s : State) (b : Fin 5) (unit : Nat) : Nat :=
  if b = 4 then s.dfAddr (unit / 256 % 8) (unit % 256 * 16) else 0x400000 * b.val + unit * 16

/-- The sector of a unit number: flash address and length. -/
def State.flSector (s : State) (b : Fin 5) (unit : Nat) : Nat × Nat :=
  if b = 4 then (s.dfAddr (unit / 256 % 8) 0, 0x1000) else (0x400000 * b.val + unit / 4096 % 64 * 0x10000, 0x10000)

def State.flCmdErase (s : State) (b : Fin 5) (unit : Nat) : State :=
  let a := (s.flSector b unit).1
  (s.flStart b (.eraseSector a)).flSetUndef a 0x10000
def State.flCmdBlank (s : State) (b : Fin 5) (unit : Nat) : State :=
  s.flStart b (.blankCheck (s.flSector b unit).1 (s.flSector b unit).2)
def State.flCmdLogErase (s : State) (unit : Nat) : State :=
  let l : Fin 8 := ⟨unit / 256 % 8, Nat.mod_lt _ (by decide)⟩
  (s.flStart 4 (.logErase l none)).dfAlloc l

/-- A command begins: op 1 PROGRAM, 2 ERASE_SECTOR, 3 BLANK_CHECK, 4 LOG_ERASE (Table 66). -/
def State.flRun (s : State) (b : Fin 5) (op unit : Nat) (data : List Byte) : State :=
  if op = 1 then s.flProgramAt b (s.flUnit b unit) data
  else if op = 2 then s.flCmdErase b unit
  else if op = 3 then s.flCmdBlank b unit
  else s.flCmdLogErase unit

/-- A command written to bank b (R351, Table 66). One that arrives during a background erase waits for its next suspend point (R362). -/
def State.flCmd (s : State) (b : Fin 5) (op unit : Nat) (data : List Byte) : State :=
  if op = 0 ∨ 4 < op then s
  else if s.protPend then s.flRefuse b 6
  else if s.flBusy b then s.flRefuse b 1
  else if (op = 2 ∧ b = 4) ∨ (op = 4 ∧ b ≠ 4) then s.flRefuse b 5
  else if b = 4 ∧ s.dfBg.isSome ∧ !(s.flBank b).paused then
    (s.flSetBusy b).setFlBank b { s.flBank b with wait := some (op, unit, data) }
  else s.flRun b op unit data

/-- The command that waits for the background erase begins. -/
def State.flWaiting (s : State) : State :=
  match (s.flBank 4).wait with
  | some (op, unit, data) => (s.setFlBank 4 { s.flBank 4 with wait := none }).flRun 4 op unit data
  | none => s

/-- FL_CMDb.OP written by a master that may: unit and data come from FL_ADDRb and FL_DATAb. -/
def State.flCmdWrite (s : State) (b : Fin 5) (op : Nat) : State :=
  s.flCmd b op (s.fld (rFl b 4) 4 18)
    (wordBytes (s.rg (rFl b 0x08)) ++ wordBytes (s.rg (rFl b 0x0C)) ++ wordBytes (s.rg (rFl b 0x10)) ++
      wordBytes (s.rg (rFl b 0x14)))

/-- The operation of a bank ends (R352, R353, R355, R360), but not while it is suspended (R354). -/
def State.flComplete (s : State) (b : Fin 5) (r : FlashOutcome) : State :=
  let pulses := match r with | .verified n => max 1 n.val | .failed => 8
  if s.flSt b = 2 then s
  else match (s.flBank b).op with
  | none => s
  | some (.program a data) =>
    if r = .failed then (s.flEnd b 3 pulses).fire 945
    else ({ s.flSetDef a 16 with
      flash := flPut s.flash a data, flProg := if data.all (fun x => x == 0xFF) then a :: s.flProg else s.flProg }).flEnd b 0 pulses
  | some (.eraseSector a) =>
    if r = .failed then (s.flEnd b 4 pulses).fire 945 else (s.flErase a 0x10000).flEnd b 0 pulses
  | some (.blankCheck a n) => (s.flBlank a n).2.flEnd b (if (s.flBlank a n).1 then 0 else 2) (s.fld (rFlStat b) 8 4)
  | some (.logErase _ none) => s
  | some (.logErase l (some p)) =>
    if r = .failed then
      let t := s.setDfSec p { s.dfSec p with marked := true }
      (({ t with dfQueue := t.dfQueue ++ [p] }).flEnd b 3 pulses).fire 945
    else
      (s.dfCommit l p (some (s.dfMap l))).flEnd b 0 pulses

/-- Some read waits for bank b. -/
def State.flAwaited (s : State) (b : Fin 5) : Bool :=
  s.stalls.any (fun w => match s.flLocate w.addr.toNat with | some (c, _) => c == b | none => false)

/-- The bank stands at a suspend point from this edge on. -/
def FlBank.hold (k : FlBank) (now : Nat) : FlBank := { k with served := 0, last := now }

/-- SUSPEND_POINT (R354, R362): with reads waiting, which the outside or the model's own stalls show, the bank is suspended. At a suspend
point of the background erase without them the command that waits for one begins. -/
def State.flSuspend (s : State) (b : Fin 5) (reads : Bool) : State :=
  let k := s.flBank b
  let waits := reads || s.flAwaited b
  let bg := b == 4 && s.dfBg.isSome && !k.paused
  match k.op with
  | some (.blankCheck _ _) => s
  | some _ => if s.flSt b = 1 ∧ waits then (s.setFld (rFlStat b) 0 3 2).setFlBank b (k.hold s.now) else s
  | none =>
    if !bg then s
    else if waits then s.setFlBank b { k.hold s.now with paused := true }
    else s.flWaiting

/-- FLASH_RESUME (R354): after 64 tb cycles without a read, or after 64 reads, a suspended bank goes on where it stopped. -/
def State.flResume (s : State) (b : Fin 5) : State :=
  let k := s.flBank b
  if k.served < 64 ∧ s.now < k.last + 64 then s
  else if s.flSt b = 2 then s.setFld (rFlStat b) 0 3 1
  else if k.paused then (s.setFlBank b { k with paused := false }).flWaiting
  else s

/-- The suspended banks whose reads are over go on (R354). -/
def State.flashEdge (s : State) : State := (List.finRange 5).foldl (fun t b => if t.flHalted b then t.flResume b else t) s

/-- BACKGROUND_ERASE_START (R362, R365): the oldest queued sector, outside BOOT, while no command runs but one that waits for it. -/
def State.dfBgStart (s : State) : State :=
  let idle := match (s.flBank 4).op with
    | none => true
    | some (.logErase _ none) => true
    | _ => false
  match s.dfQueue, s.dfBg with
  | p :: r, none =>
    if idle && s.domReady 67 && !s.protPend && s.mode != 1 && s.mode != 0 then
      let n := s.dfCount p
      let pulses := match (s.dfSec p).u0 with | .written _ k => k | _ => 0
      -- an erase invalidates the bank's read line (R348)
      let t := { s.setFlBank 4 { s.flBank 4 with line := none, held := none, paused := false } with dfQueue := r, dfBg := some (p, n, pulses) }
      ((t.setDfSec p ⟨.torn, .torn, .torn, .torn, (s.dfSec p).marked⟩).flSetUndef (dfSpace + 0x1000 * p) 0x1000).setFlag
        (rFlStat 4) 12 true
    else s
  | _, _ => s

/-- The background erase stands: at a suspend point, or while a command runs that does not wait for it (R362). -/
def State.dfStands (s : State) : Bool :=
  s.flHalted 4 || (match (s.flBank 4).op with
    | none => false
    | some (.logErase _ none) => false
    | _ => true)

/-- BACKGROUND_ERASE_COMPLETE (R363), and the command that waited for it (R361, R362). -/
def State.dfBgEnd (s : State) (r : FlashOutcome) : State :=
  match s.dfBg with
  | none => s
  | some (p, n, _) =>
    if s.dfStands then s
    else
      let t := (({ s with dfBg := none }.dfErased p n r).setFlag (rFlStat 4) 12 false).dfNextFix
      match (t.flBank 4).op with
      | some (.logErase l none) => t.dfAlloc l
      | _ => t.flWaiting

/-! ## Protection (R366, R367) -/

/-- FL_PROT. -/
def State.flProtWord (s : State) : Word := setBits (setBit (s.rg rFlProt) 2 s.protPend) 0 2 s.prot

/-- SET (R367): at or above LEVEL the new level holds at once; below it the lowering begins: memories clear, and flash, with no
operation or read line left, is erased until PROTECTION_LOWERING_RESET. -/
def State.protSet (s : State) : State :=
  let n := s.fld rFlProt 4 2
  let l : Fin 3 := ⟨min 2 n, by omega⟩
  if s.protPend then s
  else if s.prot.val ≤ l.val then { s with prot := l }
  else { s with protPend := true, protNew := l, mem := [], poison := [], ecc := [],
                flUndef := [(0, dfSpace + 0x400000)], flBanks := Vector.replicate 5 flFresh, dfBg := none }

/-- A write of FL_PROT by SC or the debug port: SET acts for SC only. -/
def State.flProtWrite (s : State) (sc : Bool) (v : Word) : State :=
  let t := s.writeRg false rFlProt v
  if sc && bit v 8 then t.protSet else t

/-- The flash after the erase of a lowering: everything blank, header rows included. -/
def State.flWipe (s : State) : State :=
  { s with flash := [], flUndef := [], flEcc := [], flProg := [], dfBg := none, dfQueue := [], dfSeq := 0,
           dfSecs := (List.range 1024).map (fun p => (p, ⟨.blank, .blank, .blank, .blank, false⟩)) }

/-- What a reset or the loss of the bank's domain leaves of its operation (R356): the unit, sector or header row in work stays
undefined. A LOG_ERASE may have got as far as any of its steps. -/
def State.flAbort (s : State) (b : Fin 5) : State :=
  let s1 := match (s.flBank b).op with
    | some (.logErase l (some p)) =>
      let r := s.takeFree
      let d := s.dfSec p
      match bits (r.1.setWidth 32) 0 2 with
      | 0 => r.2.setDfSec p { d with u1 := .torn }
      | 1 => r.2.setDfSec p { d with u1 := .written l s.dfSeq, u2 := .torn }
      -- U2 passes its margin read: the copy is the mapped one (R359)
      | _ => r.2.dfCommit l p (some (s.dfMap l))
    | _ => s
  let s2 := s1.setFlBank b flFresh
  if b = 4 then { s2 with dfBg := none } else s2

def execFlashOperationComplete (b : Fin 5) (r : FlashOutcome) (s : State) : Host.Outcome State Fault Refusal :=
  .next (s.flComplete b r)
def execSuspendPoint (b : Fin 5) (reads : Bool) (s : State) : Host.Outcome State Fault Refusal := .next (s.flSuspend b reads)
def execFlashResume (b : Fin 5) (s : State) : Host.Outcome State Fault Refusal := .next (s.flResume b)
def execBackgroundEraseStart (s : State) : Host.Outcome State Fault Refusal := .next s.dfBgStart
def execBackgroundEraseComplete (r : FlashOutcome) (s : State) : Host.Outcome State Fault Refusal := .next (s.dfBgEnd r)

end Sys2Proof.Machine
end

