-- ==== Sys2Proof/Machine/Otp.lean ====
section
/-! DEFINITION. Otp.lean: OTP, its generations, their load at BOOT, BURN_GEN and REVOKE (R368 to R373). -/

namespace Sys2Proof.Machine

/-- Byte a of the 16 KiB OTP (Table 68). -/
def State.otpByte (s : State) (a : Nat) : Byte :=
  if a < 0x1804 then sget 0 s.otp a else if a < 0x2000 then 0 else Config.factoryTrim a

/-- A byte of OTP as a read returns it: the bytes of a key block that Table 70 does not read back read zero, the secret keys among
them. -/
def State.otpRead (s : State) (a : Nat) : Byte :=
  if 0x1000 ≤ a ∧ a < 0x1800 ∧ 80 ≤ a % 0x200 ∧ a % 0x200 < 508 then 0 else s.otpByte a

/-- Length and place of generation g of an area: the configuration record, or the key block. -/
def otpLen (key : Bool) : Nat := if key then 512 else 1024
def otpAt (key : Bool) (g : Nat) : Nat := if key then 0x1000 + 0x200 * g else 0x400 * g

def State.otpGen (s : State) (key : Bool) (g : Nat) : List Byte :=
  (List.range (otpLen key)).map (fun i => s.otpByte (otpAt key g + i))

/-- The magic and the CRC-32 of a generation (R369). -/
def otpValid (key : Bool) (img : List Byte) : Bool :=
  let n := otpLen key
  decide (leAt img 0 4 = if key then 0x8840CE71 else 0x8840C0F1) &&
    decide ((crc32 (img.take (n - 4))).toNat = leAt img (n - 4) 4)

/-- Generation g is blank: no bit of its slot is programmed. -/
def State.otpBlank (s : State) (key : Bool) (g : Nat) : Bool :=
  !s.otp.any (fun e => decide (otpAt key g ≤ e.1) && decide (e.1 < otpAt key g + otpLen key))

/-- The revoke word, and the bit of a generation. -/
def State.otpRevoke (s : State) : Nat := (s.otpByte 0x1800).toNat
def revokeBit (key : Bool) (g : Fin 4) : Fin 8 := if key then ⟨4 + g.val, by omega⟩ else ⟨g.val, by omega⟩
def State.otpRevoked (s : State) (key : Bool) (g : Fin 4) : Bool := s.otpRevoke.testBit (revokeBit key g)

/-- Generation g may be loaded: valid, not revoked, GEN its slot number. -/
def State.otpGood (s : State) (key : Bool) (g : Fin 4) : Bool :=
  !s.otpBlank key g && !s.otpRevoked key g && otpValid key (s.otpGen key g) && decide (leAt (s.otpGen key g) 4 1 = g.val)

/-- Generation g is rejected: neither blank nor valid. -/
def State.otpBad (s : State) (key : Bool) (g : Fin 4) : Bool := !s.otpBlank key g && !otpValid key (s.otpGen key g)

/-- The generation that is loaded: the highest good one, or 4. -/
def State.otpPick (s : State) (key : Bool) : Nat :=
  ((List.finRange 4).reverse.find? (fun g => s.otpGood key g)).elim 4 (fun g => g.val)

/-- OTP_STAT: generations loaded and rejected stand from the load; blankness and the revoke word as they are now. -/
def State.otpStat (s : State) : Word :=
  let used := fun (key : Bool) => (List.finRange 4).foldl (fun (v : Nat) (g : Fin 4) => v + (b2n (!s.otpBlank key g.val)) <<< g.val) 0
  setBits (setBits (setBits (s.rg rOtpStat) 8 4 (used false)) 12 4 (used true)) 24 8 s.otpRevoke

/-- The loaded generations (CFG_GEN, KEY_GEN). -/
def State.cfgGen (s : State) : Nat := s.fld rOtpStat 0 3
def State.keyGen (s : State) : Nat := s.fld rOtpStat 4 3

/-- Byte i of the loaded configuration record; in the factory default every pin has the pattern HIGHZ, and all else is 0. -/
def State.cfgByte (s : State) (i : Nat) : Byte :=
  if s.cfgGen < 4 then s.otpByte (otpAt false s.cfgGen + i)
  else if 32 ≤ i ∧ i < 56 then 0xAA else 0

/-- HMAC key i of the loaded key block, if it is present (KEYS). -/
def State.hmacKey (s : State) (i : Nat) : Option (List Byte) :=
  if s.keyGen < 4 ∧ i < 8 ∧ (s.otpByte (otpAt true s.keyGen + 8)).getLsbD i then
    some ((List.range 32).map (fun j => s.otpByte (otpAt true s.keyGen + 80 + 32 * i + j)))
  else none

/-- KEYS of the loaded key block is not zero (R400). -/
def State.keysLoaded (s : State) : Bool := decide (s.keyGen < 4) && decide (s.otpByte (otpAt true s.keyGen + 8) ≠ 0)

/-- The manifest public key, X then Y, of the loaded key block. -/
def State.manifestKey (s : State) : Option (List Byte) :=
  if s.keyGen < 4 then some ((List.range 64).map (fun j => s.otpByte (otpAt true s.keyGen + 16 + j))) else none

/-- The reset contents of a word of a set: PTn_SAFE comes from the configuration record (R144, Table 69). -/
def State.setDflt (s : State) (key : Nat) : Word :=
  if key / 0x10000 = 5 ∧ key % 64 = 0x14 ∧ key % 0x10000 < 0xC00 then
    let n := key % 0x10000 / 64
    BitVec.ofNat 32 (bits ((s.cfgByte (32 + n / 2)).setWidth 32) (4 * (n % 2)) 4)
  else setReset key

/-- A whole set at its reset contents: only the safe-hold patterns differ from `setReset`. -/
def State.freshSet (s : State) : Sparse Word :=
  (List.range 48).foldl (fun l n => let k := 5 * 0x10000 + 64 * n + 0x14
    setPut l k (s.setDflt k)) []

/-- Step 1 of BOOT (R369): the generations are chosen, rejected ones are reported, and the registers that the configuration
record resets take their values. No comparator stays enabled (R114). -/
def State.otpLoad (s : State) : State :=
  let bad := fun (key : Bool) => (List.finRange 4).filter (fun g => s.otpBad key g)
  let field := fun (l : List (Fin 4)) => l.foldl (fun v g => v + 2 ^ g.val) 0
  let w := s.otpPick false + s.otpPick true <<< 4 + field (bad false) <<< 16 + field (bad true) <<< 20
  let s1 := s.setRg rOtpStat (BitVec.ofNat 32 w)
  let s2 := ((bad false) ++ (bad true)).foldl (fun t _ => t.fire 949) s1
  let s3 := s2.setFld rTbCtl 0 4 ((s2.cfgByte 12).toNat % 16)
  let s4 := s3.setFld rTickCtl 0 4 ((s3.cfgByte 16).toNat % 16)
  (List.finRange 32).foldl State.cmpStop { s4 with active := s4.freshSet, shadow := s4.freshSet, otpLoaded := true }

/-! ## Commands (R370, R371) -/

/-- OTP_RES codes: 0 OK, 1 BAD_CRC, 2 NO_GEN, 3 STATE, 4 PROG_FAIL. -/
def State.otpResult (s : State) (code : Nat) : State :=
  ({ s with otpOp := none }).setRg rOtpRes (BitVec.ofNat 32 (code <<< 4))

def State.otpBusy (s : State) : Bool := s.otpOp.isSome

/-- The lowest blank generation of an area. -/
def State.otpFree (s : State) (key : Bool) : Option (Fin 4) := (List.finRange 4).find? (fun g => s.otpBlank key g)

/-- COMMISSION or DIAGNOSE. -/
def State.otpMode (s : State) : Bool := s.mode == 2 || s.mode == 5

/-- What BURN_GEN of an image meets (R370): the code of the first check that fails, or the generation it writes. -/
def State.burnCheck (s : State) (key : Bool) (img : List Byte) : Except Nat (Fin 4) :=
  if !otpValid key img then .error 1
  else match s.otpFree key with
    | none => .error 2
    | some g => if leAt img 4 1 ≠ g.val then .error 1 else if !s.otpMode then .error 3 else .ok g

/-- Generation g is valid and not revoked: what R371 asks for, GEN not among it. -/
def State.otpLives (s : State) (key : Bool) (g : Fin 4) : Bool :=
  !s.otpBlank key g && !s.otpRevoked key g && otpValid key (s.otpGen key g)

/-- BURN_GEN of an image. -/
def State.otpBurn (s : State) (key : Bool) (img : List Byte) : State :=
  if s.otpBusy then s
  else match s.burnCheck key img with
    | .error c => s.otpResult c
    | .ok g => ({ s with otpOp := some (.burn key g img) }).setFld rOtpRes 0 1 1

/-- REVOKE of a generation (R371): refused outside its modes and where no valid, unrevoked generation would be left. -/
def State.revokeAllowed (s : State) (key : Bool) (g : Fin 4) : Bool :=
  s.otpMode && (List.finRange 4).any (fun h => h != g && s.otpLives key h)
def State.otpRevokeCmd (s : State) (key : Bool) (g : Fin 4) : State :=
  if s.otpBusy then s
  else if s.revokeAllowed key g then ({ s with otpOp := some (.revoke (revokeBit key g)) }).setFld rOtpRes 0 1 1
  else s.otpResult 3

/-- A write of OTP_CMD: code 3 of OP is undefined and takes 0. -/
def State.otpCmdWrite (s : State) (v : Word) : State :=
  let key := bit v 2
  match bits v 0 2 with
  | 1 => s.otpBurn key (s.memBytes (s.rg rOtpSrc).toNat (otpLen key))
  | 2 => s.otpRevokeCmd key ⟨bits v 4 2, by unfold bits; omega⟩
  | _ => s

/-- A bit of the revoke word programmed. -/
def State.otpSetRevoke (s : State) (b : Fin 8) : State :=
  { s with otp := sput 0 s.otp 0x1800 (s.otpByte 0x1800 ||| BitVec.ofNat 8 (2 ^ b.val)) }

/-- Bytes programmed into OTP from address a. -/
def otpPut (l : Sparse Byte) (a : Nat) : List Byte → Sparse Byte
  | [] => l
  | b :: bs => otpPut (sput 0 l a (sget 0 l a ||| b)) (a + 1) bs

/-- OTP_COMMAND_COMPLETE: a generation that fails its margin read holds bytes the spec leaves open, and is revoked. -/
def State.otpComplete (s : State) (verified : Bool) : State :=
  match s.otpOp with
  | none => s
  | some (.revoke b) => (s.otpSetRevoke b).otpResult 0
  | some (.burn key g img) =>
    if verified then ({ s with otp := otpPut s.otp (otpAt key g) img }.otpResult 0).endJob .burn 0 [BitVec.ofNat 8 g.val]
    else
      let junk := (List.range img.length).map (fun i => Config.freeByte (s.free + i))
      let t := { s with otp := otpPut s.otp (otpAt key g) junk, free := s.free + img.length }
      ((t.otpSetRevoke (revokeBit key g)).otpResult 4).endJob .burn 11 [BitVec.ofNat 8 g.val]

def execOtpCommandComplete (verified : Bool) (s : State) : Host.Outcome State Fault Refusal := .next (s.otpComplete verified)

end Sys2Proof.Machine
end

