-- ==== Sys2Proof/Machine/PinEngine.lean ====
section
/-! DEFINITION. PinEngine.lean: the pin engines, their FIFOs and flags, and the PIO pins (chapter 14). -/

namespace Sys2Proof.Machine

def State.pg (s : State) (g : Fin 8) : PeGroup := s.pes[g]
def State.setPg (s : State) (g : Fin 8) (p : PeGroup) : State := { s with pes := s.pes.set g p }
def State.eng (s : State) (g : Fin 8) (e : Fin 4) : PeEngine := (s.pg g).eng[e]
def State.setEng (s : State) (g : Fin 8) (e : Fin 4) (x : PeEngine) : State :=
  s.setPg g { s.pg g with eng := (s.pg g).eng.set e x }

/-- PE_CLKk of the active set: EN and DIV (R375, R376). -/
def State.peClk (s : State) (g : Fin 8) (e : Fin 4) : Word := s.act 9 (8 * (4 * g.val + e.val))
def State.peEn (s : State) (g : Fin 8) (e : Fin 4) : Bool := bit (s.peClk g e) 0 && s.domReady (68 + g.val)
def State.peDiv (s : State) (g : Fin 8) (e : Fin 4) : Nat := max 1 (bits (s.peClk g e) 16 16)

/-- An engine runs while its EN and its run latch are both 1 (R375). -/
def State.peRuns (s : State) (g : Fin 8) (e : Fin 4) : Bool := s.peEn g e && (s.eng g e).run

/-- Some engine of the group runs (R389). -/
def State.pgRuns (s : State) (g : Fin 8) : Bool := (List.finRange 4).any (fun e => s.peRuns g e)

def State.peCfg (s : State) (g : Fin 8) (e : Fin 4) : Word := s.rg (rEng g e 0x00)
def State.peBase (s : State) (g : Fin 8) (e : Fin 4) : Nat := bits (s.peCfg g e) 16 6
def State.peSpan (s : State) (g : Fin 8) (e : Fin 4) : Nat := bits (s.peCfg g e) 24 6

/-- A store address lies within the engine's window (R378). -/
def State.peInWindow (s : State) (g : Fin 8) (e : Fin 4) (a : Nat) : Bool :=
  decide (a < 48) && decide ((a + 48 - s.peBase g e) % 48 < s.peSpan g e)

/-- The value of lane i (R379). -/
def State.peLane (s : State) (g : Fin 8) (e : Fin 4) (i : Nat) : Bool :=
  s.pio.lane.getLsbD (bits (s.rg (rEng g e 0x18)) (8 * i) 5)
def State.peLanes (s : State) (g : Fin 8) (e : Fin 4) : Nat :=
  (List.range 4).foldl (fun v i => v + (b2n (s.peLane g e i)) <<< i) 0

/-- Engine e drives pin j of its group: the lowest engine with EN 1 that names the pin (R380). -/
def State.peDrives (s : State) (g : Fin 8) (e : Fin 4) (j : Nat) : Bool :=
  s.peEn g e && bit (s.peCfg g e) j &&
    !(List.finRange 4).any (fun f => decide (f.val < e.val) && s.peEn g f && bit (s.peCfg g f) j)

/-- Two engines of the group with EN 1 name one pin: PINCONF sets (R380). -/
def State.peConflict (s : State) (g : Fin 8) : State :=
  if (List.range 4).any (fun j => decide (1 < ((List.finRange 4).filter (fun e => s.peEn g e && bit (s.peCfg g e) j)).length))
  then s.hwFlag (rPg g 0x108) 9 else s

/-- Four bits under the pins that the engine drives: the others keep their value. -/
def State.peMerge (s : State) (g : Fin 8) (e : Fin 4) (old : BitVec 4) (v : Nat) : BitVec 4 :=
  BitVec.ofNat 4 ((List.range 4).foldl (fun w j => w + (b2n (if s.peDrives g e j then v.testBit j else old.getLsbD j)) <<< j) 0)

/-- The engine starts: divider at 0, directions from DIRINIT (R379, R386). -/
def State.peStart (s : State) (g : Fin 8) (e : Fin 4) : State :=
  let x := s.eng g e
  s.setEng g e { x with
    div := 0, delay := 0, stall := false, rises := 0, falls := 0
    dir := BitVec.ofNat 4 ((List.range 4).foldl (fun w j => w + (b2n
      (if bit (s.peCfg g e) j then bit (s.peCfg g e) (4 + j) else x.dir.getLsbD j)) <<< j) 0) }

/-- The engine stops: a stalled instruction or a delay is abandoned (R386). -/
def PeEngine.stop (x : PeEngine) : PeEngine := { x with run := false, stall := false, delay := 0, full := false, ahead := false }

/-- CLEAR (R386). A word that enters the output FIFO at the same edge enters after it. -/
def PeEngine.clear (x : PeEngine) : PeEngine :=
  { x with sr := 0, fc := 0, ct := 0, inq := [], outq := [], push := none, last := 0, rises := 0, falls := 0 }

/-! ## Instructions (R381) -/

/-- Whether a word is a defined instruction for a window of span instructions. -/
def peDefined (w : Nat) (span : Nat) : Bool :=
  let op := w / 0x1000
  let o := w % 0x100
  let hi := o / 0x40
  let lo := o % 0x40
  match op with
  | 1 => if hi < 2 then decide (lo < 16) else if hi = 2 then true else decide (lo = 0)
  | 2 => decide (lo < 32) && (decide (2 ≤ hi) || decide (lo < 4))
  | 3 => decide (lo < 32) && (decide (1 ≤ hi) || decide (lo < 4))
  | 4 => decide (lo = 0)
  | 5 => decide (o % 0x80 = 0)
  | 6 => decide (o / 8 % 2 = 0) && decide (o % 8 < 6)
  | 7 => decide (o / 8 % 2 = 0) && (if o / 0x20 % 4 = 1 then true else
      decide (o / 0x20 % 4 ≠ 3) && decide (o / 16 % 2 = 0) && decide (o % 8 < 4))
  | 8 => decide (lo < span)
  | 9 => decide (hi < 3) && decide (o / 8 % 8 = 0)
  | 10 => decide (o = 0)
  | _ => false

/-- n bits shifted out of SR (R382): the bits, first one first, and what remains. -/
def peShiftOut (lsb : Bool) : Nat → Word → List Bool × Word
  | 0, sr => ([], sr)
  | n + 1, sr =>
    let b := if lsb then sr.getLsbD 0 else sr.getLsbD 31
    let r := peShiftOut lsb n (if lsb then sr >>> 1 else sr <<< 1)
    (b :: r.1, r.2)

/-- Bits shifted into SR, first one first. -/
def peShiftIn (lsb : Bool) (sr : Word) (bs : List Bool) : Word :=
  bs.foldl (fun w b =>
    if lsb then (w >>> 1) ||| (if b then 0x80000000 else 0) else (w <<< 1) ||| (if b then 1 else 0)) sr

/-- Bits as a number, the first the most significant. -/
def msbNat (bs : List Bool) : Nat := bs.foldl (fun v b => 2 * v + b2n b) 0

/-- Bits as a number, the first the least significant. -/
def lsbNat : List Bool → Nat
  | [] => 0
  | b :: bs => b2n b + 2 * lsbNat bs

/-- The n lowest bits of a number, the most significant of them first. -/
def lowBits (v n : Nat) : List Bool := ((List.range n).reverse).map (fun i => v.testBit i)

/-- Byte 0 exchanged with byte 3, byte 1 with byte 2. -/
def byteRev (w : Word) : Word := leWord (wordBytes w).reverse

/-- How an attempt to execute an instruction ends. -/
inductive PeRes where
  | done (s : State)
  | jump (s : State) (target : Nat)
  | stall
  | full
  deriving DecidableEq, Repr

/-- PINS, DIRS, CT written with a number (SET, OUT, MOV). -/
def State.pePut (s : State) (g : Fin 8) (e : Fin 4) (dest v : Nat) : State :=
  let x := s.eng g e
  match dest with
  | 0 => s.setEng g e { x with lvl := s.peMerge g e x.lvl v }
  | 1 => s.setEng g e { x with dir := s.peMerge g e x.dir v }
  | _ => s.setEng g e { x with ct := BitVec.ofNat 16 v }

/-- SET. -/
def State.peOpSet (s : State) (g : Fin 8) (e : Fin 4) (o : Nat) : PeRes :=
  if o / 0x40 = 3 then .done (s.pePut g e 2 (bits (s.rg (rEng g e 0x1C)) 0 16)) else .done (s.pePut g e (o / 0x40) (o % 0x40))

/-- OUT (R382). -/
def State.peOpOut (s : State) (g : Fin 8) (e : Fin 4) (o : Nat) : PeRes :=
  let x := s.eng g e
  let n := o % 32 + 1
  let r := peShiftOut (bit (s.peCfg g e) 8) n x.sr
  let s1 := s.setEng g e { x with sr := r.2, fc := x.fc - n }
  match o / 0x40 with
  | 0 => .done (s1.pePut g e 0 (lsbNat r.1 + (x.lvl.toNat >>> n) <<< n))
  | 1 => .done (s1.pePut g e 1 (lsbNat r.1 + (x.dir.toNat >>> n) <<< n))
  | 2 => .done (s1.pePut g e 2 (msbNat r.1))
  | _ => .done s1

/-- IN (R382, R98). -/
def State.peOpIn (s : State) (g : Fin 8) (e : Fin 4) (o : Nat) : PeRes :=
  let x := s.eng g e
  let n := o % 32 + 1
  let bs := match o / 0x40 with
    | 0 => (List.range n).map (fun i => s.peLane g e i)
    | 1 => lowBits x.ct.toNat n
    | 2 => List.replicate n false
    | _ => List.replicate n true
  if s.sdOn g && decide (bits (s.sdCtl g) 1 2 = e.val) then .done (bs.foldl (fun t b => t.sdShift g b) s)
  else .done (s.setEng g e { x with sr := peShiftIn (bit (s.peCfg g e) 8) x.sr bs, fc := min 32 (x.fc + n) })

/-- Source 672 + 12g + 3e + k. -/
def peSource (g : Fin 8) (e : Fin 4) (k : Nat) : Nat := 672 + 12 * g.val + 3 * e.val + k

/-- SR is taken for the input FIFO. -/
def PeEngine.pushOut (x : PeEngine) (o : Nat) : PeEngine :=
  if o / 0x40 % 2 = 1 then { x with push := some x.sr } else { x with push := some x.sr, sr := 0, fc := 0 }

/-- The word of a PUSH enters the input FIFO, with the source of the threshold, or is dropped where the FIFO is full (R383, R384). -/
def State.pePushIn (s : State) (g : Fin 8) (e : Fin 4) : State :=
  let x := s.eng g e
  match x.push with
  | none => s
  | some w =>
    if x.inq.length < 4 then
      let s1 := s.setEng g e { x with inq := x.inq ++ [w], push := none }
      if bits (s.peCfg g e) 12 3 ≤ x.inq.length + 1 then s1.fire (peSource g e 1) else s1
    else ((s.setEng g e { x with push := none }).count (rEng g e 0x14) 0 16 1).fire (peSource g e 2)

/-- PUSH (R383): a blocking one needs room. The word enters after the removals of its edge (R384). -/
def State.peOpPush (s0 : State) (g : Fin 8) (e : Fin 4) (o : Nat) : PeRes :=
  let s := s0.pePushIn g e
  let x := s.eng g e
  if s.sdOn g && decide (bits (s.sdCtl g) 1 2 = e.val) then .done s
  else if x.inq.length < 4 ∨ o / 0x80 = 0 then .done (s.setEng g e (x.pushOut o))
  else .full

/-- PULL (R383). -/
def State.peOpPull (s : State) (g : Fin 8) (e : Fin 4) (o : Nat) : PeRes :=
  let x := s.eng g e
  match x.outq with
  | w :: r => .done (s.setEng g e { x with sr := w, fc := 32, outq := r, last := w })
  | [] =>
    if o / 0x80 = 1 then .stall
    else .done (((s.setEng g e { x with sr := x.last, fc := 32 }).hwFlag (rEng g e 0x10) 8).fire (peSource g e 2))

/-- MOV. -/
def State.peOpMov (s : State) (g : Fin 8) (e : Fin 4) (o : Nat) : PeRes :=
  let x := s.eng g e
  let v : Word := match o % 8 with
    | 0 => BitVec.ofNat 32 (s.peLanes g e)
    | 1 => x.ct.setWidth 32
    | 2 => x.sr
    | 3 => s.rg (rEng g e 0x1C)
    | 4 => BitVec.ofNat 32 x.fc
    | _ => 0
  let r : Word := match o / 16 % 4 with
    | 0 => v
    | 1 => ~~~ v
    | 2 => byteRev v
    | _ => BitVec.ofNat 32 ((onesBelow v.toNat 32).length % 2)
  match o / 0x40 with
  | 3 => .done (s.setEng g e { x with sr := r, fc := 32 })
  | 2 => .done (s.pePut g e 2 r.toNat)
  | d => .done (s.pePut g e d (r.toNat % 16))

/-- Flags of a group at a tb edge: a set wins over a clear (R385). -/
def State.pgFlagSet (s : State) (g : Fin 8) (m : BitVec 8) : State :=
  let p := s.pg g
  s.setPg g { p with flags := p.flags ||| m, setF := p.setF ||| m }
def State.pgFlagClr (s : State) (g : Fin 8) (m : BitVec 8) : State :=
  let p := s.pg g
  s.setPg g { p with flags := p.flags &&& ~~~ (m &&& ~~~ p.setF) }

/-- WAIT: `old` are the flags as held before the edge, `met` those that a set and a clear of this edge meet at, which a WAIT finds
set (R385). -/
def State.peOpWait (s : State) (g : Fin 8) (e : Fin 4) (old met : BitVec 8) (o : Nat) : PeRes :=
  let x := s.eng g e
  let pol := o / 0x80 = 1
  let i := o % 8
  match o / 0x20 % 4 with
  | 0 => if s.peLane g e i = decide pol then .done s else .stall
  | 1 =>
    if old.getLsbD i = decide pol ∨ (pol ∧ met.getLsbD i = true) then
      .done (if o / 16 % 2 = 1 ∧ pol then s.pgFlagClr g (BitVec.ofNat 8 (2 ^ i)) else s)
    else .stall
  | _ => if (if pol then x.rises else x.falls).getLsbD i then .done s else .stall

/-- JMP (R378). -/
def State.peOpJmp (s : State) (g : Fin 8) (e : Fin 4) (o : Nat) : PeRes :=
  let x := s.eng g e
  match o / 0x40 with
  | 0 => .jump s (o % 0x40)
  | 1 => if x.ct = 0 then .done s else .jump (s.setEng g e { x with ct := x.ct - 1 }) (o % 0x40)
  | 2 => if s.peLane g e 0 then .jump s (o % 0x40) else .done s
  | _ => if x.outq.isEmpty then .done s else .jump s (o % 0x40)

/-- FLAG (R385). -/
def State.peOpFlag (s : State) (g : Fin 8) (_ : Fin 4) (old : BitVec 8) (o : Nat) : PeRes :=
  let m : BitVec 8 := BitVec.ofNat 8 (2 ^ (o % 8))
  match o / 0x40 with
  | 0 => .done (s.pgFlagSet g m)
  | 1 => .done (s.pgFlagClr g m)
  | _ => .done (if old.getLsbD (o % 8) then s.pgFlagClr g m else s.pgFlagSet g m)

/-- EVT. -/
def State.peOpEvt (s : State) (g : Fin 8) (e : Fin 4) (_ : Nat) : PeRes := .done (s.fire (peSource g e 0))

/-- The instruction at pc. -/
def State.peWord (s : State) (g : Fin 8) (e : Fin 4) : Nat := bits (s.rg (rPg g (4 * (s.eng g e).pc))) 0 16

/-- The attempt of a defined instruction: its opcode chooses the operation. -/
def State.peTry (s : State) (g : Fin 8) (e : Fin 4) (old met : BitVec 8) (w : Nat) : PeRes :=
  let o := w % 0x100
  match w / 0x1000 with
  | 1 => s.peOpSet g e o
  | 2 => s.peOpOut g e o
  | 3 => s.peOpIn g e o
  | 4 => s.peOpPush g e o
  | 5 => s.peOpPull g e o
  | 6 => s.peOpMov g e o
  | 7 => s.peOpWait g e old met o
  | 8 => s.peOpJmp g e o
  | 9 => s.peOpFlag g e old o
  | _ => s.peOpEvt g e o

/-- The engine's pc after an instruction that is no taken jump (R378). -/
def State.peNext (s : State) (g : Fin 8) (e : Fin 4) : Nat :=
  let pc := (s.eng g e).pc
  if pc = (s.peBase g e + s.peSpan g e + 47) % 48 then s.peBase g e else (pc + 1) % 48

/-- An instruction that is no taken jump completes: pc moves on and the delay begins (R377, R378). -/
def State.peComplete (s : State) (g : Fin 8) (e : Fin 4) : State :=
  s.setEng g e { s.eng g e with stall := false, full := false, pc := s.peNext g e, delay := s.peWord g e / 0x100 % 16 }

/-- The end of a cycle: the word of a PUSH enters, and a blocking PUSH that found the FIFO full, and no read made room for it,
stalls (R383, R384). -/
def State.peFullEnd (s : State) (g : Fin 8) (e : Fin 4) : State :=
  let t := s.pePushIn g e
  if (t.eng g e).full then t.setEng g e { t.eng g e with full := false, stall := true } else t

/-- An instruction at an engine edge (R377, R381). -/
def State.peExec (s : State) (g : Fin 8) (e : Fin 4) (old met : BitVec 8) : State :=
  let w := s.peWord g e
  let d := w / 0x100 % 16
  if !peDefined w (s.peSpan g e) then
    (s.setEng g e (s.eng g e).stop).hwFlag (rEng g e 0x10) 11
  else
    match s.peTry g e old met w with
    | .stall => s.setEng g e { s.eng g e with stall := true }
    | .full => s.setEng g e { s.eng g e with full := true }
    | .done t => t.peComplete g e
    | .jump t k => t.setEng g e { t.eng g e with stall := false, pc := (s.peBase g e + k) % 48, delay := d }

/-- Engine e at a tb edge: lane edges are latched, an engine edge executes or counts the delay, the divider moves on, and
words written to ENGe_TX enter (R376, R384). -/
def State.peTick (s : State) (g : Fin 8) (e : Fin 4) (old met : BitVec 8) (before : BitVec 32) : State :=
  let x := s.eng g e
  if !s.peRuns g e && x.txIn.isEmpty then s
  else
    let lanes : BitVec 4 := BitVec.ofNat 4 (s.peLanes g e)
    let was : BitVec 4 := BitVec.ofNat 4 ((List.range 4).foldl (fun v i =>
      v + (b2n (before.getLsbD (bits (s.rg (rEng g e 0x18)) (8 * i) 5))) <<< i) 0)
    let s1 := s.setEng g e { x with rises := x.rises ||| (lanes &&& ~~~ was), falls := x.falls ||| (was &&& ~~~ lanes) }
    let s2 :=
      if !s.peRuns g e then s1
      else if x.div ≠ 0 then s1.setEng g e { s1.eng g e with div := (x.div + 1) % s.peDiv g e }
      -- what a command has executed ahead of this edge has not seen the lane edges that it latches
      else if x.ahead then s1.setEng g e { s1.eng g e with ahead := false, div := 1 % s.peDiv g e }
      else
        let t := if 0 < x.delay then s1.setEng g e { s1.eng g e with delay := x.delay - 1 } else s1.peExec g e old met
        t.setEng g e { t.eng g e with div := 1 % s.peDiv g e, rises := 0, falls := 0 }
    let y := s2.eng g e
    if y.txIn.isEmpty then s2
    else
      let room := 4 - y.outq.length
      let s3 := s2.setEng g e { y with outq := y.outq ++ y.txIn.take room, txIn := [] }
      if room < y.txIn.length then s3.hwFlag (rEng g e 0x10) 9 else s3

/-- The levels and directions that the device shows on the PIO pins (R380). -/
def State.pioShown (s : State) : BitVec 32 × BitVec 32 :=
  let pins := (List.range 32).map (fun p =>
    let g : Fin 8 := ⟨p / 4 % 8, Nat.mod_lt _ (by decide)⟩
    if !s.domReady (68 + g.val) then (false, false)
    else match (List.finRange 4).find? (fun e => s.peDrives g e (p % 4)) with
      | some e => ((s.eng g e).lvl.getLsbD (p % 4), (s.eng g e).dir.getLsbD (p % 4))
      | none => (bit (s.rg (rPio 4)) p, bit (s.rg (rPio 8)) p))
  (BitVec.ofNat 32 (lsbNat (pins.map (·.1))), BitVec.ofNat 32 (lsbNat (pins.map (·.2))))

/-- The pins at a tb edge: the synchroniser samples the level of each pin, then the pins show what was set before. -/
def State.pioEdge (s : State) : State :=
  let p := s.pio
  let pin := (p.level &&& ~~~ p.dir) ||| (p.out &&& p.dir)
  let sh := s.pioShown
  -- general timers capture at the edge that first samples a new level (R153)
  let new := pin ^^^ p.sync1
  let s1 := if new = 0 then s else (List.range 32).foldl (fun (t : State) m =>
    if new.getLsbD m then t.gtPinSample m (pin.getLsbD m) else t) s
  { s1 with pio := { p with lane := p.sync2, sync2 := p.sync1, sync1 := pin, out := sh.1, dir := sh.2 } }

/-- The fields of PGg_CTL act on the engines they name (R386). -/
def State.pgCtl (s : State) (g : Fin 8) (go stop clear restart : BitVec 4) : State :=
  (List.finRange 4).foldl (fun t e =>
    let x := t.eng g e
    let x1 := if stop.getLsbD e then x.stop else x
    let x2 := if clear.getLsbD e then x1.clear else x1
    let t1 := t.setEng g e x2
    let t2 := if clear.getLsbD e then t1.setFlag (rEng g e 0x10) 8 false else t1
    let t3 := if go.getLsbD e && !stop.getLsbD e then
        let u := t2.setEng g e { t2.eng g e with run := true }
        if u.peEn g e then u.peStart g e else u
      else t2
    if restart.getLsbD e && t3.peRuns g e then t3.setEng g e { t3.eng g e with div := 0 } else t3) s

/-- What was written to PGg_CTL in the cycle before acts at this edge, before any engine edge, write by write (R386, R9). -/
def State.pgCtlEdge (s : State) (g : Fin 8) : State :=
  (s.pg g).ctl.foldl (fun t e => t.pgCtl g (e.2.extractLsb' 0 4) (e.2.extractLsb' 4 4) (e.2.extractLsb' 8 4) (e.2.extractLsb' 12 4))
    (s.setPg g { s.pg g with ctl := [] })

/-- The inputs active at this edge, `m`, and what was written to PGg_FLAGS act on the flags; a set wins over a clear (R385). -/
def State.pgFlagsIn (s : State) (g : Fin 8) (m : BitVec 8) : State :=
  let p := s.pg g
  let f := p.setF ||| m ||| p.setIn
  s.setPg g { p with setIn := 0, clrIn := 0, flags := (p.flags ||| m ||| p.setIn) &&& ~~~ (p.clrIn &&& ~~~ f), setF := f }

/-- The flags that the engines set and clear at the engine edges of this tb edge, which sees the flags `old` (R385). -/
def State.peFlagActs (s : State) (g : Fin 8) (old : BitVec 8) : BitVec 8 × BitVec 8 :=
  (List.finRange 4).foldl (fun (r : BitVec 8 × BitVec 8) e =>
    let x := s.eng g e
    let w := s.peWord g e
    let o := w % 0x100
    let m : BitVec 8 := BitVec.ofNat 8 (2 ^ (o % 8))
    let here := old.getLsbD (o % 8)
    if !s.peRuns g e || decide (x.div ≠ 0) || x.ahead || decide (x.delay ≠ 0) || !peDefined w (s.peSpan g e) then r
    else if w / 0x1000 = 9 then
      if o / 0x40 = 0 ∨ (o / 0x40 = 2 ∧ here = false) then (r.1 ||| m, r.2) else (r.1, r.2 ||| m)
    else if w / 0x1000 = 7 ∧ o / 0x20 = 5 ∧ o / 16 % 2 = 1 ∧ here = true then (r.1, r.2 ||| m)
    else r) (0, 0)

/-- Group g at a tb edge; `cons` are the consumer inputs active at it (flags 248 + 8g + f). -/
def State.pgEdge (s : State) (g : Fin 8) (before : BitVec 32) (cons : List Nat) : State :=
  let s := s.pgCtlEdge g
  let p := s.pg g
  let old := p.flags
  -- a group whose domain is off ignores its inputs (R312)
  let m : BitVec 8 := if !s.domReady (68 + g.val) then 0 else BitVec.ofNat 8 ((List.range 8).foldl (fun v f =>
    v + (b2n (cons.contains (248 + 8 * g.val + f))) <<< f) 0)
  let runs := (List.finRange 4).any (fun e => (s.eng g e).run || !(s.eng g e).txIn.isEmpty)
  if m = 0 ∧ p.setIn = 0 ∧ p.clrIn = 0 ∧ p.setF = 0 ∧ !runs then s
  else
    let acts := s.peFlagActs g old
    let s1 := s.pgFlagsIn g m
    -- an input that meets a set of PGg_FLAGS or of FLAG at the edge acts once (R313)
    let own := m &&& (p.setIn ||| acts.1)
    let s2 := (List.range 8).foldl (fun t f => if own.getLsbD f then
      t.hwFlag (rConsCoinc ((248 + 8 * g.val + f) / 32)) ((248 + 8 * g.val + f) % 32) else t) s1
    let s3 := (List.finRange 4).foldl (fun t e => t.peTick g e old ((m ||| p.setIn ||| acts.1) &&& (p.clrIn ||| acts.2)) before) s2
    s3.setPg g { s3.pg g with setF := 0 }

/-! ## Registers (R386, R389, R390) -/

/-- A write that R389 guards: refused while any engine of the group runs, and then PROG_LOCKED sets. The refusal is told
apart from the state it leaves. -/
def State.pgGuarded (s : State) (g : Fin 8) (f : State → State) : Except State State :=
  if s.pgRuns g then .error (s.hwFlag (rPg g 0x108) 8) else .ok (f s)

/-- A write to the program store or to a register of an engine that R389 guards. -/
def State.peConfig (s : State) (g : Fin 8) (off : Nat) (v : Word) : Except State State :=
  s.pgGuarded g (fun s =>
    if 0x200 ≤ off ∧ off % 0x40 = 4 then
      let e : Fin 4 := ⟨(off - 0x200) / 0x40 % 4, Nat.mod_lt _ (by decide)⟩
      s.setEng g e { s.eng g e with pc := if s.peInWindow g e (bits v 0 6) then bits v 0 6 else s.peBase g e }
    else
      let t := s.writeRg false (rPg g off) v
      if 0x200 ≤ off ∧ off % 0x40 = 0 then
        -- pc always lies within the window (R378)
        let e : Fin 4 := ⟨(off - 0x200) / 0x40 % 4, Nat.mod_lt _ (by decide)⟩
        let u := if t.peInWindow g e (t.eng g e).pc then t else t.setEng g e { t.eng g e with pc := t.peBase g e }
        u.peConflict g
      else t)

/-- A write by master id to a register of group g at an offset; an error carries the state that a refusal leaves. What is written to
PGg_CTL and PGg_FLAGS acts at the next edge (R386; for the flags DEDUCED from the convention that a write acts after the edge that
samples it, log entry 41). -/
def State.pgWrite (s : State) (id : Nat) (g : Fin 8) (off : Nat) (v : Word) : Except State State :=
  let p := s.pg g
  if off < 0xC0 then s.peConfig g off v
  else if off = 0x100 then .ok (s.setPg g { p with
    ctl := p.ctl.filter (fun e => decide (e.1 ≤ id)) ++ [(id, v.setWidth 16)] ++ p.ctl.filter (fun e => decide (id < e.1)) })
  else if off = 0x104 then .ok (s.setPg g { p with
    setIn := p.setIn ||| BitVec.ofNat 8 (bits v 0 8), clrIn := p.clrIn ||| BitVec.ofNat 8 (bits v 8 8) })
  else if 0x200 ≤ off ∧ off < 0x300 then
    let e : Fin 4 := ⟨(off - 0x200) / 0x40 % 4, Nat.mod_lt _ (by decide)⟩
    match off % 0x40 with
    | 0x08 => .ok (s.setEng g e { s.eng g e with txIn := (s.eng g e).txIn ++ [v] })
    | 0x10 => .ok (s.writeRg false (rPg g off) v)
    | 0x14 => .ok (if bit v 31 then s.setRg (rPg g off) 0 else s)
    | 0x00 | 0x04 | 0x18 | 0x1C => s.peConfig g off v
    | _ => .ok s
  else .ok (s.writeRg false (rPg g off) v)

/-- What a register of group g reads as; a read of ENGe_RX removes the oldest entry (R384). -/
def State.pgRead (s : State) (g : Fin 8) (off : Nat) : Word × State :=
  let field := fun (f : Fin 4 → Bool) => (List.finRange 4).foldl (fun v e => v + (b2n (f e)) <<< e.val) 0
  if off = 0x104 then ((s.pg g).flags.setWidth 32, s)
  else if off = 0x108 then
    (setBits (setBits (s.rg (rPg g off)) 0 4 (field (fun e => s.peRuns g e))) 4 4
      (field (fun e => s.peRuns g e && (s.eng g e).stall)), s)
  else if 0x200 ≤ off ∧ off < 0x300 then
    let e : Fin 4 := ⟨(off - 0x200) / 0x40 % 4, Nat.mod_lt _ (by decide)⟩
    let x := s.eng g e
    match off % 0x40 with
    | 0x04 => (BitVec.ofNat 32 x.pc, s)
    | 0x08 => (0, s)
    | 0x0C => match x.inq with
      | w :: r =>
        let t := s.setEng g e { x with inq := r }
        -- a PUSH of the same edge finds the room that the read makes (R384)
        (w, if x.full then
          (t.setEng g e ((t.eng g e).pushOut (t.peWord g e % 0x100))).peComplete g e else t)
      | [] => (0, s.hwFlag (rEng g e 0x10) 10)
    | 0x10 => (setBits (setBits (setBits (setBits (s.rg (rPg g off)) 0 3 x.outq.length) 4 3 (min 4 (x.inq.length + b2n x.push.isSome))) 16 6 x.fc)
        24 4 (s.peLanes g e), s)
    | 0x20 => (x.ct.setWidth 32, s)
    | 0x24 => (x.sr, s)
    | _ => (s.rg (rPg g off), s)
  else (s.rg (rPg g off), s)

/-! ## The rows of this chapter -/

/-- The instruction of the engine edge that is next, of the given opcode, executes: the divider is at 0 and no delay is left (R376,
R377). The tb edge that follows does not execute it again, but for one that stalls (log entry 41). -/
def State.peEvent (s : State) (g : Fin 8) (e : Fin 4) (op : Nat) : State :=
  let x := s.eng g e
  if s.peRuns g e && decide (x.div = 0) && decide (x.delay = 0) && !x.ahead && decide (s.peWord g e / 0x1000 = op) then
    let t := s.peExec g e (s.pg g).flags 0
    let y := t.eng g e
    if y.stall then t else t.setEng g e { y with rises := 0, falls := 0, ahead := y.run && !y.full }
  else s

def execPeSet (g : Fin 8) (e : Fin 4) (s : State) : Host.Outcome State Fault Refusal := .next (s.peEvent g e 1)
def execPeOut (g : Fin 8) (e : Fin 4) (s : State) : Host.Outcome State Fault Refusal := .next (s.peEvent g e 2)
def execPeIn (g : Fin 8) (e : Fin 4) (s : State) : Host.Outcome State Fault Refusal := .next (s.peEvent g e 3)
def execPePush (g : Fin 8) (e : Fin 4) (s : State) : Host.Outcome State Fault Refusal := .next (s.peEvent g e 4)
def execPePull (g : Fin 8) (e : Fin 4) (s : State) : Host.Outcome State Fault Refusal := .next (s.peEvent g e 5)
def execPeMov (g : Fin 8) (e : Fin 4) (s : State) : Host.Outcome State Fault Refusal := .next (s.peEvent g e 6)
def execPeWait (g : Fin 8) (e : Fin 4) (s : State) : Host.Outcome State Fault Refusal := .next (s.peEvent g e 7)
def execPeJmp (g : Fin 8) (e : Fin 4) (s : State) : Host.Outcome State Fault Refusal := .next (s.peEvent g e 8)
def execPeFlag (g : Fin 8) (e : Fin 4) (s : State) : Host.Outcome State Fault Refusal := .next (s.peEvent g e 9)
def execPeEvt (g : Fin 8) (e : Fin 4) (s : State) : Host.Outcome State Fault Refusal := .next (s.peEvent g e 10)

/-- PIO_PIN_CHANGE (R379): the outside drives pin p. -/
def execPioPinChange (p : Fin 32) (high : Bool) (s : State) : Host.Outcome State Fault Refusal :=
  .next { s with pio := { s.pio with level := BitVec.ofNat 32 (setBit s.pio.level p high).toNat } }

end Sys2Proof.Machine
end

