-- ==== Sys2Proof/Machine/Frame.lean ====
section
/-! DEFINITION. Frame.lean: the timebase, the frame tick, overruns, the swap of the configuration sets and the image that
loads the shadow set (chapter 2). -/

namespace Sys2Proof.Machine

/-! ## Timebase (R42 to R44, R482) -/

/-- A write of TB_CTL (R482): a change of reference takes the PLL into holdover until it locks. -/
def State.tbCtlWrite (s : State) (v : Word) : State :=
  let t := s.writeRg false rTbCtl v
  if t.fld rTbCtl 0 4 = s.fld rTbCtl 0 4 then s else (t.setFlag rTbStat 0 false).setFlag rTbStat 1 true

/-- The PLL locks. -/
def State.tbLock (s : State) : State := (s.setFlag rTbStat 0 true).setFlag rTbStat 1 false

/-- REFERENCE_FAIL (R44, R482): the reference that TB_CTL selects fails, or is found absent after a switch to it. -/
def execReferenceFail (s : State) : Host.Outcome State Fault Refusal :=
  .next (((s.setFlag rTbStat 0 false).setFlag rTbStat 1 true).hwFlag rTbStat 2)

/-! ## Overruns and tick losses (R48 to R52, R67, R293) -/

/-- The pair of core number n below 32. -/
def pairOf (n : Nat) : Fin 16 := ⟨n / 2 % 16, Nat.mod_lt _ (by decide)⟩

/-- The bit of core n has effect in the frame: of a pair in a paired mode only that of C(2k), which means the main role, and not
that of a spare that holds a role (R50, R275). -/
def State.frameBitCounts (s : State) (n : Nat) : Bool :=
  if n < 32 then !(decide (n % 2 = 1) && s.paired (pairOf n)) else s.role n == .solo

/-- The pair's stay in triage, copy or retirement, or a write that enters a paired mode, excuses its core from judgement (R278,
R293). -/
def State.frameExcused (s : State) (n : Nat) : Bool :=
  decide (n < 32) &&
    (let k := pairOf n
     let st := s.pairSt k
     (s.pair k).act.isSome || st == 1 || st == 2 || st == 3 || st == 6 || (st == 5 && (s.pair k).recovery))

/-- Core n is judged at a tick. -/
def State.judged (s : State) (n : Nat) : Bool :=
  s.bitOf (rFrameOwn 0) n && s.frameBitCounts n && !s.frameExcused n

/-- The policy of core n (R51). -/
def State.ovrPolicy (s : State) (n : Nat) : Nat := s.fld (rOvrPolicy (n / 16)) (2 * (n % 16)) 2

/-- A safe-hold request of owner n, which the pins show from the second edge after this one. -/
def State.holdNewFor (s : State) (n : Nat) : State := { s with holdNew := s.holdNew ||| BitVec.ofNat 37 (2 ^ n) }

/-- Core n overruns (R51). -/
def State.overrun (s : State) (n : Nat) : State :=
  let s1 := (((s.hwFlag (rOvrStat (n / 32)) (n % 32)).count (rOvrCnt n) 0 16 1).fire 982)
  match s.ovrPolicy n with
  | 0 => s1
  | 1 => s1.hwFlag (rIcCtl (s.holder n)) 8
  | _ => s1.holdNewFor n

/-- The frame runs: EN, in every mode but DORMANT and BOOT (R47). -/
def State.frameRuns (s : State) : Bool := s.flag rFrameCtl 24 && decide (2 ≤ s.mode)

/-- TICK_LOST (R67). ALIGNED clears with LOCKED and ERR keeps its last value, though R66 ties ALIGNED to |ERR| alone (DESIGN CHOICE,
log entry 43). -/
def State.tickLost (s : State) : State :=
  if s.fld rTickCtl 0 2 ≠ 2 then s
  else
    let s1 := ((s.hwFlag rTickStat 1).setFlag rTickStat 0 false).setFlag rTickStat 2 false
    let s2 := (List.range 36).foldl (fun t n =>
      if s.bitOf (rTloss 0) n then t.holdNewFor n else t) s1
    ({ s2 with lostAt := none, tickOut := true }.fire 983).shOccur 5

def execTickLost (s : State) : Host.Outcome State Fault Refusal := .next s.tickLost

/-- RELEASE (R52): the safe-hold requests of the named owners end. -/
def State.releaseHold (s : State) (m : BitVec 37) : State :=
  { s with holdOvr := s.holdOvr &&& ~~~ m, holdNew := s.holdNew &&& ~~~ m
           holdPins := s.holdPins.filter (fun e => !m.getLsbD e.2.val) }

/-- The pins that an overrun or a tick loss holds stay in safe-hold where the swap from s to t moves them from their owner (R52). -/
def State.holdKept (s t : State) : State :=
  if s.holdOvr = 0 then t
  else
    let moved := (List.finRange 96).filterMap (fun p => match s.pinOwner p.val with
      | some o => if h : o < 37 then
          (if s.holdOvr.getLsbD o && t.pinOwner p.val != some o && !s.holdPins.contains (p, ⟨o, h⟩) then some (p, (⟨o, h⟩ : Fin 37)) else none)
        else none
      | none => none)
    { t with holdPins := t.holdPins ++ moved }

/-! ## Loading a set (R10, R55, R303) -/

/-- The writable fields of a word of a set, by section and offset; what is not listed is reserved. A
dead time or PHASE above the largest value takes that value (R159). -/
def setDesc (key : Nat) : RegDesc :=
  let o := key % 0x10000
  let any : List Fld := [⟨0, 32, .rw, .any⟩]
  match key / 0x10000 with
  | 1 => ⟨0, any⟩
  | 2 => ⟨0, [⟨0, 8, .rw, .any⟩, ⟨15, 9, .rw, .any⟩, ⟨31, 1, .rw, .any⟩]⟩
  | 3 =>
    if o % 8 = 0 then ⟨0, if o < 128 then [⟨0, 10, .rw, .any⟩] else [⟨0, 18, .rw, .any⟩]⟩
    else ⟨0, if o < 128 then [] else [⟨0, 16, .rw, .any⟩]⟩
  | 4 =>
    match o % 16 with
    | 0 => ⟨0, any⟩
    | 4 => ⟨0, [⟨0, 16, .rw, .any⟩, ⟨16, 2, .rw, .codes 3 0⟩, ⟨18, 2, .rw, .codes 3 0⟩, ⟨20, 1, .rw, .any⟩,
        ⟨24, 8, .rw, .range 1 255⟩]⟩
    | _ => ⟨0, []⟩
  | 5 =>
    match o % 64 with
    | 0x00 => ⟨0, [⟨0, 2, .rw, .codes 3 0⟩, ⟨2, 2, .rw, .codes 3 0⟩, ⟨4, 4, .rw, .any⟩, ⟨8, 3, .rw, .codes 4 0⟩,
        ⟨11, 4, .rw, .any⟩, ⟨16, 2, .rw, .any⟩]⟩
    | 0x04 => ⟨0, [⟨0, 16, .rw, .any⟩]⟩
    | 0x08 => ⟨0, [⟨0, 32, .rw, .range 0 0x1FFFF⟩]⟩
    | 0x0C => ⟨0, [⟨0, 32, .rw, .range 0 0x1FFFF⟩]⟩
    | 0x10 => ⟨0, [⟨0, 16, .rw, .any⟩]⟩
    | 0x14 => ⟨0, [⟨0, 4, .rw, .any⟩]⟩
    | 0x18 => ⟨0, [⟨0, 32, .rw, .range 0 0x7FFFFFF⟩]⟩
    | _ => ⟨0, []⟩
  | 6 =>
    match o % 32 with
    | 0x00 => ⟨0, [⟨0, 2, .rw, .any⟩, ⟨2, 3, .rw, .codes 4 0⟩]⟩
    | 0x04 => ⟨0, (List.range 4).flatMap (fun i =>
        [⟨8 * i, 2, .rw, .codes 3 0⟩, ⟨8 * i + 2, 2, .rw, .any⟩, ⟨8 * i + 4, 2, .rw, .codes 3 0⟩])⟩
    | 0x08 => ⟨0, (List.range 4).map (fun i => ⟨8 * i, 5, .rw, .any⟩)⟩
    | 0x0C => ⟨0, any⟩
    | _ => ⟨0, []⟩
  | 7 =>
    if o < 0x400 then ⟨0, any⟩
    else match o % 16 with
      | 0 => ⟨0, [⟨0, 3, .rw, .any⟩, ⟨4, 9, .rw, .range 16 256⟩, ⟨16, 5, .rw, .any⟩, ⟨24, 1, .rw, .any⟩]⟩
      | 4 => ⟨0, [⟨0, 9, .rw, .range 0 255⟩, ⟨16, 1, .rw, .any⟩]⟩
      | _ => ⟨0, []⟩
  | 8 =>
    match o % 16 with
    | 0x0 => ⟨0, [⟨0, 10, .rw, .any⟩, ⟨16, 10, .rw, .any⟩]⟩
    | 0x4 => ⟨0, [⟨0, 5, .rw, .any⟩, ⟨8, 6, .rw, .range 0 47⟩, ⟨16, 12, .rw, .any⟩]⟩
    | 0x8 => ⟨0, [⟨0, 10, .rw, .any⟩, ⟨16, 10, .rw, .any⟩]⟩
    | _ => ⟨0, [⟨0, 16, .rw, .any⟩]⟩
  | 9 => if o % 8 = 0 then ⟨0, [⟨0, 1, .rw, .any⟩, ⟨16, 16, .rw, .range 1 65535⟩]⟩ else ⟨0, []⟩
  | 10 => ⟨0, [⟨0, 6, .rw, .codes 37 0⟩, ⟨8, 5, .rw, .any⟩, ⟨16, 1, .rw, .any⟩]⟩
  | 11 =>
    match o % 32 with
    | 0x00 => ⟨0, any⟩
    | 0x04 => ⟨0, any⟩
    | 0x08 => ⟨0, [⟨0, 16, .rw, .range 1 65535⟩, ⟨16, 2, .rw, .codes 3 0⟩]⟩
    | 0x0C => ⟨0, [⟨0, 4, .rw, .any⟩, ⟨16, 11, .rw, .range 0 1535⟩]⟩
    | 0x10 => ⟨0, [⟨0, 6, .rw, .codes 37 0⟩, ⟨6, 2, .rw, .any⟩]⟩
    | _ => ⟨0, []⟩
  | 12 => ⟨0, any⟩
  | _ => ⟨0, []⟩

/-- The word that a set holds when w is loaded: each field as R10 applies it, reserved bits zero. -/
def setNorm (key : Nat) (w : Word) : Word := (setDesc key).write false 0 w 0

/-- Decoded size of a section (Table 23). -/
def secSize : Nat → Nat
  | 1 => 32768
  | 2 => 1536
  | 3 => 2048
  | 4 => 2048
  | 5 => 3072
  | 6 => 1024
  | 7 => 1152
  | 8 => 512
  | 9 => 256
  | 10 => 4096
  | 11 => 49152
  | 12 => 888
  | _ => 0

/-- A word loaded into a set. -/
def setLoadWord (l : Sparse Word) (sec off : Nat) (w : Word) : Sparse Word :=
  setPut l (sec * 0x10000 + off) (setNorm (sec * 0x10000 + off) w)

/-! ## The swap (R56 to R59) -/

def swapState (s : State) : Nat := s.fld rSwapStat 0 3

/-- SWAP_STAT takes a state, code, section and item; DUP stands. -/
def State.swapSet (s : State) (st code sec item : Nat) : State :=
  s.setRg rSwapStat (setBits (setBits (setBits (setBits (s.rg rSwapStat) 0 3 st) 4 4 code) 8 4 sec) 16 12 item)

/-- The swap is refused: source 981 activates (R56). -/
def State.swapRefuse (s : State) (code sec item : Nat) : State :=
  ((s.swapSet 4 code sec item).cancelDue .swapCheckComplete).fire 981

/-- A request to swap at tick n (R56). The check is over after 16,000 tb cycles at the latest. -/
def State.swapArm (s : State) (n : Word) : State :=
  let st := swapState s
  if st = 1 ∨ st = 2 then s.hwFlag rSwapStat 3
  else
    let d := (n - s.rg rFrameNum).toNat
    if !s.flag rFrameCtl 24 || d = 0 || 2 ^ 31 ≤ d then s.swapRefuse 5 0 0
    else ({ s with swapTick := n }.swapSet 1 0 0 0).after 16000 .swapCheckComplete

/-- A cancel (R57). An exchange takes place at the edge of its tick, so a swap that is still ARMED can be cancelled. -/
def State.swapCancel (s : State) : State :=
  let st := swapState s
  if st = 1 ∨ st = 2 then
    { (s.swapSet 5 0 0 0).cancelDue .swapCheckComplete with swapCut := s.swapCut || decide (st = 1) }
  else s

/-- A write of SWAP_CTL: a cancel first, then an arm (R56). -/
def State.swapCtlWrite (s : State) (v : Word) : State :=
  let s1 := if bit v 1 then s.swapCancel else s
  if bit v 0 then s1.swapArm (s1.rg rSwapTarget) else s1

/-- A word of a set. -/
def setWord (l : Sparse Word) (sec off : Nat) : Word := sget (setReset (sec * 0x10000 + off)) l (sec * 0x10000 + off)

/-- The cell that feeds channel c in a set. -/
def setChCell (l : Sparse Word) (c : Nat) : Option Nat :=
  let a := setWord l 3 (8 * c)
  if decide (16 ≤ c) && bit a 10 then some (bits a 11 7) else none

/-- The cells without a flip-flop whose outputs cell n reads (R309). -/
def cellReads (l : Sparse Word) (n : Nat) : List Nat :=
  if bits (setWord l 4 (16 * n + 4)) 16 2 ≠ 0 then []
  else (List.range 4).filterMap (fun i =>
    match setChCell l (bits (setWord l 4 (16 * n)) (8 * i) 8) with
    | some m => if bits (setWord l 4 (16 * m + 4)) 16 2 = 0 then some m else none
    | none => none)

/-- The cells reached from a set of cells in at most k steps. -/
def cellReach (l : Sparse Word) : Nat → List Nat → List Nat
  | 0, r => r
  | k + 1, r =>
    let more := (r.flatMap (cellReads l)).eraseDups.filter (fun m => !r.contains m)
    if more.isEmpty then r else cellReach l k (r ++ more)

/-- Rule CYCLE: the lowest cell on a closed path. -/
def ruleCycle (l : Sparse Word) : Option (Nat × Nat × Nat) :=
  let used := (l.filterMap (fun e => if e.1 / 0x10000 = 4 then some (e.1 % 0x10000 / 16) else none)).eraseDups
  (used.find? (fun n => (cellReach l 128 (cellReads l n).eraseDups).contains n)).map (fun n => (1, 4, n))

/-- Rule OR_CHANNEL. -/
def ruleOr (l : Sparse Word) : Option (Nat × Nat × Nat) :=
  (List.range' 16 240).findSome? (fun c =>
    let n := (enabledSources l c).length
    if 2 ≤ n then some (2, 1, c) else if n = 1 ∧ (setChCell l c).isSome then some (2, 3, c) else none)

/-- Rule OWNER. An owner C(2k) of a pair in a paired mode means the main role, so it never names the checker (R275). -/
def State.ruleOwner (s : State) (l : Sparse Word) : Option (Nat × Nat × Nat) :=
  (List.range 256).findSome? (fun c =>
    let a := setWord l 3 (8 * c)
    let o := bits a 0 6
    if (enabledSources l c).isEmpty && (setChCell l c).isNone && !bit a 9 then none
    else if decide (36 < o) || s.ownerFenced o || (match s.role o with | .checker k => o != 2 * k.val | _ => false) ||
        (decide (c < 16) && (bit a 6 || !bit a 7)) then some (3, 3, c)
    else none)

/-- Rule PIN_CONFLICT. -/
def rulePins (l : Sparse Word) : Option (Nat × Nat × Nat) :=
  let claim := fun (o w p : Nat) => bit (setWord l 12 (12 * (2 * o + w) + 4 * (p / 32))) (p % 32)
  if !l.any (fun e => e.1 / 0x10000 == 12) then none
  else ((List.range 96).find? (fun p =>
    decide (1 < ((List.range 37).filter (fun o => claim o 0 p || claim o 1 p)).length))).map (fun p => (4, 12, p))

/-- The swap check: the first failure by Table 19 (R59), as code, section and item. -/
def State.swapCheck (s : State) : Option (Nat × Nat × Nat) :=
  let l := s.shadow
  match ruleCycle l with
  | some r => some r
  | none => match ruleOr l with
    | some r => some r
    | none => match s.ruleOwner l with
      | some r => some r
      | none => rulePins l

/-- SWAP_CHECK_COMPLETE (R56, R59): the check takes at most 16,000 cycles, after which it ends by itself. -/
def execSwapCheckComplete (s : State) : Host.Outcome State Fault Refusal :=
  .next (if swapState s = 1 then
      match s.swapCheck with
      | some (c, sec, i) => s.swapRefuse c sec i
      | none => (s.swapSet 2 0 0 0).cancelDue .swapCheckComplete
    else s)

/-- Comparators whose enable or ramp mode the exchange changed: both sets as they stand after it. -/
def State.cmpSwapped (s : State) : List (Fin 32) :=
  (List.finRange 32).filter (fun n =>
    let a := s.cmpSet n 4
    let b := setWord s.shadow 8 (16 * n + 4)
    (bit a 0 != bit b 0) || (bit a 0 && bit a 1 && !bit b 1))

/-- Comparator n at the swap edge (R113, R114, R487). -/
def State.cmpSwap (s : State) (n : Fin 32) : State :=
  let a := s.cmpSet n 4
  let b := setWord s.shadow 8 (16 * n + 4)
  if !bit a 0 then s.cmpStop n
  else if !bit b 0 then (if s.domReady (80 + n / 16) then s.cmpEnable n else s)
  else s.setCmp n { s.cmp n with guard := 40, acc := bits (s.cmpSet n 8) 0 10 * 65536 }

/-- Engine e of group g at the swap edge (R387). -/
def State.peSwap (s : State) (g : Fin 8) (e : Fin 4) : State :=
  let off := 8 * (4 * g.val + e.val)
  let a := bit (s.act 9 off) 0
  let b := bit (setWord s.shadow 9 off) 0
  if a && !b then (if s.peRuns g e then s.peStart g e else s)
  else if b && !a then s.setEng g e (s.eng g e).stop
  else s

/-- Decimator g at the swap edge: one that is enabled starts empty, and the input FIFO of the engine that it is attached to holds
nothing (R383). -/
def State.sdSwap (s : State) (g : Fin 8) : State :=
  let t := if bit (s.sdCtl g) 0 && !bit (setWord s.shadow 7 (0x400 + 16 * g)) 0 then s.setSd g { sdFresh with lastBit := s.now } else s
  let e : Fin 4 := ⟨bits (t.sdCtl g) 1 2 % 4, Nat.mod_lt _ (by decide)⟩
  if t.sdOn g && !(t.eng g e).inq.isEmpty then t.setEng g e { t.eng g e with inq := [] } else t

/-- The exchange of the sets with the effects of Table 20, x being the swap edge. Source 980 is the caller's. -/
def State.swapApply (s : State) (x : Nat) : State :=
  let old := s.active
  let ids := (s.rg rSetId, s.rg rShadowId)
  let s1 := ({ s with active := s.shadow, shadow := old }.setRg rSetId ids.2).setRg rShadowId ids.1
  let s2 := s1.clearChCounts
  let s3 := { s2 with
    regs := sclear s2.regs (rChMuted 0) 32
    fab := { s2.fab with swapped := true, cells := s2.fab.cells.filter (fun e =>
      (List.range 4).all (fun i => s1.act 4 (16 * e.1 + 4 * i) == setWord old 4 (16 * e.1 + 4 * i))) } }
  let s4 := match (List.range 16).find? (fun c => decide (32 < (enabledSources s3.active c).length)) with
    | some c => (s3.hwFlag rFabStat 1).setFld rFabStat 16 4 c
    | none => s3
  let s5 := (List.finRange 16).foldl (fun t n => t.adcCut n x) s4
  let s6 := s5.cmpSwapped.foldl State.cmpSwap s5
  let s7 := (List.finRange 8).foldl (fun t g => ((List.finRange 4).foldl (fun u e => u.peSwap g e) t).sdSwap g) s6
  let s8 := (List.finRange 8).foldl State.peConflict s7
  s.holdKept (s8.swapSet 3 0 0 0)

/-- The timers that a swap starts: EN is 1 in the new set t and was 0 in the old one; general timers count from 48. -/
def State.timersStarted (s t : State) : List Nat :=
  (List.range 48).filter (fun n => t.ptEn n && !s.ptEn n) ++
  ((List.range 32).filter (fun n => bit (t.gtSet n 0) 0 && !bit (s.gtSet n 0) 0)).map (fun n => 48 + n)

/-- SWAP_EXCHANGE (R58): the exchange within a cycle, whose edge counts as the swap edge T. A PWM timer that it enables with its
counter at 0 begins a period (R125), and the pins take what the new modes call for (R484). -/
def execSwapExchange (s : State) : Host.Outcome State Fault Refusal :=
  .next (if swapState s = 2 then
      let t := (s.swapApply s.now).fire 980
      let t1 := (List.finRange 48).foldl (fun u n => u.ptSwap (bit (s.ptSet n 0) 4) n) t
      let t2 := (List.finRange 48).foldl (fun (u : State) (n : Fin 48) =>
        if (s.timersStarted t).contains n.val && decide ((u.pt n).cnt = 0) then u.ptZeroNow n else u) t1
      (List.finRange 32).foldl (State.cmpSwapNow t.cmpSwapped) t2
    else s)

/-! ## FRAME_CTL, TICK_CTL -/

/-- A locked follower: its period is the marker's (R65). -/
def State.follows (s : State) : Bool := decide (s.fld rTickCtl 0 2 = 2) && s.flag rTickStat 0

/-- A write of FRAME_CTL (R46, R47, R65). -/
def State.frameCtlWrite (s : State) (v : Word) : State :=
  s.writeRg false rFrameCtl (if s.follows then setBits v 0 23 (s.fld rFrameCtl 0 23) else v)

/-- At the edge at which EN becomes 0 a swap that is CHECKING or ARMED is refused (R57). -/
def State.stopRefuse (s : State) : State :=
  if !s.flag rFrameCtl 24 && (swapState s = 1 || swapState s = 2) then s.swapRefuse 5 0 0 else s

/-- A write of TICK_CTL: a change of role or tick link leaves the lock. -/
def State.tickCtlWrite (s : State) (v : Word) : State :=
  let t := s.writeRg false rTickCtl v
  if t.fld rTickCtl 0 4 = s.fld rTickCtl 0 4 then t
  else { (t.setFlag rTickStat 0 false).setFlag rTickStat 2 false with lostAt := none, markNum := none, slewLeft := 0, tickOut := false }

/-- A write of a register of the timebase and frame block. -/
def State.tbWrite (s : State) (off : Nat) (v : Word) : State :=
  if off = 0x000 then s.tbCtlWrite v
  else if off = 0x010 then s.frameCtlWrite v
  else if off = 0x050 then s.swapCtlWrite v
  else if off = 0x070 then s.tickCtlWrite v
  else if 0x100 ≤ off ∧ off < 0x190 then (if bit v 31 then s.setFld (baseTb + off) 0 16 0 else s)
  else s.writeRg false (baseTb + off) v

/-! ## The tick (R45, R49, R57) -/

/-- LAT of a locked follower. -/
def State.tickLat (s : State) : Nat := s.fld rTickStat 4 12

/-- The length of the frame that a tick opens: PERIOD, and on a follower what is left of its phase error within SLEW
(R46, R68). -/
def State.nextPeriod (s : State) : Nat :=
  let slew : Int := (s.fld rTickCtl 8 8 : Nat)
  ((s.fld rFrameCtl 0 23 : Int) + clampInt s.slewLeft (-slew) slew).toNat

/-- TICK, all but its markers. -/
def State.frameTick (s : State) : State :=
  let num := s.rg rFrameNum + 1
  let s1 := { (s.setRg rFrameNum num).setRg rFramePos 0 with framePeriod := s.nextPeriod, slewLeft := 0 }
  let s2 := (s1.fire 979).tickChCounts
  -- R49: judged on the flags held before the tick; all of them clear
  let late := (List.range 36).filter (fun n => s.judged n && !s.bitOf (rFdone 0) n)
  let s3 := late.foldl State.overrun ((s2.setRg (rFdone 0) 0).setRg (rFdone 1) 0)
  let s4 := if swapState s3 = 1 ∧ s3.swapTick = num then s3.swapRefuse 5 0 0 else s3
  let s5 := (List.finRange 16).foldl (fun t k =>
    if 0 < (t.pair k).twin then t.setPair k { t.pair k with twin := (t.pair k).twin - 1 } else t) s4
  if s5.follows && decide (s5.lostAt = none) && decide (s5.markNum ≠ some num)
  then { s5 with lostAt := some (s5.now + s5.tickLat + 64) } else s5

/-- A swap whose tick lies among those that a follower's number jumps over is refused (R68), one that is still CHECKING too, of
which R68 does not speak (DESIGN CHOICE, log entry 43). -/
def State.skipTicks (s : State) (num : Word) : State :=
  let gone := (s.swapTick - s.rg rFrameNum).toNat
  let jump := (num - s.rg rFrameNum).toNat
  let s1 := if (swapState s = 1 ∨ swapState s = 2) ∧ jump < 2 ^ 31 ∧ 0 < gone ∧ gone ≤ jump then s.swapRefuse 5 0 0 else s
  s1.setRg rFrameNum num

/-- A marker of tick `num`, with the master's period and the whole latency, has reached a follower `ago` edges before (R65, R66, R68):
the tick counter takes the master's number, and the frame the correction of its phase. A frame that is stopped holds both (R47). -/
def State.markerIn (s : State) (num : Word) (period lat ago : Nat) : State :=
  if !s.frameRuns then s else
  let per : Nat := max 1 s.framePeriod
  let pos : Int := (s.fld rFramePos 0 23 : Nat)
  -- the marker belongs to the frame j frames back; j is −1 for a tick still to come
  let j : Int := (2 * ((lat : Int) + ago - pos) + per) / (2 * per)
  let err : Int := pos + j * per - lat - ago
  let cur := num + BitVec.ofInt 32 j
  let aligned := decide (-1 ≤ err) && decide (err ≤ 1)
  let was := s.flag rTickStat 2
  let s1 := s.skipTicks cur
  let e8 := (BitVec.ofInt 8 (clampInt err (-128) 127)).toNat
  let st := setBits (setBits (setBit (setBit (s1.rg rTickStat) 0 true) 2 aligned) 4 12 (min 4095 lat)) 16 8 e8
  let s2 := (s1.setRg rTickStat st).setFld rFrameCtl 0 23 (max 1000 (min 8000000 period))
  let slew : Int := (s2.fld rTickCtl 8 8 : Nat)
  let s3 := { s2 with
    markNum := some num, tickOut := false
    lostAt := if 1 ≤ j then some ((s.now : Int) - pos - (j - 1) * per + lat + 64).toNat else none
    slewLeft := if 0 ≤ j then 0 else err
    framePeriod := if 0 ≤ j then ((period : Int) + clampInt err (-slew) slew).toNat else s2.framePeriod }
  if aligned && !was then s3.fire 990 else s3

/-! ## The image (R60 to R63) -/

/-- Why an image is refused. -/
inductive ImgErr where
  | badCrc | badGen | tooLong | state
  deriving DecidableEq, Repr

/-- A directory entry. -/
structure DirEntry where
  ty     : Nat
  enc    : Nat
  off    : Nat
  stored : Nat
  crc    : Nat
  bytes  : List Byte
  deriving DecidableEq, Repr

/-- Run-length records decoded (R62); none when a record runs past the end. -/
def rlDecode : Nat → List Byte → Option (List Byte)
  | _, [] => some []
  | 0, _ => none
  | k + 1, bs =>
    if bs.length < 2 then none
    else
      let c := leAt bs 0 2
      let n := c % 0x8000
      let r := bs.drop 2
      if 0x8000 ≤ c then
        match r with
        | b :: t => (rlDecode k t).map (fun d => List.replicate n b ++ d)
        | [] => none
      else if r.length < n then none
      else (rlDecode k (r.drop n)).map (fun d => r.take n ++ d)

/-- The records of a delta list. -/
def deltaRecords : Nat → List Byte → List (Nat × Word)
  | 0, _ => []
  | n + 1, bs => (leAt bs 0 4, leWord (bs.drop 4)) :: deltaRecords n (bs.drop 8)

/-- The decoded length of a section, where its encoding gives one. A delta list that is no whole number of records counts as one of
the wrong size (DESIGN CHOICE, log entry 43: R63 names no code for it). -/
def DirEntry.badSize (e : DirEntry) : Bool :=
  if e.ty = 0 ∨ 12 < e.ty then false
  else match e.enc with
    | 0 => decide (e.stored ≠ secSize e.ty)
    | 1 => match rlDecode (e.bytes.length + 1) e.bytes with
      | some d => decide (d.length ≠ secSize e.ty)
      | none => false
    | 2 => decide (e.stored % 8 ≠ 0)
    | _ => false

/-- A record of a delta list that falls outside its section (R63), or whose offset is not word-aligned as R62 says it is (the code
for that is a DESIGN CHOICE, log entry 43). -/
def DirEntry.badDelta (e : DirEntry) : Bool :=
  decide (e.enc = 2) && (deltaRecords (e.bytes.length / 8) e.bytes).any (fun r =>
    decide (secSize e.ty < r.1 + 4) || decide (r.1 % 4 ≠ 0))

/-- The directory of an image. -/
def imgDir (img : List Byte) : List DirEntry :=
  (List.range (min 12 (leAt img 16 2))).map (fun i =>
    let b := slice img (32 + 16 * i) 16
    let off := leAt b 4 4
    let st := leAt b 8 4
    ⟨leAt b 0 2, leAt b 2 2, off, st, leAt b 12 4, slice img off st⟩)

/-- Two stored sections overlap. -/
def overlaps (a b : DirEntry) : Bool := decide (a.off < b.off + b.stored) && decide (b.off < a.off + a.stored)

def anyOverlap : List DirEntry → Bool
  | [] => false
  | e :: r => r.any (overlaps e) || anyOverlap r

/-- The first condition of R63 that an image meets. An image too short to hold a header and a trailer is BAD_CRC, and a SEC_CRC in
version 1 is not looked at (DESIGN CHOICE, log entry 43). -/
def State.imgCheck (s : State) (img : List Byte) : Option ImgErr :=
  let fmt := leAt img 4 2
  let n := img.length
  let dir := imgDir img
  let secs := leAt img 16 2
  let flags := leAt img 18 2
  let delta := flags % 2 = 1
  let types := dir.map (fun e => e.ty)
  if leAt img 0 4 ≠ 0x1C840A5E ∨ leAt img 6 2 ≠ 0x8840 ∨ (crc32 (img.take 28)).toNat ≠ leAt img 28 4 ∨
      (fmt = 2 ∧ dir.any (fun e => decide ((crc32 e.bytes).toNat ≠ e.crc))) ∨ n < 36 ∨
      (crc32 (img.take (n - 4))).toNat ≠ leAt img (n - 4) 4 then some .badCrc
  else if fmt ≠ 1 ∧ fmt ≠ 2 then some .badGen
  else if leAt img 8 4 ≠ n ∨ dir.any DirEntry.badSize then some .tooLong
  else if dir.any DirEntry.badDelta then some .tooLong
  else if 2 ≤ flags ∨ (delta ∧ fmt = 1) ∨ (¬ delta ∧ leAt img 20 4 ≠ 0) then some .badGen
  else if secs = 0 ∨ 12 < secs ∨ (fmt = 1 ∧ secs ≠ 12) then some .badGen
  else if types.any (fun t => t == 0 || decide (12 < t)) ∨ types.eraseDups.length ≠ types.length then some .badGen
  else if fmt = 1 ∧ (types ≠ List.range' 1 12 ∨ dir.any (fun e => e.enc != 0)) then some .badGen
  else if dir.any (fun e => decide (2 < e.enc) || (decide (e.enc = 2) && decide (¬ delta))) then some .badGen
  else if dir.any (fun e => decide (e.off % 8 ≠ 0) || decide (e.off < 32 + 16 * secs) || decide (n - 4 < e.off + e.stored)) ∨
      anyOverlap dir then some .tooLong
  else if dir.any (fun e => decide (e.enc = 1) && (rlDecode (e.bytes.length + 1) e.bytes).isNone) then some .tooLong
  else if delta ∧ leAt img 20 4 ≠ (s.rg rShadowId).toNat then some .state
  else none

/-- A whole section put into a set. -/
def setLoadSection (l : Sparse Word) (sec : Nat) (bs : List Byte) : Sparse Word :=
  (wordsOf (secSize sec / 4) bs).zipIdx.foldl (fun m p => setLoadWord m sec (4 * p.2) p.1)
    (l.filter (fun e => decide (e.1 / 0x10000 ≠ sec)))

/-- A section of an image put into a set (R62). -/
def DirEntry.apply (e : DirEntry) (l : Sparse Word) : Sparse Word :=
  match e.enc with
  | 0 => setLoadSection l e.ty e.bytes
  | 1 => setLoadSection l e.ty ((rlDecode (e.bytes.length + 1) e.bytes).getD [])
  | _ => (deltaRecords (e.bytes.length / 8) e.bytes).foldl (fun m r => setLoadWord m e.ty r.1 r.2) l

/-- An image is loaded into the shadow set, or refused whole (R55, R60 to R63). -/
def State.imgLoad (s : State) (img : List Byte) : Except ImgErr State :=
  match s.imgCheck img with
  | some e => .error e
  | none =>
    let start := if leAt img 18 2 % 2 = 1 then s.shadow else s.freshSet
    .ok ({ s with shadow := (imgDir img).foldl (fun l (e : DirEntry) => DirEntry.apply e l) start }.setRg rShadowId (leWord (slice img 12 4)))

/-- The shadow set is locked by a swap that is CHECKING or ARMED (R55). -/
def State.shadowLocked (s : State) : Bool := swapState s = 1 || swapState s = 2

end Sys2Proof.Machine
end

