-- ==== Sys2Proof/Machine/Redundancy.lean ====
section
/-! DEFINITION. Redundancy.lean: pair modes, mismatch recovery, spares, fences and readmission (chapter 10). -/

namespace Sys2Proof.Machine

/-! ## Ghost traffic, fences, retirement -/

/-- An access by a fenced core is dropped and counted (R296). -/
def State.ghost (s : State) (n : Nat) : State :=
  ((s.count rRmGhost 0 16 1).setFld rRmGhost 16 6 n).fire 542

/-- The fence of core n is set. Its readmission needs a power cycle and a self-test from now on (R297). -/
def State.fence (s : State) (n : Nat) : State :=
  let m : BitVec 36 := BitVec.ofNat 36 (2 ^ n)
  { s.putBit (rRmFence 0) n true with cycled := s.cycled &&& ~~~ m, tested := s.tested &&& ~~~ m }

/-- STATE of pair k. -/
def State.setPairSt (s : State) (k : Fin 16) (st : Nat) : State := s.setFld (rRmPair k 0x08) 0 3 st

/-- What was scheduled for pair k is withdrawn. -/
def State.pairQuiet (s : State) (k : Fin 16) : State :=
  let t := ((s.cancelDue (.stateCopyEnd k)).cancelDue (.checkpointCompare k)).cancelDue (.sluiceTimeout k)
  t.setPair k { t.pair k with act := none }

/-- The redundancy manager acts on pair k at the next core edge. -/
def State.pairLater (s : State) (k : Fin 16) (a : PairAct) : State :=
  s.setPair k { s.pair k with act := some (s.now + s.coreTb (s.mainOf k) 1, a) }

/-- Core n stops. -/
def State.stopCore (s : State) (n : Nat) : State := s.setCore (coreId n) (s.core (coreId n)).stop

/-- Pair k is RETIRED (R294): its roles stop, its pins stay in safe-hold, source 541, cause RETIRE. -/
def State.retire (s : State) (k : Fin 16) : State :=
  let s1 := ((s.pairQuiet k).stopCore (s.mainOf k)).stopCore (s.checkerOf k)
  let s2 := (s1.setPairSt k 6).setPair k
    { s1.pair k with next := none, agree := [], sluice := [], ckM := [], ckC := [], ints := [], dbgLog := [], recovery := false, twin := 0 }
  ((s2.setHoldRed k true).fire 541).shOccur 4

/-! ## Spares (R289 to R291) -/

/-- C(32 + i) is a candidate under R289. -/
def State.spareFree (s : State) (i : Nat) : Bool :=
  s.flag rRmSpare i && s.domReady (32 + i) && !s.fenced (32 + i) &&
    (match s.role (32 + i) with | .solo => true | _ => false)

/-- The spare that pair k would be given: a readmitted core of its own that holds no role, then the lowest of C32 to C35. -/
def State.spareFor (s : State) (k : Fin 16) : Option Nat :=
  match (s.pair k).ownSpares.find? (fun (n : Fin 36) =>
      s.domReady n.val && !s.fenced n.val && s.mainOf k != n.val && s.checkerOf k != n.val) with
  | some n => some n.val
  | none => ((List.range 4).find? s.spareFree).map (fun i => 32 + i)

/-- The copy of the main's state to the checker begins (R291); `rec` tells a recovery from an entry by command. -/
def State.copyStart (s : State) (k : Fin 16) (rec : Bool) : State :=
  let s1 := (s.setPairSt k 2).setPair k { s.pair k with recovery := rec }
  (s1.cancelDue (.stateCopyEnd k)).after (s1.coreTb (s1.mainOf k) 6144) (.stateCopyEnd k)

/-- Pair k, whose main role is healthy, is given a checker, or runs alone, or is retired (R289). -/
def State.takeSpare (s : State) (k : Fin 16) : State :=
  match s.spareFor k with
  | some n =>
    let s1 := (s.setFld (rRmPair k 0x0C) 16 6 n).setPair k
      { s.pair k with ownSpares := (s.pair k).ownSpares.filter (fun m => m.val != n) }
    let s2 := s1.stopCore n
    let s3 := if 32 ≤ n then (s2.setFlag rRmSpare (n - 32) false).fire (536 + (n - 32)) else s2
    s3.copyStart k true
  | none =>
    if s.flag rRmCtl 16 then (s.setPairSt k 5).setPair k { s.pair k with recovery := true }
    else s.retire k

/-! ## Pair modes (R278) -/

/-- A core may hold a role: powered and not fenced. -/
def State.roleFit (s : State) (n : Nat) : Bool := s.domReady n && !s.fenced n

/-- The redundancy manager has stopped pair k: triage, copy, wait for a tick, retirement (R287, R291, R294). -/
def State.pairDown (s : State) (k : Fin 16) : Bool :=
  s.pairSt k == 1 || s.pairSt k == 2 || s.pairSt k == 3 || s.pairSt k == 6

/-- The core edge after a write that enters a paired mode, or sets a retired pair's mode afresh (R278): both cores stop and the copy
begins. With a role that no core can hold the pair is retired (log entry 20). A main that stood halted by the debugger, and not
by the manager, is marked and stays halted. -/
def State.pairEnter (s : State) (k : Fin 16) : State :=
  let a := s.mainOf k
  let b := s.checkerOf k
  let was := if s.pairDown k then (s.pair k).haltAt.isSome else (s.core (coreId a)).run == .halted
  let s1 := ((s.pairQuiet k).stopCore a).stopCore b
  let s2 := s1.setPair k { s1.pair k with
    agree := [], sluice := [], ckM := [], ckC := [], ints := [], dbgLog := [], twin := 0, haltAt := if was then some 0 else none }
  let s3 := (s2.setFld (rRmPair k 0x08) 10 2 0)
  if s3.roleFit a && s3.roleFit b then s3.copyStart k false else s3.retire k

/-- A write of RM_PAIRk (R278), by register or by the 0x03xx command, which alone sets the mode of a RETIRED pair afresh (R294). From
a write that enters a mode until the tick at which it takes effect the main's pins are in safe-hold. -/
def State.pairModeWrite (s : State) (k : Fin 16) (command : Bool) (v : Word) : State :=
  if s.mode ≠ 2 ∧ s.mode ≠ 5 then s
  else
    let t := s.writeRg false (rRmPair k 0) v
    let m : Fin 3 := ⟨t.fld (rRmPair k 0) 0 2 % 3, Nat.mod_lt _ (by decide)⟩
    let p := s.pair k
    let retired := s.pairSt k = 6
    if retired ∧ !command then t
    else if m = 0 then
      if p.mode = 0 ∧ p.next = none ∧ ¬ retired then t else t.setPair k { t.pair k with next := some 0 }
    else if p.next.getD p.mode = m ∧ ¬ retired then t
    else ((t.setPair k { t.pair k with next := some m }).setHoldRed k true).pairLater k .enter

/-- The private registers that a copy moves from core a to core b: all but the debug registers (R291). The pending bits stay with a:
a checker has none (R281). -/
def copyPrivate (l : Sparse Word) (a b : Nat) : Sparse Word :=
  let inPriv := fun (c k : Nat) => decide (privKey c 0xE0000000 ≤ k) && decide (k < privKey c 0xE0008000)
  let pend := fun (k : Nat) => decide (privKey a 0xE0001000 ≤ k) && decide (k < privKey a 0xE0001080)
  let moved := (l.filter (fun e => inPriv a e.1 && !pend e.1)).map (fun e => (e.1 - privKey a 0 + privKey b 0, e.2))
  moved.foldl (fun m e => sput (resetOf e.1) m e.1 e.2) (l.filter (fun e => !inPriv b e.1))

/-- The pending bits of core b are clear: a checker has none (R281). -/
def State.noPend (s : State) (b : Nat) : State :=
  ((List.range 32).foldl (fun t m => t.setRg (rIcPend b m) 0) s).setFlag (rIcCtl b) 8 false

/-- STATE_COPY_END (R278, R291): registers and local memory of the main role stand in the checker role. -/
def State.copyEnd (s : State) (k : Fin 16) : State :=
  if s.pairSt k ≠ 2 then s
  else
    let a := s.mainOf k
    let b := s.checkerOf k
    let s0 := s.cancelDue (.stateCopyEnd k)
    if !(s0.roleFit b) then s0.retire k
    else if s0.ecc.any (fun e => e.2 && decide (locAddr a 0 ≤ e.1) && decide (e.1 < locAddr a localSize)) then s0.retire k
    else
      -- a core in lockup leaves it only by a reset of its domain (R258)
      let stay := (s0.core (coreId b)).run = .lockup
      let s1 := s0.setCore (coreId b) { s0.core (coreId a) with run := if stay then .lockup else .halted }
      let s2 := ({ s1 with regs := copyPrivate s1.regs a b }.memCopy (locAddr a 0) (locAddr b 0) localSize)
      let s3 := (s2.noPend b).setPairSt k 3
      s3.setPair k { s3.pair k with dbgLog := [] }

def execStateCopyEnd (k : Fin 16) (s : State) : Host.Outcome State Fault Refusal :=
  .next (if s.notYet (.stateCopyEnd k) then s else s.copyEnd k)

/-- Signatures, counts and buffers of a pair that begins to run. What the debugger wrote to the main since the copy is kept, to be
replayed into the checker (R298). -/
def PairState.restart (p : PairState) : PairState :=
  { p with agree := [], sluice := [], sigM := sigInit, sigC := sigInit, cntM := 0, cntC := 0, sinceM := 0, sinceC := 0,
           idxM := 0, idxC := 0, ckM := [], ckC := [], ints := [], haltAt := none, recovery := false, act := none }

/-- A stopped core of a pair goes on at its pc. -/
def State.goCore (s : State) (n : Nat) : State :=
  let k := s.core (coreId n)
  if k.run = .halted && s.domReady n then s.setCore (coreId n) { k with run := .running, haltReq := false, stepping := false } else s

/-- PAIRED_MODE_ENTRY (R278): the first tick after a copy that belongs to no recovery. -/
def State.pairedEntry (s : State) (k : Fin 16) : State :=
  match (s.pair k).next with
  | some m =>
    if m = 0 ∨ s.pairSt k ≠ 3 ∨ (s.pair k).recovery then s
    else
      let stay := (s.pair k).haltAt.isSome
      let s1 := ((s.setPair k { (s.pair k).restart with mode := m, next := none }).setPairSt k 0).noPend (s.checkerOf k)
      let s2 := s1.setHoldRed k false
      if stay then s2 else (s2.goCore (s2.mainOf k)).goCore (s2.checkerOf k)
  | none => s

def execPairedModeEntry (k : Fin 16) (s : State) : Host.Outcome State Fault Refusal := .next (s.pairedEntry k)

/-- SPLIT_RETURN (R278, R290): the cores go on by themselves, but for a main that the debugger halted, and the roles read as after
reset. -/
def State.splitReturn (s : State) (k : Fin 16) : State :=
  match (s.pair k).next with
  | some m =>
    if m ≠ 0 then s
    else
      let a := s.mainOf k
      let b := s.checkerOf k
      let stopped := s.pairSt k ≠ 0 ∧ s.pairSt k ≠ 4 ∧ s.pairSt k ≠ 5
      let stay := (s.pair k).haltAt.isSome
      let s0 := s.pairQuiet k
      let s1 := (s0.setPair k { (s0.pair k).restart with mode := 0, next := none, twin := 0, dbgLog := [] }).setPairSt k 0
      let s2 := (s1.setHoldRed k false).setRg (rRmPair k 0x0C) (resetOf (rRmPair k 0x0C))
      let s3 := s2.setFld (rRmPair k 0x08) 10 2 0
      if stopped then
        let s4 := if s3.fenced a ∨ stay then s3 else s3.goCore a
        if s4.fenced b then s4 else s4.goCore b
      else s3
  | none => s

def execSplitReturn (k : Fin 16) (s : State) : Host.Outcome State Fault Refusal := .next (s.splitReturn k)

/-! ## Comparison (R283, R284) -/

/-- The first scheduled event that equals i is taken from the list. -/
def dropDue : List (Nat × Instr) → Instr → List (Nat × Instr)
  | [], _ => []
  | p :: r, i => if p.2 = i then r else p :: dropDue r i

/-- CHECKPOINT_COMPARE (R283, R292): the main's oldest checkpoint is compared. -/
def State.compareCk (s : State) (k : Fin 16) : State :=
  let p := s.pair k
  let s0 := { s with due := dropDue s.due (.checkpointCompare k) }
  match p.ckM with
  | [] => s0
  | m :: ms =>
    match p.ckC with
    | [] => s0.mismatch k 2
    | c :: cs =>
      if m.kind ≠ c.kind ∨ m.count ≠ c.count then s0.mismatch k 2
      else if m.sig ≠ c.sig then s0.mismatch k 1
      else
        let s1 := s0.setPair k { p with ckM := ms, ckC := cs }
        let s2 := (s1.setRg (rRmPair k 0x10) (m.sig.setWidth 32)).setRg (rRmPair k 0x14) ((m.sig >>> 32).setWidth 32)
        if s2.pairSt k = 4 ∧ m.kind = 1 then (s2.setPairSt k 0).setHoldRed k false else s2

def execCheckpointCompare (k : Fin 16) (s : State) : Host.Outcome State Fault Refusal :=
  .next (if s.notYet (.checkpointCompare k) then s else s.compareCk k)

/-- SLUICE_TIMEOUT (R284): the checker has not made the output that the oldest held one needs. -/
def State.sluiceOut (s : State) (k : Fin 16) : State :=
  let s0 := { s with due := dropDue s.due (.sluiceTimeout k) }
  if (s.pair k).sluice.isEmpty then s0 else s0.mismatch k 4

def execSluiceTimeout (k : Fin 16) (s : State) : Host.Outcome State Fault Refusal :=
  .next (if s.notYet (.sluiceTimeout k) then s else s.sluiceOut k)

/-! ## Triage, resumption (R287 to R294) -/

/-- The self-tests of a triage of pair k are over (R288). -/
def State.triageOver (s : State) (k : Fin 16) : Bool :=
  decide (s.pairSt k = 1) && (match (s.pair k).act with
    | some (e, .triage) => decide (e ≤ s.now)
    | _ => false)

/-- TRIAGE_END (R288): the results of the self-tests of both copies, once these are over. A copy that locked up fails (R287). What
follows comes at the next core edge (R289). -/
def State.triageEnd (s : State) (k : Fin 16) (mp cp : Bool) : State :=
  if !s.triageOver k then s
  else
    let mOk := mp && (s.core (coreId (s.mainOf k))).run != .lockup
    let cOk := cp && (s.core (coreId (s.checkerOf k))).run != .lockup
    ((s.setFlag (rRmPair k 0x08) 8 !mOk).setFlag (rRmPair k 0x08) 9 !cOk).pairLater k .triaged

/-- The edge after a triage (R288, R289, R294): the transient is counted and the copy begins, or the failed copies are fenced and a
spare is admitted, or the pair is RETIRED. -/
def State.triaged (s1 : State) (k : Fin 16) : State :=
  if s1.pairSt k ≠ 1 then s1
  else
    let a := s1.mainOf k
    let b := s1.checkerOf k
    match s1.flag (rRmPair k 0x08) 8, s1.flag (rRmPair k 0x08) 9 with
    | false, false =>
      let s2 := (s1.count (rRmPair k 0x18) 16 15 1).fire 540
      let n := s2.fld (rRmPair k 0x08) 10 2
      if 2 ≤ n then s2.retire k
      else
        let s3 := s2.setFld (rRmPair k 0x08) 10 2 (n + 1)
        (s3.setPair k { s3.pair k with twin := s3.fld rRmCtl 0 16 }).copyStart k true
    | false, true => (s1.fence b).takeSpare k
    | true, false =>
      let s2 := ((s1.fence a).setFld (rRmPair k 0x0C) 0 6 b).setFld (rRmPair k 0x0C) 16 6 a
      s2.takeSpare k
    | true, true => ((s1.fence a).fence b).retire k

/-- What the redundancy manager does at this edge, pair by pair (R278, R289). -/
def State.pairsEdge (s : State) : State :=
  (List.finRange 16).foldl (fun (t : State) (k : Fin 16) => match (t.pair k).act with
    | some (e, a) =>
      if t.now < e then t
      else
        let u := t.setPair k { t.pair k with act := none }
        match a with
        | .triage => t
        | .triaged => u.triaged k
        | .enter => match (u.pair k).next with
          | some m => if m = 0 then u else u.pairEnter k
          | none => u
    | none => t) s

def execTriageEnd (k : Fin 16) (mp cp : Bool) (s : State) : Host.Outcome State Fault Refusal := .next (s.triageEnd k mp cp)

/-- Core n begins at an address, Plant world, supervisor level, IM 15 (R292); one in lockup stays there (R258). -/
def State.beginAt (s : State) (n : Nat) (a : Word) : State :=
  let k := s.core (coreId n)
  if k.run = .lockup then s
  else s.setCore (coreId n) { k with
    pc := a, run := .running, haltReq := false, stepping := false, noInt := false, prefetched := false
    st := setBits (setBit (setBit k.st 13 false) 12 true) 8 4 15 }

/-- PAIR_RESUME (R289, R292): the first tick after the copy, or after the degraded pair's triage. -/
def State.pairResume (s : State) (k : Fin 16) : State :=
  if !(s.pair k).recovery then s
  else
    let a := s.rg (rRmPair k 0x04)
    let p := s.pair k
    -- a mode written before the mismatch takes effect here, at the first tick after the copy (R278)
    let p1 := match p.next with
      | some m => if m = 0 then p.restart else { p.restart with mode := m, next := none }
      | none => p.restart
    if s.pairSt k = 3 then
      let s1 := ((s.setPair k p1).setPairSt k 4).noPend (s.checkerOf k)
      (s1.beginAt (s1.mainOf k) a).beginAt (s1.checkerOf k) a
    else if s.pairSt k = 5 then
      -- nothing is checked, so the safe-hold request ends here (log entry 20)
      let s1 := (s.setPair k p1).setHoldRed k false
      s1.beginAt (s1.mainOf k) a
    else s

def execPairResume (k : Fin 16) (s : State) : Host.Outcome State Fault Refusal := .next (s.pairResume k)

/-- TRANSIENT_WINDOW_EXPIRY (R294): no tick of the window is left, and the count of transients falls back to zero. -/
def execTransientWindowExpiry (k : Fin 16) (s : State) : Host.Outcome State Fault Refusal :=
  .next (if (s.pair k).twin = 0 then s.setFld (rRmPair k 0x08) 10 2 0 else s)

/-! ## Domains (R274, R295) -/

/-- The domain of core n is switched off while it receives a copy (R295). -/
def State.spareLost (s : State) (n : Nat) : State :=
  match s.role n with
  | .checker k => if s.pairSt k = 2 ∧ (s.pair k).recovery then (s.fence n).takeSpare k else s
  | _ => s

/-- The domain of the redundancy manager is switched off: every pair not in RUN is RETIRED, and every pair is in SPLIT
(R274, R295). -/
def State.pairsOff (s : State) : State :=
  (List.finRange 16).foldl (fun t k =>
    let t1 := if t.pairSt k ≠ 0 ∧ t.pairSt k ≠ 6 then t.retire k else t
    let t2 := t1.pairQuiet k
    t2.setPair k { (t2.pair k).restart with mode := 0, next := none, twin := 0, ownSpares := [], dbgLog := [] }) s

/-! ## Registers (R297, R299) -/

/-- Readmission of core n (R297): RESULT names the first condition not met. -/
def State.readmit (s : State) (n : Nat) : State :=
  let res := fun (t : State) (r : Nat) => t.setFld rRmReadmit 12 3 r
  if !s.fenced n then res s 2
  else if !s.cycled.getLsbD n then res s 3
  else if !s.tested.getLsbD n then res s 4
  else
    let s1 := s.putBit (rRmFence 0) n false
    let s2 := if h : n < 36 then
        if 32 ≤ n then s1.setFlag rRmSpare (n - 32) true
        else
          let k := pairOf n
          s1.setPair k { s1.pair k with ownSpares := (s1.pair k).ownSpares ++ [⟨n, h⟩] }
      else s1
    res s2 1

/-- A write of a register of the redundancy manager. -/
def State.rmWrite (s : State) (off : Nat) (v : Word) : State :=
  if off = 0x008 then (if bit v 8 then s.readmit (min 35 (bits v 0 6)) else s)
  else if off = 0x00C then (if bit v 31 then s.setFld rRmGhost 0 16 0 else s)
  else if 0x100 ≤ off ∧ off < 0x300 then
    let k : Fin 16 := ⟨(off - 0x100) / 0x20 % 16, Nat.mod_lt _ (by decide)⟩
    if off % 0x20 = 0x00 then s.pairModeWrite k false v
    else if off % 0x20 = 0x18 then (if bit v 31 then s.setRg (rRmPair k 0x18) 0 else s)
    else s.writeRg false (baseRm + off) v
  else s.writeRg false (baseRm + off) v

/-- What a register of the redundancy manager reads as. AVAIL reads 0, its reset value, until BOOT has loaded the configuration
record: before that no spare is a candidate (DESIGN CHOICE, log entry 43). -/
def State.rmRead (s : State) (off : Nat) : Word :=
  if off = 0x004 then
    (List.range 4).foldl (fun w i =>
      setBit (setBit w (8 + i) (s.otpLoaded && s.spareFree i)) (16 + i) (match s.role (32 + i) with | .checker _ => true | _ => false))
      (s.rg rRmSpare)
  else s.rg (baseRm + off)

end Sys2Proof.Machine
end

