-- ==== Sys2Proof/Machine/Debug.lean ====
section
/-! DEFINITION. Debug.lean: the performance counters, halting, resuming and stepping a core, its debug registers and the
register space of a halted core (chapter 18). The doors to them, JTAG and the 0x0Bxx commands, stand in Jtag.lean and
Ozgan.lean. -/

namespace Sys2Proof.Machine

/-! ## Performance counters (R462, R463) -/

/-- An abandonable instruction of core c has been abandoned (R186, R189). -/
def State.abandoned (s : State) (c : CoreId) : State := (s.count (rLbAbn c) 0 16 1).pmCore c 6 1

/-- The activations of one tb cycle (CLASS 0), counted at the next edge. -/
def State.pmSources (s : State) (feed : List Nat) : State :=
  if feed.isEmpty then s else s.pmEvents (fun w => if !bit w 10 && feed.contains (bits w 0 10) then 1 else 0)

/-- A write of a counter's register. -/
def State.pmWrite (s : State) (n off : Nat) (v : Word) : State :=
  if off = 0 then
    -- event code 7 of CLASS 1 is undefined: SRC takes its reset value (R10)
    let t := s.writeRg false (rPm n 0) v
    if t.flag (rPm n 0) 10 && t.fld (rPm n 0) 0 3 == 7 then t.setFld (rPm n 0) 0 10 0 else t
  else if off = 8 ∧ bit v 31 then (s.setRg (rPm n 4) (sget 0 s.hwSet (rPm n 4))).setRg (rPm n 8) 0
  else s

/-- A read by master m: LO latches HI (R157). -/
def State.pmRead (s : State) (m n off : Nat) : Word × State :=
  if off = 4 then (s.rg (rPm n 4), s.snap m (rPm n 8) (s.rg (rPm n 8)))
  else if off = 8 then s.readHigh m (rPm n 8) (s.rg (rPm n 8))
  else (s.rg (rPm n off), s)

/-! ## Halting (R298, R458 to R461) -/

/-- A halt takes effect: the cause, and the units that matched. A main's halt halts its checker at the same count. -/
def State.dbgHaltNow (s : State) (c : CoreId) (cause hits : Nat) : State :=
  let s1 := s.setCore c { (s.core c).stop with haltReq := false, stepping := false }
  let s2 := (onesBelow hits 6).foldl (fun t u => t.hwFlag (rDbg c 4) (4 + u)) (s1.setFld (rDbg c 4) 1 3 cause)
  match s2.role c with
  | .main k =>
    let p := s2.pair k
    let s3 := s2.setPair k { p with haltAt := some p.cntM }
    if p.cntC = p.cntM then s3.stopCore (s3.checkerOf k) else s3
  | _ => s2

/-- A halt request (R458): taken at once at a boundary, else it waits for the next one. Whether it finds an abandonable instruction
before its commit point, which it abandons (R186, R189), is a free value: an instruction comes as one command (log entry 42). -/
def State.dbgHalt (s : State) (c : CoreId) : State :=
  let k := s.core c
  match k.run with
  | .running =>
    if k.noInt then s.setCore c { k with haltReq := true }
    else
      let r := s.takeFree
      (if r.1.getLsbD 0 then r.2.abandoned c else r.2).dbgHaltNow c 1 0
  | .waiting _ _ => if k.noInt then s.setCore c { k with haltReq := true } else s.dbgHaltNow c 1 0
  | .remote | .vector => s.setCore c { k with haltReq := true }
  | _ => s

/-- Core c is stopped by the redundancy manager, which alone sets it going again (R278, R287, R291). -/
def State.pairStopped (s : State) (c : Nat) : Bool :=
  (List.finRange 16).any (fun k => (s.mainOf k == c || s.checkerOf k == c) && s.pairDown k)

/-- A halted core goes on at its pc, for one instruction where `step` is true (R458, R460); a pair keeps its offset (R298). -/
def State.dbgGo (s : State) (c : CoreId) (step : Bool) : State :=
  let k := s.core c
  if k.run = .halted ∧ s.domReady c ∧ !s.pairStopped c then
    let s1 := s.setCore c { k with run := .running, haltReq := false, stepping := step, resumed := true, prefetched := false }
    match s1.role c with
    | .main p => (s1.setPair p { s1.pair p with haltAt := none }).goCore (s1.checkerOf p)
    | _ => s1
  else s

/-- An instruction boundary of core c, at which a step ends and a halt request is taken (R458, R460). -/
def State.boundary (s : State) (c : CoreId) : State :=
  let k := s.core c
  if k.run ≠ .running then s
  else if k.stepping then s.dbgHaltNow c 4 0
  else if k.haltReq && !k.noInt then s.dbgHaltNow c 1 0
  else s

/-- A fault is taken, and its entry ends at the boundary before the handler's first instruction. -/
def State.raise (s : State) (c : CoreId) (f : FaultRec) : State := (s.takeFault c f).boundary c

/-- The reads of an instruction that does not retire are made afresh (R279). -/
def State.resetIdx (s : State) (c : CoreId) : State :=
  match s.role c with
  | .solo => s
  | .main k => s.setPair k { s.pair k with idxM := 0 }
  | .checker k => s.setPair k { s.pair k with idxC := 0 }

/-- A fault of the instruction at hand, after cyc core cycles: it does not retire, and what it had prefetched is gone (R166, R205). -/
def State.instrFault (s : State) (c : CoreId) (cyc : Nat) (f : FaultRec) : State :=
  let s1 := (s.resetIdx c).setCore c { s.core c with cycles := (s.core c).cycles + cyc, prefetched := false, resumed := false }
  s1.raise c f

/-- STEPMASK keeps interrupts from being recognised during a step (R460). -/
def State.stepMasked (s : State) (c : CoreId) : Bool := (s.core c).stepping && s.flag (rDbg c 0) 3

/-- The entries whose E5 falls in this cycle are settled and read their vectors, and those that are over are dropped. -/
def State.entryEdge (s : State) : State :=
  let t := (s.entering.filter (fun e => decide (e.final = s.now))).foldl
    (fun (u : State) (e : Entering) => ((u.entryFinal e).entryVector e.core).boundary e.core) s
  { t with entering := t.entering.filter (fun e => decide (t.now < e.begins)) }

/-! ## Debug registers (Table 102) -/

/-- A write of a debug register; beyond those of Table 102 there is none. -/
def State.dbgRegWrite (s : State) (c : CoreId) (off : Nat) (v : Word) : State :=
  if off = 0 then
    let s1 := s.writeRg false (rDbg c 0) v
    let s2 := if bit v 1 then s1.dbgGo c false else if bit v 2 then s1.dbgGo c true else s1
    if bit v 0 then s2.dbgHalt c else s2
  else if off < 0x58 then s.writeRg false (rDbg c off) v else s

/-- A read of a debug register. -/
def State.dbgRegRead (s : State) (c : CoreId) (off : Nat) : Word :=
  let k := s.core c
  if off = 0 then setBit (s.rg (rDbg c 0)) 0 k.haltReq
  else if off = 4 then setBit (s.rg (rDbg c 4)) 0 (k.run == .halted)
  else if off = 8 then BitVec.ofNat 32 k.retired
  else if off < 0x58 then s.rg (rDbg c off) else 0

/-- The breakpoints that match an instruction address: in the bits that MASK does not ignore (Table 102; DEDUCED, log entry 35). -/
def State.bpHits (s : State) (c : CoreId) (pc : Word) : Nat :=
  (List.range 4).foldl (fun h u =>
    let b := 0x10 + 0xC * u
    let m := ~~~ s.rg (rDbg c (b + 4))
    if bits (s.rg (rDbg c (b + 8))) 0 3 = 1 ∧ s.rg (rDbg c b) &&& m = pc &&& m then h ||| 1 <<< u else h) 0

/-- The watchpoints that match the data accesses of an instruction: address, and true for a write. -/
def State.wpHits (s : State) (c : CoreId) (acc : List (Word × Bool)) : Nat :=
  if acc.isEmpty then 0
  else [4, 5].foldl (fun h u =>
    let b := 0x10 + 0xC * u
    let kind := bits (s.rg (rDbg c (b + 8))) 0 3
    if acc.any (fun a => (kind == 4 || kind == (if a.2 then 3 else 2)) &&
        s.rg (rDbg c b) == (a.1 &&& ~~~ s.rg (rDbg c (b + 4)))) then h ||| 1 <<< u else h) 0

/-! ## The registers of a halted core (Table 101) -/

/-- Register i of space 1. -/
def CoreState.dbgGet (k : CoreState) (i : Nat) : Word :=
  if h : i < 32 then k.w ⟨i, h⟩
  else if h : i < 44 then
    accPart (k.acc[(i - 32) / 3]'(by omega)) ((i - 32) % 3)
  else if i < 53 then
    match i with
    | 44 => k.st
    | 45 => k.lc[0]
    | 46 => k.ls[0]
    | 47 => k.le[0]
    | 48 => k.lc[1]
    | 49 => k.ls[1]
    | 50 => k.le[1]
    | 51 => k.pc
    | _ => BitVec.ofNat 32 k.rstack.length
  else
    match k.rstack[(i - 53) / 2]? with
    | some e => if i % 2 = 1 then e.addr else setBit (e.mask.setWidth 32) 16 e.world
    | none => 0

/-- Register i of space 1 written; the depth is read only. Every field of ST is writable (Table 101), the world bit of SC too, which
R15 keeps in the Service world otherwise (DESIGN CHOICE, log entry 43). -/
def CoreState.dbgPut (k : CoreState) (i : Nat) (v : Word) : CoreState :=
  if h : i < 32 then k.setW ⟨i, h⟩ v
  else if h : i < 44 then
    let j : Fin 4 := ⟨(i - 32) / 3, by omega⟩
    { k with acc := k.acc.set j (accPut k.acc[j] ((i - 32) % 3) v) }
  else if i < 53 then
    match i with
    | 44 => { k with st := v &&& 0x3F7F }
    | 45 => { k with lc := k.lc.set 0 v }
    | 46 => { k with ls := k.ls.set 0 v }
    | 47 => { k with le := k.le.set 0 v }
    | 48 => { k with lc := k.lc.set 1 v }
    | 49 => { k with ls := k.ls.set 1 v }
    | 50 => { k with le := k.le.set 1 v }
    | 51 => { k with pc := v, prefetched := false }
    | _ => k
  else
    match k.rstack[(i - 53) / 2]? with
    | some e =>
      let e' := if i % 2 = 1 then { e with addr := v } else { e with mask := v.extractLsb' 0 16, world := bit v 16 }
      { k with rstack := k.rstack.set ((i - 53) / 2) e' }
    | none => k

/-- The pair whose main is core c, from the end of the copy on: a checker has the main's state and follows it. -/
def State.dbgPair (s : State) (c : CoreId) : Option (Fin 16) :=
  (List.finRange 16).find? (fun k => s.mainOf k == c && (s.pairSt k == 3 || (s.paired k && (s.pairSt k == 0 || s.pairSt k == 4))))

/-- A write of the debugger to the main of a pair is logged with the count at which it was made, and replayed into the checker
at the same count (R298): space, then address, then value. Before the tick that ends a copy the count is that of the resumption, 0.
False when the log is full. -/
def State.dbgLogWrite (s : State) (c : CoreId) (space : Nat) (a : Word) (v : Word) : Bool × State :=
  match s.dbgPair c with
  | some k =>
    let p := s.pair k
    if 16 ≤ p.dbgLog.length then (false, s)
    else
      let n := if s.pairSt k = 3 then 0 else p.cntM
      (true, s.setPair k { p with dbgLog := p.dbgLog ++ [(n, space * 2 ^ 32 + a.toNat, v)] })
  | none => (true, s)

/-- A write of the debugger lands in core c: space 0 the local memory, 1 a register, 2 the private space. -/
def State.dbgLand (s : State) (c : CoreId) (space : Nat) (a v : Word) : State :=
  match space with
  | 0 => match s.ramWrite (locAddr c (a.toNat % 0x40000 / 4 * 4)) v 15 with
    | (.ok t, _) => t
    | (.error _, t) => t
  | 1 => s.setCore c ((s.core c).dbgPut a.toNat v)
  | _ => match s.privPut 57 c (s.core c).world true a.toNat v with
    | .ok t => t
    | .error _ => s

/-- The logged writes that fall due at the checker's count are made in it. -/
def State.dbgReplay (s : State) (k : Fin 16) : State :=
  let p := s.pair k
  let due := p.dbgLog.filter (fun e => decide (e.1 ≤ p.cntC))
  if due.isEmpty then s
  else
    let c := coreId (s.checkerOf k)
    due.foldl (fun t e => t.dbgLand c (e.2.1 / 2 ^ 32) (BitVec.ofNat 32 e.2.1) e.2.2)
      (s.setPair k { p with dbgLog := p.dbgLog.filter (fun e => !decide (e.1 ≤ p.cntC)) })

end Sys2Proof.Machine
end

