-- ==== Sys2Proof/Machine/Links.lean ====
section
/-! DEFINITION. Links.lean: Skaold links (chapter 16): flits, credits, events, numbering and routes, tick markers, the
link-side port, and the requests of remote windows. What a response does to its requester stands in Remote.lean. -/

namespace Sys2Proof.Machine

/-- The identity of a master (Table 6). -/
def masterId : Master → Nat
  | .core n => n
  | .sc => 36
  | .dma n => 37 + n
  | .link n => 53 + n
  | .debug => 57
  | .redundancy => 58
  | .ethRing => 59
  | .canRing => 60

def State.link (s : State) (n : Fin 4) : LinkState := s.links[n]
def State.setLink (s : State) (n : Fin 4) (l : LinkState) : State := { s with links := s.links.set n l }

/-- LKn_STAT.STATE: 0 DOWN, 1 TRAINING, 2 UP, 3 SLOW, 4 ABSENT, 5 FAULTY, 6 HOSTILE. -/
def State.lkState (s : State) (n : Fin 4) : Nat := s.fld (rLk n 4) 0 3
def State.setLkState (s : State) (n : Fin 4) (st : Nat) : State := s.setFld (rLk n 4) 0 3 st

/-- The link carries traffic. -/
def State.lkUp (s : State) (n : Fin 4) : Bool := (s.lkState n = 2 || s.lkState n = 3) && s.domReady (76 + n.val)

/-- An event of link n (Table 14). -/
def State.lkFire (s : State) (n : Fin 4) (k : Nat) : State := s.fire (832 + 16 * n.val + k)

/-- Flit slot of a trained link, and F − H (Table 88). -/
def State.lkSlot (s : State) (n : Fin 4) : Nat := if s.fld (rLk n 4) 4 2 = 2 then 17 else 82
def State.lkTail (s : State) (n : Fin 4) : Nat := if s.fld (rLk n 4) 4 2 = 2 then 8 else 32
def State.lkLat (s : State) (n : Fin 4) : Nat := s.fld (rLk n 4) 16 8

/-- The device's own number: the master and a single chip are device 0 (R416). -/
def State.devNum (s : State) : Option Nat :=
  if s.fld rTickCtl 0 2 ≠ 2 then some 0 else if s.flag rLkNum 3 then some (s.fld rLkNum 0 3) else none

/-- The links in ascending order. -/
def links4 : List (Fin 4) := List.finRange 4

/-! ## Flits (R412, R413, R414) -/

def flitWidth : Nat := 32

/-- A flit's 32 bytes (Table 89). -/
def mkFlit (ev : BitVec 64) (ty cred seq ack route : Nat) (tag : BitVec 16) (body : List Byte) : List Byte :=
  let head := natBytes 8 ev.toNat ++ [BitVec.ofNat 8 (ty + 16 * cred), BitVec.ofNat 8 seq, BitVec.ofNat 8 ack, BitVec.ofNat 8 route]
  let mid := head ++ natBytes 2 (crc16 head).toNat ++ natBytes 2 tag.toNat ++ (body ++ List.replicate 12 0).take 12
  mid ++ wordBytes (crc32 mid)

/-- A flit that carries new content is begun: SEQ moves on, owed credits and pending events travel with it. -/
def State.beginFlit (s : State) (n : Fin 4) (ty route : Nat) (tag : BitVec 16) (body : List Byte) : State :=
  let l := s.link n
  let cred := min 15 l.owe
  let f := mkFlit l.slots ty cred l.seq ((l.rxSeq + 255) % 256) route tag body
  s.setLink n { l with
    seq := (l.seq + 1) % 256, owe := l.owe - cred, slots := 0, last := f
    unack := (l.unack ++ [f]).drop (l.unack.length + 1 - flitWidth)
    quiet := l.quiet + 1, begun := s.now }

/-- A TICK flit is begun at this edge, from which its slots now count (R415). -/
def State.sendTick (s : State) (n : Fin 4) (num : Word) (period lat : Nat) : State :=
  let body := wordBytes num ++ natBytes 4 period ++ natBytes 2 lat ++ [0, 0]
  let s1 := s.beginFlit n 1 0 0 body
  s1.setLink n { s1.link n with slot0 := s.now, tick := none }

/-- The flits of a queue that may begin: one to be forwarded waits until it has been checked (R417). -/
def State.lkReady (s : State) : List FlitReq → List FlitReq
  | [] => []
  | c :: r => if c.since ≤ s.now then c :: r else []

/-- FLIT_TRANSMIT (R415): at a slot edge, in this order: a TICK flit that is due, a flit to be sent again, a flit that needs
no credit, numbering, a credited flit while a credit is held, else IDLE. The bytes of a NUMBER flit's body are not stated by
the spec: they are free values (log entry 21). -/
def State.transmit (s : State) (n : Fin 4) : State :=
  if !s.lkUp n then s
  else
    let l := s.link n
    match l.tick with
    | some (e, b) =>
      if e ≤ s.now then
        let s1 := s.beginFlit n 1 0 0 b
        s1.setLink n { s1.link n with slot0 := s.now, tick := none }
      else s
    | none =>
      match l.resend with
      | f :: r => s.setLink n { l with resend := r, last := f, quiet := l.quiet + 1, begun := s.now }
      | [] =>
        match s.lkReady l.ctl with
        | c :: r => (s.setLink n { l with ctl := r }).beginFlit n c.ty c.route c.tag c.body
        | [] =>
          match l.nums with
          | _ :: r =>
            let body := (List.range 12).map (fun i => Config.freeByte (s.free + i))
            ({ s with free := s.free + 12 }.setLink n { l with nums := r }).beginFlit n 7 0 0 body
          | [] =>
            match s.lkReady l.req with
            | c :: r =>
              if 0 < l.credit then (s.setLink n { l with req := r, credit := l.credit - 1 }).beginFlit n c.ty c.route c.tag c.body
              else s.beginFlit n 0 0 0 []
            | [] => s.beginFlit n 0 0 0 []

/-- The edge at which the next TICK flit of link n falls due, where it can be foreseen: the master's next tick, or the arrival
that a locked follower expects (R415). -/
def State.tickDue (s : State) : Option Nat :=
  let own := s.now + (s.framePeriod - s.fld rFramePos 0 23)
  match s.fld rTickCtl 0 2 with
  | 1 => if s.frameRuns then some own else none
  | 2 => match s.lostAt with
    | some e => some (e - 64)
    | none => if s.follows && s.frameRuns then some (own + s.tickLat) else none
  | _ => none

/-- A slot edge of link n at which no flit has begun yet. -/
def State.atSlot (s : State) (n : Fin 4) : Bool :=
  let l := s.link n
  s.lkUp n && decide (l.slot0 < s.now) && decide (l.begun < s.now) && decide ((s.now - l.slot0) % s.lkSlot n = 0)

/-- A flit begins on link n at this edge (R415): a TICK flit that is due, or at a slot edge any other that would not still be under
way when a TICK flit falls due. -/
def State.slotBegins (s : State) (n : Fin 4) : Bool :=
  let due := match (s.link n).tick with
    | some t => s.lkUp n && decide (t.1 ≤ s.now)
    | none => false
  let clear := match s.tickDue with
    | some e => !(decide (s.now ≤ e) && decide (e < s.now + s.lkSlot n))
    | none => true
  due || (s.atSlot n && clear)

def execFlitTransmit (n : Fin 4) (s : State) : Host.Outcome State Fault Refusal :=
  .next (if s.slotBegins n then s.transmit n else s)

/-- Four slots have passed without an acknowledgement, and flits wait for one (R413). -/
def State.resendDue (s : State) (n : Fin 4) : Bool :=
  s.lkUp n && decide (4 ≤ (s.link n).quiet) && !(s.link n).unack.isEmpty && (s.link n).resend.isEmpty

/-- FLIT_RESEND (R413): four slots without an acknowledgement. -/
def execFlitResend (n : Fin 4) (s : State) : Host.Outcome State Fault Refusal :=
  .next (if s.resendDue n then s.setLink n { s.link n with resend := (s.link n).unack, quiet := 0 } else s)

/-- A flit queued for link n. -/
def State.lkQueue (s : State) (n : Fin 4) (credited : Bool) (ty dst src : Nat) (tag : BitVec 16) (body : List Byte) : State :=
  let l := s.link n
  let f : FlitReq := ⟨ty, dst + 8 * src, tag, body, s.now⟩
  s.setLink n (if credited then { l with req := l.req ++ [f] } else { l with ctl := l.ctl ++ [f] })

/-- A receive entry frees, and its credit is owed (R414). -/
def State.lkFree (s : State) (n : Fin 4) : State :=
  let l := s.link n
  if l.held = 0 then s else s.setLink n { l with held := l.held - 1, owe := l.owe + 1 }

/-- The port is powered and enabled, so its slots take activations (R312). -/
def State.slotOn (s : State) (n : Fin 4) : Bool := s.domReady (76 + n.val) && s.flag (rLk n 0) 0

/-- Slot activation of an event consumer (R420). -/
def State.slotIn (s : State) (n : Fin 4) (j : Nat) : State :=
  let l := s.link n
  if s.slotOn n then s.setLink n { l with slotsNew := l.slotsNew ||| BitVec.ofNat 64 (2 ^ j) } else s

/-- The slots activated at the edge before may travel from this edge on; an activation of a slot that no flit has taken since the one
before is lost, and counts (R420). -/
def State.slotsEdge (s : State) : State :=
  links4.foldl (fun t n =>
    let l := t.link n
    let both := l.slots &&& l.slotsNew
    (if both = 0 then t else t.count (rLk n 0x1C) 0 16 ((List.range 64).countP (fun j => both.getLsbD j))).setLink n
      { l with slots := l.slots ||| l.slotsNew, slotsNew := 0 }) s

/-- The taps act on a received EVMASK (R421). -/
def State.tapsIn (s : State) (n : Fin 4) (ev : Nat) : State :=
  (List.range 8).foldl (fun t k =>
    let b := bits (t.rg (rLk n (0x10 + 4 * (k / 4)))) (8 * (k % 4)) 8
    if b.testBit 7 && ev.testBit (b % 64) then t.lkFire n k else t) s

/-! ## Numbering and routes (R416) -/

/-- Hops to device d over link n, by what its partner has announced. -/
def State.hopsOver (s : State) (n : Fin 4) (d : Nat) : Option Nat :=
  if s.lkUp n then ((s.link n).ann.find? (fun a => a.1 == d)).bind (fun a => if a.2 + 1 ≤ 3 then some (a.2 + 1) else none)
  else none

/-- The best link to device d: the fewest hops, then the lowest link. -/
def State.bestLink (s : State) (d : Nat) : Option (Fin 4 × Nat) :=
  links4.foldl (fun b n => match s.hopsOver n d with
    | none => b
    | some h => match b with
      | some x => if h < x.2 then some (n, h) else b
      | none => some (n, h)) none

/-- The link of LK_ROUTE for device d, where one is reachable. -/
def State.routeTo (s : State) (d : Nat) : Option (Fin 4) :=
  if s.flag rLkRoute (16 + d) then some ⟨s.fld rLkRoute (2 * d) 2 % 4, Nat.mod_lt _ (by decide)⟩ else none

/-- A numbering message to be sent on link n. -/
def State.lkSay (s : State) (n : Fin 4) (m : NumberMsg) : State :=
  if s.lkUp n then s.setLink n { s.link n with nums := (s.link n).nums ++ [m] } else s

/-- What a numbered device announces on its links: itself, and the devices it reaches over another link. -/
def State.announceAll (s : State) : State :=
  match s.devNum with
  | none => s
  | some me =>
    links4.foldl (fun t n =>
      let t1 := t.lkSay n (.announce ⟨me % 8, Nat.mod_lt _ (by decide)⟩ 0)
      (List.finRange 8).foldl (fun u (d : Fin 8) =>
        if d.val = me then u
        else match u.routeTo d.val with
          | some m => if m = n then u
              else u.lkSay n (.announce d ⟨u.fld rLkHops (2 * d.val) 2 % 8, Nat.mod_lt _ (by decide)⟩)
          | none => u) t1) s

/-- The routes are worked out (R416): LK_ROUTE and LK_HOPS; a follower that loses every route to the master loses its
number; one without a number that reaches the master asks for one. The number of a device that the master reaches no more is free
again. What changes is announced. -/
def State.reroute (s : State) : State :=
  let me := s.devNum
  let route := (List.range 8).foldl (fun w d =>
    if me = some d then w
    else match s.bestLink d with
      | some x => setBit (setBits w (2 * d) 2 x.1.val) (16 + d) true
      | none => w) (0 : Word)
  let hops := (List.range 8).foldl (fun w d =>
    if me = some d then w else match s.bestLink d with | some x => setBits w (2 * d) 2 x.2 | none => w) (0 : Word)
  let changed := decide (route ≠ s.rg rLkRoute) || decide (hops ≠ s.rg rLkHops)
  let s1 := (s.setRg rLkRoute route).setRg rLkHops hops
  let follower := s1.fld rTickCtl 0 2 = 2
  let gone := BitVec.ofNat 8 (bits (s.rg rLkRoute) 16 8) &&& ~~~ BitVec.ofNat 8 (bits route 16 8)
  let s2 := if follower ∧ !s1.flag rLkRoute 16 then
      { (s1.setFlag rLkNum 3 false).setFld rLkNum 0 3 0 with lkAsk := s1.lkAsk.filter (fun x => x.isSome) }
    else if follower then s1 else { s1 with lkUsed := s1.lkUsed &&& ~~~ gone }
  let s3 := if follower ∧ !s2.flag rLkNum 3 ∧ !s2.lkAsk.contains none then
      match s2.routeTo 0 with
      | some n => { s2.lkSay n (.request ⟨s2.fld rLkNum 4 3 % 8, Nat.mod_lt _ (by decide)⟩ 1) with lkAsk := s2.lkAsk ++ [none] }
      | none => s2
    else s2
  if changed then s3.announceAll else s3

/-- The number that the master grants: PREF when it is free, else the lowest free one (R416). -/
def State.grantNum (s : State) (pref : Nat) : Option Nat :=
  let free := fun (d : Nat) => !s.lkUsed.getLsbD d
  if 1 ≤ pref && decide (pref ≤ 7) && free pref then some pref else (List.range' 1 7).find? free

/-- A requester has not received its PREF: CLASH sets, where it prefers a number at all (R416). -/
def State.prefClash (s : State) : State := if s.fld rLkNum 4 3 = 0 then s else s.hwFlag rLkNum 8

/-- NUMBER_ANNOUNCE (R416). -/
def State.numberIn (s : State) (n : Fin 4) (m : NumberMsg) : State :=
  if !s.lkUp n then s
  else match m with
    | .announce d h =>
      let l := s.link n
      let s1 := s.setLink n { l with ann := (l.ann.filter (fun a => a.1 != d.val)) ++ [(d.val, h.val)] }
      let s2 := if h = 0 then (s1.setFld (rLk n 4) 8 3 d.val).setFlag (rLk n 4) 11 true else s1
      s2.reroute
    | .request pref hops =>
      if s.fld rTickCtl 0 2 ≠ 2 then
        if 3 < hops.val then s.lkSay n .noNumber
        else match s.grantNum pref.val with
          | some d => { s.lkSay n (.grant ⟨d % 8, Nat.mod_lt _ (by decide)⟩ (decide (d = pref.val))) with
              lkUsed := s.lkUsed ||| BitVec.ofNat 8 (2 ^ d) }
          | none => s.lkSay n .noNumber
      else match s.routeTo 0 with
        | some m => { s.lkSay m (.request pref ⟨(hops.val + 1) % 8, Nat.mod_lt _ (by decide)⟩) with lkAsk := s.lkAsk ++ [some n] }
        | none => s.lkSay n .noNumber
    | .grant d p =>
      match s.lkAsk with
      | some a :: r => { s with lkAsk := r }.lkSay a (.grant d p)
      | none :: r =>
        let s1 := ({ s with lkAsk := r }.setFld rLkNum 0 3 d.val).setFlag rLkNum 3 true
        let s2 := if p then s1 else s1.prefClash
        s2.reroute.announceAll
      | [] => s
    | .noNumber =>
      match s.lkAsk with
      | some a :: r => { s with lkAsk := r }.lkSay a .noNumber
      | none :: r => { s with lkAsk := r }.prefClash
      | [] => s

def execNumberAnnounce (n : Fin 4) (m : NumberMsg) (s : State) : Host.Outcome State Fault Refusal := .next (s.numberIn n m)

/-! ## Training and partner states (R416, R424) -/

def trainTime : Nat := 8000000
def retryTime : Nat := 80000000

/-- A port that is DOWN begins to train while EN is 1. -/
def State.train (s : State) (n : Fin 4) : State :=
  let s1 := ((s.cancelDue (.trainingTimeout n)).cancelDue (.trainingRetry n))
  if s1.flag (rLk n 0) 0 && s1.domReady (76 + n.val) then (s1.setLkState n 1).after trainTime (.trainingTimeout n)
  else s1.setLkState n 0

/-- A port leaves UP or SLOW, or starts afresh: what it held is discarded (R419), and the routes change. -/
def State.lkClear (s : State) (n : Fin 4) : State :=
  let l := s.link n
  let st := setBits (setBits (setBit (s.rg (rLk n 4)) 11 false) 8 3 0) 4 2 0
  ((s.setRg (rLk n 4) st).setLink n { linkFresh with errs := l.errs, flits := l.flits, breach := l.breach, last := l.last }).reroute

/-- TRAINING_COMPLETE (R416, R424). -/
def State.trained (s : State) (n : Fin 4) (gen lat : Nat) : State :=
  if (s.lkState n = 1 || s.lkState n = 4) && s.flag (rLk n 0) 0 && s.domReady (76 + n.val) then
    let g := max 1 (min gen (s.fld (rLk n 0) 2 2))
    let s1 := (s.cancelDue (.trainingTimeout n)).cancelDue (.trainingRetry n)
    let l := s1.link n
    let s2 := s1.setLink n { linkFresh with errs := l.errs, flits := l.flits, breach := l.breach, slot0 := s.now }
    let s3 := s2.setRg (rLk n 4) (setBits (setBits (setBits (s2.rg (rLk n 4)) 0 3 2) 4 2 g) 16 8 lat)
    let s4 := s3.lkFire n 8
    -- the master and a single chip hold number 0 from the first numbering on (log entry 21)
    let s5 := if s4.fld rTickCtl 0 2 ≠ 2 then (s4.setFlag rLkNum 3 true).setFld rLkNum 0 3 0 else s4
    (s5.reroute.announceAll).endJob (.retrain n) 0 [BitVec.ofNat 8 g]
  else s

def execTrainingComplete (n : Fin 4) (gen : Fin 3) (lat : Byte) (s : State) : Host.Outcome State Fault Refusal :=
  .next (s.trained n gen.val lat.toNat)

/-- TRAINING_TIMEOUT (R416): the partner is ABSENT, and training is tried again every 100 ms. -/
def execTrainingTimeout (n : Fin 4) (s : State) : Host.Outcome State Fault Refusal :=
  .next (if s.lkState n = 1 ∧ !s.notYet (.trainingTimeout n) then
      (((s.cancelDue (.trainingTimeout n)).setLkState n 4).lkFire n 10).after retryTime (.trainingRetry n)
    else s)

/-- TRAINING_RETRY (R424): another attempt; the port stays ABSENT until one succeeds. -/
def execTrainingRetry (n : Fin 4) (s : State) : Host.Outcome State Fault Refusal :=
  .next (if s.lkState n = 4 ∧ !s.notYet (.trainingRetry n) then (s.cancelDue (.trainingRetry n)).after retryTime (.trainingRetry n) else s)

/-- The oldest credited flit of an UP link has waited more than SLOWT microseconds for a credit (R424). -/
def State.slowDue (s : State) (n : Fin 4) : Bool :=
  match (s.link n).req with
  | f :: _ => decide ((s.link n).credit = 0) && decide (s.lkState n = 2) &&
      decide (f.since + max 1 (s.fld (rLk n 0) 16 16) * 800 < s.now)
  | [] => false

/-- PARTNER_SLOW (R424): a credited flit has waited more than SLOWT. -/
def execPartnerSlow (n : Fin 4) (s : State) : Host.Outcome State Fault Refusal :=
  .next (if s.slowDue n then (s.setLkState n 3).lkFire n 11 else s)

/-! ## The link-side port (R418, R329 to R331) -/

/-- A reply to the requester of a served access: the receive entry frees. -/
def State.lkReply (s : State) (n : Fin 4) (r : MemReq) (ty : Nat) (body : List Byte) : State :=
  let s1 := (s.lkFree n).lkQueue n false ty r.src.val r.dst.val r.tag body
  if ty = 5 then s1.count (rLk n 0x18) 0 16 1 else s1

def rspBody (data : Word) (status : Nat) : List Byte := wordBytes data ++ [BitVec.ofNat 8 status]

/-- The offset names no word of the shared SRAM, or the bank refuses the requester's world (R418). -/
def State.memBad (s : State) (r : MemReq) : Bool :=
  decide (r.offset.toNat % 4 ≠ 0) || decide (0x800000 ≤ r.offset.toNat) || s.bankRefuses r.service (sramBase + r.offset.toNat)

/-- What the core side does to a word: a write-back that is not queued, or a sparge that does not stand there, does nothing. -/
def State.coreSide (s : State) (a : Nat) (side : CoreSide) : CoreSide :=
  match side with
  | .writeBack => if s.wbq.any (fun w => w.addr == a) then side else .idle
  | .copy | .restore => if s.spargeHolds a then side else .idle
  | _ => side

/-- A same-word collision (Table 62) with core-side master m: what the core side leaves in the word, and the record. -/
def State.lkCollide (s : State) (n : Fin 4) (a kind : Nat) (m : Nat) (core : Option Word) : State :=
  let s1 := match core with
    | some w => s.sramPut a w
    | none => s
  s1.collision kind m n.val a

/-- A MEMRD is served: what is answered, with no answer where the quadrant is switched off. A write-back or a sparge's restore
counts as a write of what the word reads as (R330). -/
def State.serveRead (s : State) (n : Fin 4) (r : MemReq) (side : CoreSide) : State :=
  let a := sramBase + r.offset.toNat
  if !s.domReady (55 + r.offset.toNat / 0x100000 % 8) then s.lkFree n
  else match s.coreSide a side with
    | .write m d => (s.lkCollide n a 1 (masterId m) (some d)).lkReply n r 5 []
    | .atomic m d => (s.lkCollide n a 3 (masterId m) (some d)).lkReply n r 5 []
    | .writeBack => ((s.wbNow a).lkCollide n a 1 63 none).lkReply n r 5 []
    | .restore => (s.lkCollide n a 1 63 none).lkReply n r 5 []
    | _ =>
      let x := s.ramRead a
      match x.1 with
      | .ok w => x.2.lkReply n r 4 (rspBody w 0)
      | .error _ => x.2.lkReply n r 4 (rspBody 0 3)

/-- The link's write of a word, where it can be made. -/
def State.linkPut (s : State) (a : Nat) (r : MemReq) : State :=
  match s.ramWrite a r.data r.mask.toNat with
  | (.ok t, _) => t
  | (.error _, t) => t

/-- A MEMWR is served. A sparge's copy that meets it takes a mix of old and new bits into the save buffer, which serves the word from
then on (R331, R339). -/
def State.serveWrite (s : State) (n : Fin 4) (r : MemReq) (side : CoreSide) : State :=
  let a := sramBase + r.offset.toNat
  if !s.domReady (55 + r.offset.toNat / 0x100000 % 8) then s.lkFree n
  else match s.coreSide a side with
    | .write m d => (s.lkCollide n a 2 (masterId m) (some d)).lkReply n r 5 []
    | .atomic m d => (s.lkCollide n a 3 (masterId m) (some d)).lkReply n r 5 []
    | .restore => (s.lkCollide n a 2 63 none).lkReply n r 5 []
    | .read m => ({ (s.linkPut a r).lkCollide n a 0 (masterId m) none with collided := some (a, s.memWord a) }).lkReply n r 5 []
    | .copy =>
      let t := s.linkPut a r
      let f := t.takeFreeWord
      (f.2.lkCollide n a 0 63 (some ((s.memWord a &&& ~~~ f.1) ||| (t.memWord a &&& f.1)))).lkReply n r 5 []
    | .writeBack => (((s.wbCancel a).linkPut a r).lkCollide n a 4 63 none).lkReply n r 5 []
    | .idle =>
      match s.ramWrite a r.data r.mask.toNat with
      | (.ok t, _) => t.lkReply n r 4 (rspBody 0 0)
      | (.error _, t) => t.lkReply n r 4 (rspBody 0 3)

/-! ## Requests of remote windows (R31, R32, R417) -/

/-- The device of a remote-window address. -/
def remoteDev (a : Nat) : Nat := (a - 0x30000000) / 0x1000000
def isRemote (a : Nat) : Bool := decide (0x30000000 ≤ a) && decide (a < 0x38000000)

/-- A remote access goes out, or is refused at once (R31, R32, R416, R419). -/
def State.remoteIssue (s : State) (a : Nat) (write : Bool) (data : Word) (mask : BitVec 4) (world : Bool) (use : RemoteUse) :
    Except BusCause State :=
  let d := remoteDev a
  let off := a % 0x1000000
  if 0x800000 ≤ off ∨ s.devNum = some d then .error .denied
  else match s.devNum, s.routeTo d with
    | some me, some n =>
      if !s.lkUp n then .error .timeout
      else
        let body := natBytes 4 (off / 4 * 4) ++ (if write then wordBytes data else [0, 0, 0, 0]) ++
          [BitVec.ofNat 8 (mask.toNat + 16 * b2n world)]
        let r : RemoteReq := ⟨s.nextTag, n, BitVec.ofNat 32 a, write, data, mask, world, 0, s.now, use⟩
        let s1 := { s with remotes := s.remotes ++ [r], nextTag := s.nextTag + 1 }
        .ok ((s1.lkQueue n true (if write then 3 else 2) d me r.tag body).after 8192 (.remoteAccessTimeout r.tag))
    | _, _ => .error .timeout

/-! ## Tick markers (R64, R65, R415, R422) -/

/-- A locked follower forwards a marker at its arrival, filled from its own state (R415). -/
def State.forwardOwn (s : State) (from_ : Fin 4) (num : Word) : State :=
  links4.foldl (fun t m => if m = from_ || !t.lkUp m then t else t.sendTick m num (t.fld rFrameCtl 0 23) t.tickLat) s

/-- The tick number that a locked follower expects the next marker to carry. -/
def State.expectNum (s : State) : Word :=
  match s.markNum with
  | some n => n + 1
  | none => s.rg rFrameNum

/-- TICK_MARKER (R64 to R68, R415): the marker's arrival edge is this one. One that is not yet locked forwards what was
carried, once the flit is checked. -/
def State.tickMarker (s : State) (n : Fin 4) (num : Word) (period lat : Nat) : State :=
  if s.fld rTickCtl 0 2 ≠ 2 ∨ s.fld rTickCtl 2 2 ≠ n.val ∨ !s.lkUp n then s
  else
    let hop := s.lkLat n
    let s0 := s.lkFire n 15
    let s1 := if s0.follows then s0.forwardOwn n s0.expectNum
      else links4.foldl (fun t m =>
        if m = n || !t.lkUp m then t
        else t.setLink m { t.link m with
          tick := some (t.now + t.lkTail n, wordBytes num ++ natBytes 4 period ++ natBytes 2 (lat + hop + t.lkTail n) ++ [0, 0]) }) s0
    s1.markerIn num period (lat + hop) 0

/-- An accepted marker's flit of which the arrival has acted already (R412, R415): its body acts at the check, `ago` edges after the
arrival; a follower that is not locked forwards what was carried. -/
def State.tickBody (s : State) (n : Fin 4) (num : Word) (period lat ago : Nat) : State :=
  let hop := s.lkLat n
  let s1 := if s.follows then s
    else links4.foldl (fun t m =>
      if m = n || !t.lkUp m then t
      else t.setLink m { t.link m with
        tick := some (t.now, wordBytes num ++ natBytes 4 period ++ natBytes 2 (lat + hop + ago) ++ [0, 0]) }) s
  s1.markerIn num period (lat + hop) ago

def execTickMarker (n : Fin 4) (num : Word) (period : BitVec 23) (lat : BitVec 12) (s : State) :
    Host.Outcome State Fault Refusal := .next (s.tickMarker n num period.toNat lat.toNat)

/-- TICK (R45 to R51, R57, R64): the master's markers begin at the tick edge. -/
def State.tickAll (s : State) : State :=
  let t := s.frameTick
  if t.fld rTickCtl 0 2 = 1 then
    links4.foldl (fun u n => if u.lkUp n then u.sendTick n (u.rg rFrameNum) u.framePeriod 0 else u) t
  else t

/-- TICK: a frame that is stopped has none (R47). -/
def execTick (s : State) : Host.Outcome State Fault Refusal := .next (if s.frameRuns then s.tickAll else s)

/-! ## Packets on a link (R423) -/

/-- The Ozgan flits of a packet. -/
def ozFlits : Nat → Bool → List Byte → List (List Byte)
  | 0, _, _ => []
  | k + 1, first, bs =>
    let c := bs.take 11
    let r := bs.drop 11
    let b0 := c.length + 16 * b2n first + 32 * b2n r.isEmpty
    (BitVec.ofNat 8 b0 :: c) :: (if r.isEmpty then [] else ozFlits k false r)

/-- A packet is sent on link n. -/
def State.lkPacket (s : State) (n : Fin 4) (pkt : List Byte) : State :=
  if !s.lkUp n || pkt.isEmpty then s
  else (ozFlits pkt.length true pkt).foldl (fun t b => t.lkQueue n true 6 0 0 0 b) s

/-- Of the flits that wait, those of replies in session n fall out; `d` says whether the packet under way is one. -/
def dropReplies (n : BitVec 8) : Bool → List FlitReq → List FlitReq
  | _, [] => []
  | d, f :: r =>
    let first := (leAt f.body 0 1).testBit 4
    let d1 := if first then leAt f.body 4 1 == n.toNat && (leAt f.body 3 1).testBit 0 else d
    if f.ty == 6 && d1 then dropReplies n d1 r else f :: dropReplies n (if f.ty == 6 then d1 else d) r

/-- The replies in session n that link k has not begun to send are discarded (R402). -/
def State.lkUnsend (s : State) (k : Fin 4) (n : BitVec 8) : State :=
  s.setLink k { s.link k with req := dropReplies n false (s.link k).req }

/-- A write of LKn_OZTX: GO sends the packet that lies in SC's local memory. -/
def State.oztxWrite (s : State) (n : Fin 4) (v : Word) : State :=
  let s1 := s.writeRg false (rLk n 0x20) v
  if bit v 31 then
    s1.lkPacket n (s1.memBytes (locAddr 36 (s1.fld (rLk n 0x20) 0 18 / 4 * 4)) (s1.fld (rLk n 0x20) 18 13))
  else s1

/-- A reply packet that arrived goes to the buffer that LKn_OZRX names. -/
def State.lkReplyIn (s : State) (n : Fin 4) (pkt : List Byte) : State :=
  let a := s.fld (rLk n 0x24) 0 18 / 4 * 4
  let s1 := s.memLoad (locAddr 36 a) (pkt.take (localSize - min localSize a))
  (s1.setFld (rLk n 0x24) 18 13 pkt.length).hwFlag (rLk n 0x24) 31

end Sys2Proof.Machine
end

