-- ==== Sys2Proof/Machine/Power.lean ====
section
/-! DEFINITION. Power.lean: modes, power domains, resets, BOOT, waking and droop (chapter 17). -/

namespace Sys2Proof.Machine

/-! ## Resets (R443) -/

/-- An OTP command cut short (R370): a burn leaves a prefix of its words, a revoke its bit or not. -/
def State.otpAbort (s : State) : State :=
  match s.otpOp with
  | none => s
  | some (.burn key g img) =>
    let r := s.takeFreeWord
    let n := 4 * (1 + r.1.toNat % (img.length / 4 - 1))
    { r.2 with otp := otpPut r.2.otp (otpAt key g) (img.take n), otpOp := none }
  | some (.revoke b) =>
    let r := s.takeFree
    { (if r.1.getLsbD 0 then r.2.otpSetRevoke b else r.2) with otpOp := none }

/-- Registers of the always-on domain (R442, R453): the fences, SYS_RESET, WAKE_CTL, WAKE_STAT and the OTP shadow. -/
def aonReg (k : Nat) : Bool :=
  k == rRmFence 0 || k == rRmFence 1 || k == rRmGhost || k == rSysReset || k == rWakeCtl || k == rWakeStat || k == rOtpStat

/-- Every register and memory outside the always-on domain is cleared; what the outside world drives stands, and so do flash
and OTP. The counters of the model itself go on. -/
def State.coldReset (s0 : State) : State :=
  let s := ((List.finRange 5).foldl State.flAbort s0).otpAbort
  { State.reset with
    pending := s.pending
    now := s.now
    free := s.free
    regs := s.regs.filter (fun e => aonReg e.1)
    cmps := s.cmps.map (fun k => { cmpFresh with raw := k.raw })
    flash := s.flash
    flUndef := s.flUndef
    flEcc := s.flEcc
    flProg := s.flProg
    dfSecs := s.dfSecs
    prot := s.prot
    protPend := s.protPend
    protNew := s.protNew
    otp := s.otp
    pio := { State.reset.pio with level := s.pio.level, sync1 := s.pio.level, sync2 := s.pio.level, lane := s.pio.level }
    jtag := s.jtag
    cycled := s.cycled
    tested := s.tested }

/-- A reset with its cause, a bit of SYS_RESET (Table 96): the device stands before BOOT. -/
def State.resetWith (s : State) (cause : Nat) : State :=
  let t := s.coldReset
  (t.setFlag rSysReset cause true).setFlag rSysReset 5 false

def execPowerOnReset (s : State) : Host.Outcome State Fault Refusal := .next (s.resetWith 0)
def execPinReset (s : State) : Host.Outcome State Fault Refusal := .next (s.resetWith 2)

/-- ALWAYS_ON_SUPPLY_RESET: the always-on domain is reset too. -/
def execAlwaysOnSupplyReset (s : State) : Host.Outcome State Fault Refusal :=
  let t := s.coldReset
  .next (({ t with regs := [], jtag := State.reset.jtag, cycled := 0, tested := 0 }.setFlag rSysReset 0 true).setFlag rSysReset 1 true)

/-- The lowering of the protection level is completed (R367): flash is blank, the new level holds, the device resets. -/
def State.lowerDone (s : State) : State :=
  let t := s.coldReset.flWipe
  { (t.setFlag rSysReset 4 true).setFlag rSysReset 5 false with prot := s.protNew, protPend := false }

def execProtectionLoweringReset (s : State) : Host.Outcome State Fault Refusal := .next (if s.protPend then s.lowerDone else s)

/-- A write of SYS_RESET: its W1C fields act, and GO with the key resets the device, which keeps the register (R9, R442). -/
def State.sysResetWrite (s : State) (v : Word) : State :=
  if bit v 16 && decide (bits v 8 8 = 0x5A) then (s.writeRg false rSysReset v).resetWith 3 else s.writeRg false rSysReset v

/-! ## Modes (R435, Table 93) -/

/-- A self-test that runs only in DIAGNOSE is in progress (Table 87). -/
def State.diagBusy (s : State) : Bool :=
  s.oz.jobs.any (fun j => j.run && (match j.kind with | .test n _ => n == 8 || n == 9 | _ => false))

/-- Table 93 allows a request for mode m. -/
def State.modeAllowed (s : State) (m : Nat) : Bool :=
  match s.mode with
  | 2 => m == 3 || m == 4 || m == 5 || m == 0
  | 3 => m == 2 || m == 4
  | 4 => (m == 3 || m == 2 || m == 5 || m == 0) && !(List.range 6).any (fun i => s.shEnabled i && s.shHolds i)
  | 5 => (m == 2 || m == 4 || m == 0) && !s.diagBusy
  | _ => false

/-- EN and WAKE of comparator n in the active set (R121). -/
def State.cmpWakes (s : State) (n : Nat) : Bool := bit (s.cmpCfg n) 0 && bit (s.cmpCfg n) 4

/-- A comparator bank stays powered in DORMANT. -/
def State.bankKept (s : State) (b : Nat) : Bool :=
  s.domReady (80 + b) && (List.range 16).any (fun i => s.cmpWakes (16 * b + i))

/-- DORMANT is entered (R121, R158): every domain but the always-on one and the waking comparators' banks loses power; TS64 and
the comparators' settings, by which those that wake it stay powered, hold; every other section of the active set has its reset
contents (R486). -/
def State.dormant (s : State) : State :=
  let prev := s.mode
  let t := s.coldReset
  let t1 := { t with
    ts64 := s.ts64, active := s.active.filter (fun e => e.1 / 0x10000 == 8), cycled := BitVec.allOnes 36, tested := 0, oz := { t.oz with sent := s.oz.sent } }
  let t2 := (t1.setFld rSysMode 4 3 prev).setFld rSysMode 0 3 0
  let keep := BitVec.ofNat 32 (b2n (s.bankKept 0) <<< 16 + b2n (s.bankKept 1) <<< 17)
  let off := fun (u : State) (m : Nat) (w : Word) => (u.setRg (rPwrOn + 4 * m) w).setRg (rPwrRdy + 4 * m) w
  off (off (off t2 0 0) 1 0) 2 keep

/-- A request for mode m (R435): whether it succeeds, and the state. The mode changes at the next edge. -/
def State.requestMode (s : State) (m : Nat) : Bool × State :=
  if s.mode = m then (true, s)
  else if !s.modeAllowed m then (false, s.hwFlag rSysMode 12)
  else
    let t := if m = 4 then s.hwFlag rShCause 8 else s
    (true, { t with modeReq := some ⟨m % 8, Nat.mod_lt _ (by decide)⟩ })

/-- The mode that REQ asks for: the undefined codes 6 and 7 take its reset value (R10). -/
def modeCode (r : Nat) : Nat := if 5 < r then 0 else r

/-- A write of SYS_MODE (R435). -/
def State.sysModeWrite (s : State) (v : Word) : State :=
  let t := s.writeRg false rSysMode v
  if bit v 11 then (t.requestMode (modeCode (bits v 8 3))).2 else t

/-! ## Sensors (R451, R480, R488) -/

/-- TEMPERATURE_MEASUREMENT (R480): JT, OVER and the TEMP cause. -/
def State.tempIn (s : State) (t : BitVec 9) : State :=
  if s.mode = 0 then s
  else
    let jt := clampInt t.toInt (-128) 127
    let hot := decide ((s.fld rTemp 16 8 : Int) < t.toInt)
    let was := s.flag rTemp 24
    let s1 := (s.setFld rTemp 0 8 (BitVec.ofInt 8 jt).toNat).setFlag rTemp 24 hot
    if hot then (if was then s1 else s1.fire 987).shOccur 0 else s1

def execTemperatureMeasurement (t : BitVec 9) (s : State) : Host.Outcome State Fault Refusal := .next (s.tempIn t)

def execSharedSupplyLow (s : State) : Host.Outcome State Fault Refusal :=
  .next (if s.flag rDroopStat 24 || s.mode == 0 then s else ((s.setFlag rDroopStat 24 true).fire 978).shOccur 1)
def execSharedSupplyRestored (s : State) : Host.Outcome State Fault Refusal := .next (s.setFlag rDroopStat 24 false)

/-- A change of the rate of cluster k takes place at this edge c (R488): a step down is counted and activates 960 + k, a return to full
rate 969 + k, and what is counted in core cycles keeps its count (R5). -/
def State.rateStep (s : State) (k : Fin 9) (rate : Nat) : State :=
  let was := s.fld rDroopStat (2 * k.val) 2
  let t := s.retime ({ s with clkAt := s.clkAt.set k s.now }.setFld rDroopStat (2 * k.val) 2 rate)
  if was < rate then (t.count (rDroopCnt k) 0 16 1).fire (960 + k.val)
  else if rate = 0 then t.fire (969 + k.val)
  else t

/-- The changes of rate that fall due at this edge. -/
def State.rateEdge (s : State) : State :=
  (s.rateDue.filter (fun e => decide (e.1 ≤ s.now))).foldl (fun t e => t.rateStep e.2.1 e.2.2)
    { s with rateDue := s.rateDue.filter (fun e => decide (s.now < e.1)) }

/-- DROOP_STEP_DOWN (R451, R488): the sensor's output sampled at this edge calls for three-quarter rate, or for half. -/
def execDroopStepDown (k : Fin 9) (half : Bool) (s : State) : Host.Outcome State Fault Refusal :=
  let down := if half then 2 else 1
  .next (if s.rateLast k < down && s.mode != 0 then s.rateAsk k down else s)

/-- DROOP_RESTORE (R451, R488): this edge completes the 1,024 tb cycles and calls for one step up. -/
def execDroopRestore (k : Fin 9) (s : State) : Host.Outcome State Fault Refusal :=
  .next (if 0 < s.rateLast k && s.mode != 0 then s.rateAsk k (s.rateLast k - 1) else s)

/-! ## Power domains (R440, R441) -/

/-- Registers of a range return to their reset values. -/
def State.clearRegs (s : State) (lo n : Nat) : State := { s with regs := sclear s.regs lo n }

/-- The remap entries of a memory go (R336). -/
def State.dropRemap (s : State) (lo n : Nat) : State :=
  { s with remap := s.remap.filter (fun a => decide (a < lo) || decide (lo + n ≤ a)) }

/-- The memory of a domain loses its contents (R440), its remap entries and its sparge. -/
def State.memLost (s : State) (t : SpargeTarget) : State :=
  let a := spargeBase t
  let n := 64 * spargeRegions t
  let s1 := ((s.memUndef a n).dropRemap a n).setSpg t spargeFresh
  let s2 := { s1 with wbq := s1.wbq.filter (fun w => decide (w.addr < a) || decide (a + n ≤ w.addr)) }
  match t with
  | .quadrant q => (s2.setRg (rSram (0x40 + 4 * q.val)) 0).setFlag (rSram 0x110) q.val false
  | .local c => s2.setFld (rSram (0x60 + 4 * (c.val / 8))) (4 * (c.val % 8)) 4 0

/-- Core c as its domain resets it: registers, private space, debug registers, local memory. -/
def State.coreLost (s : State) (c : CoreId) : State :=
  ((s.setCore c (coreFresh (decide (c = 36)))).clearRegs (privKey c 0) 0x100000000).memLost (.local c)

/-- Converter n leaves its calibration group (R97). -/
def State.adcLost (s : State) (n : Fin 16) : State :=
  let g := reliefOf n
  let s1 := if (s.relief g).target == some n then s.calDrop g else s
  let s2 := s1.setRelief g { s1.relief g with
    queue := (s1.relief g).queue.erase n, requested := (s1.relief g).requested.erase n }
  (s2.setAdc n adcFresh).clearRegs (rAdc n 0x40) 0xC0

/-- What the loss of power does to the units of domain d (Table 95). Accesses on the way over a link fail at the next edge. -/
def State.domainOff (s : State) (d : Nat) : State :=
  if d < 36 then (s.spareLost d).coreLost (coreId d)
  else if d = 36 then { s.coreLost 36 with oz := ozFresh, stalls := s.stalls.filter (fun w => w.use != .ozgan) }
  else if d < 53 then s.adcLost ⟨(d - 37) % 16, Nat.mod_lt _ (by decide)⟩
  else if d < 55 then
    let g : Fin 2 := ⟨(d - 53) % 2, Nat.mod_lt _ (by decide)⟩
    s.reliefLost g
  else if d < 63 then s.memLost (.quadrant ⟨(d - 55) % 8, Nat.mod_lt _ (by decide)⟩)
  else if d < 68 then
    let b : Fin 5 := ⟨(d - 63) % 5, Nat.mod_lt _ (by decide)⟩
    (s.flAbort b).clearRegs (rFl b 0) 0x40
  else if d < 76 then
    let g : Fin 8 := ⟨(d - 68) % 8, Nat.mod_lt _ (by decide)⟩
    (((s.setPg g pgFresh).setSd g sdFresh).clearRegs (rPg g 0) 0x400).clearRegs (rSdData g) 0x10
  else if d < 80 then
    let n : Fin 4 := ⟨(d - 76) % 4, Nat.mod_lt _ (by decide)⟩
    let s1 := (s.cancelDue (.trainingTimeout n)).cancelDue (.trainingRetry n)
    let s2 := ((s1.setLink n linkFresh).clearRegs (rLk n 0) 0x100)
    s2.reroute
  else if d < 82 then
    (List.finRange 16).foldl (fun t i =>
      let n : Fin 32 := ⟨(16 * (d - 80) + i.val) % 32, Nat.mod_lt _ (by decide)⟩
      (t.setCmp n { cmpFresh with raw := (t.cmp n).raw }).clearRegs (rCmpStat n) 8) s
  else if d = 82 then ({ s with eths := Vector.replicate 2 ringFresh }).clearRegs baseEth 0x10000
  else if d = 83 then
    { s with cans := Vector.replicate 6 ringFresh, uarts := Vector.replicate 3 ⟨[], []⟩
             oz := { s.oz with spih := [], refusal := none, spihOut := [] } }.clearRegs baseIf 0x10000
  else
    -- every register of the block goes back to its reset value but those of the always-on domain; a pair that is RETIRED stays so
    let s1 := s.pairsOff
    { s1 with regs := s1.regs.filterMap (fun e =>
        if baseRm ≤ e.1 ∧ e.1 < baseRm + 0x300 ∧ !aonReg e.1 then
          (if 0x100 ≤ e.1 - baseRm ∧ (e.1 - baseRm) % 0x20 = 0x08 ∧ bits e.2 0 3 = 6 then some (e.1, 6) else none)
        else some e) }

/-- Domain d is switched on, by PWR_ON. -/
def State.domOn (s : State) (d : Nat) : Bool := s.bitOf rPwrOn d

def domFin (d : Nat) : Fin 85 := ⟨d % 85, Nat.mod_lt _ (by decide)⟩

/-- A write of 1 to a PWR_ON bit: a domain that was only about to be switched off stays on. -/
def State.powerOn (s : State) (d : Nat) : State :=
  if s.domOn d then s
  else if s.offDue.getLsbD d then { s.putBit rPwrOn d true with offDue := s.offDue &&& ~~~ BitVec.ofNat 85 (2 ^ d) }
  else
    { s.putBit rPwrOn d true with faulted := s.faulted &&& ~~~ BitVec.ofNat 85 (2 ^ d) }.after 16000 (.domainReady (domFin d))

/-- The write of 0 is ignored (R440). -/
def State.offRefused (s : State) (d : Nat) : Bool :=
  d == 36 ||
  (decide (d < 36) && (match s.role d with | .solo => false | _ => true)) ||
  (decide (63 ≤ d) && decide (d < 68) && s.flBusy ⟨(d - 63) % 5, Nat.mod_lt _ (by decide)⟩)

/-- Domain d is no longer on its way. -/
def State.switchSettled (s : State) (d : Nat) : State :=
  { s.cancelDue (.domainReady (domFin d)) with faultDue := s.faultDue.filter (fun e => e.2 != domFin d) }

/-- Domain d loses power, switched off or faulted. -/
def State.domainLost (s : State) (d : Nat) : State :=
  (((s.domainOff d).putBit rPwrOn d false).putBit rPwrRdy d false).switchSettled d

/-- A write of 0 to a PWR_ON bit: the domain goes off at the next edge. -/
def State.powerOff (s : State) (d : Nat) : State :=
  if !s.domOn d then s
  else if s.offRefused d then (s.hwFlag rPwrStat 0).setFld rPwrStat 16 7 d
  else { s.putBit rPwrOn d false with offDue := s.offDue ||| BitVec.ofNat 85 (2 ^ d) }

/-- Domain d is held off after a switch fault (R440). -/
def State.switchLost (s : State) (d : Fin 85) : State :=
  let s1 := { s.domainLost d.val with faulted := s.faulted ||| BitVec.ofNat 85 (2 ^ d.val) }
  (((s1.hwFlag rPwrStat 1).setFld rPwrStat 8 7 d.val).fire 988).shOccur 2

/-- SC's domain is cycled after a lockup (R438): it loses power, and is ready again 16,000 tb cycles later. -/
def State.scCycle (s : State) : State :=
  if s.boot.scDown && (s.core 36).run == .lockup then ((s.domainOff 36).putBit rPwrRdy 36 false).after 16000 (.domainReady 36) else s

/-- The self-test of SC's domain after it has been switched on again, at its end (R441), but for a restart, which tells its result itself:
whether it passes is a free value, since no command brings it (log entry 43). -/
def State.scTestEdge (s : State) : State :=
  match (s.core 36).testEnd with
  | some e =>
    if e ≤ s.now ∧ !s.boot.scDown then
      let r := s.takeFree
      let t := (r.2.setCore 36 { r.2.core 36 with testEnd := none }).putBit rPwrBist 36 (r.1.getLsbD 0)
      if r.1.getLsbD 0 then t.memZero (locAddr 36 0) localSize else t
    else s
  | none => s

/-- The domains switched off in the cycle before go off, and those that are not ready in time are held off (R440). -/
def State.powerEdge (s0 : State) : State :=
  let s := s0.scCycle.scTestEdge
  let t := if s.offDue = 0 then s else (onesBelow s.offDue.toNat 85).foldl State.domainLost { s with offDue := 0 }
  (t.faultDue.filter (fun e => decide (e.1 ≤ t.now))).foldl (fun u e => u.switchLost e.2) t

/-- A write of PWR_ONm. -/
def State.pwrOnWrite (s : State) (m : Nat) (v : Word) : State :=
  (List.range 32).foldl (fun t i =>
    let d := 32 * m + i
    if 84 < d then t else if bit v i then t.powerOn d else t.powerOff d) s

/-- DOMAIN_READY (R440, R441, R113, R121). -/
def State.domainUp (s : State) (d : Nat) : State :=
  if !s.domOn d || s.domReady d || s.notYet (.domainReady (domFin d)) then s
  else
    let s1 := (s.putBit rPwrRdy d true).switchSettled d
    if d < 37 then
      let m : BitVec 36 := BitVec.ofNat 36 (2 ^ d)
      let c := coreId d
      { s1.setCore c { s1.core c with testEnd := some (s1.now + s1.coreTb d 56576) } with
        cycled := s1.cycled ||| m, tested := s1.tested &&& ~~~ m }
    else if 37 ≤ d ∧ d < 53 then s1.adcUp ⟨(d - 37) % 16, Nat.mod_lt _ (by decide)⟩
    else if 68 ≤ d ∧ d < 76 then
      let g : Fin 8 := ⟨(d - 68) % 8, Nat.mod_lt _ (by decide)⟩
      s1.setSd g { s1.sd g with lastBit := s1.now }
    else if 76 ≤ d ∧ d < 80 then s1.train ⟨(d - 76) % 4, Nat.mod_lt _ (by decide)⟩
    else if d = 80 ∨ d = 81 then
      (List.finRange 32).foldl (fun t (n : Fin 32) =>
        if n.val / 16 = d - 80 && bit (t.cmpCfg n) 0 then t.cmpEnable n else t) s1
    else s1

def execDomainReady (d : Fin 85) (s : State) : Host.Outcome State Fault Refusal := .next (s.domainUp d.val)

/-- SWITCH_FAULT (R440): a domain that is ready loses it; one that is still on its way, to be ready 16,000 cycles after its switch-on,
will not become ready, which is the fault when 80,000 have passed. -/
def State.switchFault (s : State) (d : Fin 85) : State :=
  if !s.domOn d.val || s.faultDue.any (fun e => e.2 == d) then s
  else match s.due.find? (fun p => p.2 == .domainReady d && decide (s.now < p.1)) with
    | some p => { s.cancelDue (.domainReady d) with faultDue := s.faultDue ++ [(p.1 + 64000, d)] }
    | none => s.switchLost d

def execSwitchFault (d : Fin 85) (s : State) : Host.Outcome State Fault Refusal := .next (s.switchFault d)

/-- The result of a core's start-up self-test (R441, R297). -/
def State.bistResult (s : State) (n : Nat) (pass : Bool) : State :=
  let s1 := s.putBit rPwrBist n pass
  if pass then { s1 with tested := s1.tested ||| BitVec.ofNat 36 (2 ^ n) } else s1.fence n

/-- The start-up self-test of core c runs and its 56,576 core cycles are over (R441). -/
def State.testOver (s : State) (c : CoreId) : Bool :=
  match (s.core c).testEnd with
  | some e => decide (e ≤ s.now)
  | none => false

/-- STARTUP_SELF_TEST_COMPLETE (R441): a core that passes stands halted with its local memory cleared. -/
def execStartupSelfTestComplete (n : Fin 36) (pass : Bool) (s : State) : Host.Outcome State Fault Refusal :=
  let c := coreId n.val
  .next (if s.domReady n.val && s.testOver c then
      let t := s.setCore c { s.core c with testEnd := none }
      (if pass then t.memZero (locAddr c 0) localSize else t).bistResult n.val pass
    else s)

/-! ## BOOT (R444 to R449) -/

/-- n bytes of code flash; none where a unit cannot be corrected. Undefined units read as free values. -/
def State.slotBytes (s : State) (a n : Nat) : Option (List Byte) :=
  if s.flEcc.any (fun e => e.2 && decide (a ≤ e.1 + 15) && decide (e.1 < a + n)) then none
  else some ((List.range n).map (fun i => if s.flIsUndef (a + i) then Config.freeByte (s.free + i) else s.flByte (a + i)))

/-- An entry of a manifest (Table 98). -/
structure SlotEntry where
  core   : Nat
  flags  : Nat
  off    : Nat
  len    : Nat
  entry  : Nat
  digest : List Byte
  deriving DecidableEq, Repr

def slotBase (slot : Bool) : Nat := if slot then 0x800000 else 0

/-- The manifest of a slot, where its fixed fields are legal. -/
def State.manifest (s : State) (slot : Bool) : Option (List Byte) :=
  match s.slotBytes (slotBase slot) 80 with
  | none => none
  | some h =>
    let n := leAt h 6 2
    if leAt h 0 4 = 0x88404D46 ∧ leAt h 4 2 = 1 ∧ 1 ≤ n ∧ n ≤ 37 ∧ leAt h 8 4 = 0 ∧ leAt h 12 4 = 80 + 48 * n then
      s.slotBytes (slotBase slot) (80 + 48 * n)
    else none

/-- The digest that is signed and that IMAGE_INFO reports (R445). -/
def manifestDigest (m : List Byte) : List Byte := sha256 (m.take 16 ++ m.drop 80)

def slotEntries (m : List Byte) : List SlotEntry :=
  (List.range (leAt m 6 2)).map (fun i =>
    let b := slice m (80 + 48 * i) 48
    ⟨leAt b 0 1, leAt b 1 1, leAt b 4 4, leAt b 8 4, leAt b 12 4, slice b 16 32⟩)

/-- Every field of the entries is legal (Table 98). -/
def entriesLegal (m : List Byte) : Bool :=
  let l := slotEntries m
  let pad := (List.range (leAt m 6 2)).all (fun i => leAt m (80 + 48 * i + 2) 2 == 0)
  pad && l.all (fun e => decide (e.core ≤ 36) && decide (e.flags ≤ 1) && decide (e.off % 16 = 0) && decide (e.len % 16 = 0) &&
      decide (e.len ≤ 0x2FF80) && decide (e.off + e.len ≤ 0x800000) && decide (e.entry % 4 = 0) && decide (e.entry < 0x2FF80)) &&
    decide ((l.map (fun e => e.core)).eraseDups.length = l.length)

/-- The ECC errors that a read of code flash meets are reported (R350). -/
def State.slotNote (s : State) (a n : Nat) : State :=
  (s.flEcc.filter (fun e => decide (a ≤ e.1 + 15) && decide (e.1 < a + n))).foldl
    (fun t e => t.eccLater 24 (0x10000000 + e.1) e.2) s

/-- Steps 5 and 6 from one slot (R446): its entries where it is valid, those of SC alone for the sources SPI host and link (R449). The
images are copied as they are read, so they stand in local memory where a digest then fails too; entries of fenced cores are
skipped, and an image that cannot be read is not copied (DESIGN CHOICE, log entry 43). -/
def State.slotTry (s0 : State) (slot : Bool) (scOnly : Bool) : Option (List SlotEntry) × State :=
  let s := s0.slotNote (slotBase slot) (match s0.manifest slot with | some m => m.length | none => 80)
  match s.manifest slot with
  | none => (none, s)
  | some m =>
    let signed := match s.manifestKey with
      | none => true
      | some k => ecdsaVerifies k (manifestDigest m) (slice m 16 64)
    if !entriesLegal m || !signed then (none, s)
    else
      let l := ((slotEntries m).filter (fun e => !scOnly || e.core == 36)).map (fun e =>
        (e, s.slotBytes (slotBase slot + e.off) e.len))
      let t := l.foldl (fun u p =>
        let v := u.slotNote (slotBase slot + p.1.off) p.1.len
        if u.fenced p.1.core then v else v.memLoad (locAddr p.1.core 0) (p.2.getD [])) s
      if l.all (fun p => match p.2 with | some b => sha256 b == p.1.digest | none => false) then (some (l.map Prod.fst), t)
      else (none, t)

/-- Steps 5 and 6 from the slot of the configuration record, and where that one is invalid and FALLBACK is 1 from the other, which sets
FELLBACK (R445, R446): the slot, its entries, and the state. -/
def State.slotChoice (s : State) : Option (Bool × List SlotEntry) × State :=
  let b := (s.cfgByte 8).toNat
  let scOnly := b % 4 = 1 ∨ b % 4 = 2
  let first := b.testBit 2
  match s.slotTry first scOnly with
  | (some l, t) => (some (first, l), t)
  | (none, t) =>
    if b.testBit 3 then
      let r := (t.setFlag rBootStat 3 true).slotTry (!first) scOnly
      (r.1.map (fun l => (!first, l)), r.2)
    else (none, t)

/-- Steps 5 and 6 (R445 to R449). Without a valid slot SC runs the recovery engine. -/
def State.bootImages (s : State) : State :=
  let src := match (s.cfgByte 8).toNat % 4 with | 3 => 0 | n => n
  let s1 := (s.setFld rBootStat 0 2 src).setFlag rBootStat 4 s.manifestKey.isNone
  let dig := fun (x : Bool) => match s.manifest x with | some m => manifestDigest m | none => List.replicate 32 0
  let s2 := { s1 with boot := { s1.boot with digA := dig false, digB := dig true } }
  match s2.slotChoice with
  | (none, t) => { (t.setFlag rBootStat 5 true).setFlag rBootStat 2 ((s.cfgByte 8).getLsbD 2) with
      boot := { t.boot with start := [], scOk := true } }
  | (some (slot, l), t) =>
    let go := l.filter (fun e => e.core == 36 || (e.flags == 1 && !t.fenced e.core))
    { t.setFlag rBootStat 2 slot with boot := { t.boot with
        start := go.map (fun e => (e.core, BitVec.ofNat 32 e.entry)), scOk := l.any (fun e => e.core == 36) } }

/-- An address of shared SRAM or of a local memory. -/
def isRam (a : Nat) : Bool :=
  isSram a || (decide (locAddr 0 0 ≤ a) && decide (a < locAddr 37 0) && decide ((a - locAddr 0 0) % 0x40000 < localSize))

/-- The units that fail their march, each once. -/
def bootUnits (f : BootFindings) : List Nat := ((f.failing.filter isRam).map eccUnit).eraseDups

/-- The units for which their memory has no remap entry left (R336). -/
def bootLost (f : BootFindings) : List Nat :=
  ((bootUnits f).zipIdx.filter (fun p =>
    let r := remapField p.1
    decide (r.2.2 ≤ (((bootUnits f).take p.2).filter (fun a => (remapField a).1 == r.1 && (remapField a).2.1 == r.2.1)).length))).map Prod.fst

/-- The local memory of core n fails its march beyond its remap entries. -/
def bootLostIn (f : BootFindings) (n : Nat) : Bool :=
  (bootLost f).any (fun a => decide (locAddr n 0 ≤ a) && decide (a < locAddr n localSize))

/-- Steps 3 and 4 (R337, R338, R336, R448): what the tests have found; every memory holds zeros, but for a quadrant that is held off;
the units that fail get remap entries, and those beyond the entries stay in place, to be corrected on every read; the data flash is
recovered. -/
def State.bootTests (s : State) (f : BootFindings) : State :=
  let s1 := (((s.setRg (rSram 0x1C) (f.checkerFailQ.setWidth 32)).setRg (rSram 0x20) (f.checkerFailL.setWidth 32)).setRg
    (rSram 0x24) ((f.checkerFailL >>> 32).setWidth 32))
  let s2 := (s1.setFlag rBootStat 6 (f.checkerFailQ != 0 || f.checkerFailL != 0)).setFlag rBootStat 7
    (!(bootLost f).isEmpty)
  let s2a := (bootUnits f).foldl State.remapAlloc { s2 with mem := [], poison := [], remap := [] }
  let s3 := { s2a with ecc := ((bootLost f).filter isSram).foldl (fun l a => sinsert a false l) [] }
  let s4 := (List.range 36).foldl (fun t n =>
    let t1 := t.bistResult n (!f.coreFail.getLsbD n)
    if f.checkerFailL.getLsbD n || bootLostIn f n then t1.fence n else t1) s3
  let s5 := s4.putBit rPwrBist 36 (!f.coreFail.getLsbD 36)
  let s6 := (List.range 8).foldl (fun t q =>
    if f.checkerFailQ.getLsbD q then t.domainLost (55 + q) else t) s5
  let r := s6.dfRecover
  if r.1 then (r.2.setFlag rBootStat 9 true).fire 947 else r.2

/-- SC cannot run (R448): BOOT does not end. -/
def scFails (f : BootFindings) : Bool := f.checkerFailL.getLsbD 36 || bootLostIn f 36 || f.coreFail.getLsbD 36

/-- From step 2's lock to the end of step 6. -/
def State.bootGo (s : State) (f : BootFindings) : State :=
  let s1 := (s.tbLock.setFlag rBootStat 8 false).bootTests f
  let s2 := s1.bootImages
  { s2 with boot := { s2.boot with wait := none, ready := !scFails f } }

/-- POWER_GOOD (R444): BOOT runs to the end of step 6, or to the wait for a link reference at step 2. An interrupted lowering
of the protection level is completed first. -/
def State.powerGood (s : State) (f : BootFindings) : State :=
  if s.mode ≠ 1 ∨ s.boot.ready ∨ s.otpLoaded then s
  else if s.protPend then s.lowerDone
  else
    let s1 := { s.otpLoad with boot := { s.boot with since := s.now } }
    let s2 := links4.foldl State.train s1
    if s2.fld rTbCtl 0 2 = 1 then { s2.setFlag rBootStat 8 true with boot := { s2.boot with wait := some f } }
    else s2.bootGo f

def execPowerGood (f : BootFindings) (s : State) : Host.Outcome State Fault Refusal := .next (s.powerGood f)

/-- PLL_LOCK (R482, R444). -/
def execPllLock (s : State) : Host.Outcome State Fault Refusal :=
  .next (match s.boot.wait with
    | some f => s.bootGo f
    | none => if s.mode = 0 ∨ (s.mode = 1 ∧ !s.boot.ready) then s else s.tbLock)

/-- Core c begins at an address with the register state of R197. -/
def State.startCore (s : State) (c : CoreId) (a : Word) : State :=
  s.setCore c { coreFresh (decide (c = 36)) with pc := a, run := .running, cycles := (s.core c).cycles, retired := (s.core c).retired }

/-- SC begins: at its image's entry, or in the recovery engine, which the model gives the address 0. -/
def State.startSc (s : State) : State :=
  match s.boot.start.find? (fun e => e.1 == 36) with
  | some e => s.startCore 36 e.2
  | none => if s.boot.scOk then s.startCore 36 0 else s

/-- BOOT_END (R447, R450): COMMISSION, the frame, the cores. -/
def State.bootEnd (s : State) : State :=
  if s.mode ≠ 1 ∨ !s.boot.ready then s
  else
    let s1 := (s.setFlag rFrameCtl 24 true).setFld rBootStat 16 16 (min 0xFFFF ((s.now - s.boot.since) / 800))
    let s2 := { (s1.setRg rFramePos 0).setRg rFrameNum 0 with framePeriod := s1.fld rFrameCtl 0 23 }.setMode 2
    let s3 := (s2.boot.start.filter (fun e => e.1 != 36)).foldl (fun t e => t.startCore (coreId e.1) e.2) s2
    let s4 := s3.startSc
    if s4.boot.woken then { s4.fire 986 with boot := { s4.boot with woken := false } } else s4

def execBootEnd (s : State) : Host.Outcome State Fault Refusal := .next s.bootEnd

/-- The restart of SC has come to its end (R438): its domain is ready again, and the self-test and then the copy, of 294,912 tb cycles,
are over. -/
def State.scRestartOver (s : State) : Bool :=
  s.boot.scDown && s.domReady 36 && (match (s.core 36).testEnd with
    | some e => decide (e + 294912 ≤ s.now)
    | none => false)

/-- SC_RESTART_COMPLETE (R438): SC's domain has been cycled and tested, its image is copied and its digest checked, which the model
computes from the flash. -/
def State.scRestart (s : State) (pass : Bool) : State :=
  if !s.scRestartOver then s
  else
    let s1 := { s.setCore 36 { s.core 36 with testEnd := none } with boot := { s.boot with scDown := false } }
    let s2 := (if pass then s1.memZero (locAddr 36 0) localSize else s1).putBit rPwrBist 36 pass
    let slot := s2.flag rBootStat 2
    -- the recovery engine has no image (R446)
    if s2.flag rBootStat 5 then (if pass then s2.startSc else s2)
    else match (s2.manifest slot).bind (fun m => (slotEntries m).find? (fun e => e.core == 36)) with
      | none => s2
      | some e =>
        let s3 := s2.slotNote (slotBase slot + e.off) e.len
        match s3.slotBytes (slotBase slot + e.off) e.len with
        | some b =>
          let s4 := s3.memLoad (locAddr 36 0) b
          if pass && decide (sha256 b = e.digest) then s4.startSc else s4
        | none => s3

/-- The operand digestOk is what the digest shows, which the model computes itself. -/
def execScRestartComplete (pass _digestOk : Bool) (s : State) : Host.Outcome State Fault Refusal := .next (s.scRestart pass)

/-! ## Waking (R450) -/

/-- A source may wake the device: enabled in WAKE_CTL. -/
def State.mayWake (s : State) : WakeSource → Bool
  | .comparator n => s.flag rWakeCtl 16 && s.cmpWakes n && s.domReady (80 + n.val / 16)
  | .nwake => s.flag rWakeCtl 0
  | .link n => s.flag rWakeCtl (4 + n.val)
  | .spih => s.flag rWakeCtl 1

/-- WAKE_STAT for a source. -/
def wakeWord : WakeSource → Word
  | .comparator n => BitVec.ofNat 32 (1 + n.val <<< 8)
  | .nwake => 2
  | .link n => BitVec.ofNat 32 (3 + n.val <<< 13)
  | .spih => 4

/-- WAKE: BOOT begins with every domain on; TS64 and the fences stand. A source that qualifies while DORMANT is being entered ends the
entry. The comparators that stayed powered begin a hold-off
until BOOT gives both sets their reset contents. -/
def State.wakeUp (s0 : State) (w : WakeSource) : State :=
  let s := if s0.modeNext = some 0 then s0.dormant else s0
  if s.mode ≠ 0 ∨ !s.mayWake w then s0
  else
    let s1 := (s.setRg rWakeStat (wakeWord w)).setFlag rSysReset 5 true
    let s2 := (s1.clearRegs rPwrOn 0x20).setMode 1
    let s3 := { s2 with boot := { s2.boot with woken := true } }
    (List.finRange 32).foldl (fun t (n : Fin 32) => if bit (t.cmpCfg n) 0 then t.cmpEnable n else t) s3

def execWake (w : WakeSource) (s : State) : Host.Outcome State Fault Refusal := .next (s.wakeUp w)

/-! ## Registers (R453) -/

/-- A write of the system and modes block below UNIT_OWN. -/
def State.sysWrite (s : State) (off : Nat) (v : Word) : State :=
  if off = 0x000 then s.sysModeWrite v
  else if off = 0x004 then s.sysResetWrite v
  else s.writeRg false (baseSys + off) v

/-- What it reads as: SH_CAUSE shows the conditions that hold now. -/
def State.sysRead (s : State) (off : Nat) : Word :=
  if off = 0x00C then (List.range 6).foldl (fun w i => setBit w (16 + i) (s.shHolds i)) (s.rg rShCause)
  else s.rg (baseSys + off)

/-- A write of the power registers. -/
def State.pwrWrite (s : State) (off : Nat) (v : Word) : State :=
  if off < 0x00C then s.pwrOnWrite (off / 4) v
  else if 0x140 ≤ off ∧ off < 0x164 then (if bit v 31 then s.setFld (basePwr + off) 0 16 0 else s)
  else s.writeRg false (basePwr + off) v

end Sys2Proof.Machine
end

