-- ==== Sys2Proof/Machine/LinkFail.lean ====
section
/-! DEFINITION. LinkFail.lean: links that leave UP or SLOW, quarantine (R424, R425), remote accesses that fail (R418, R419), and
the registers of the link block (R433). -/

namespace Sys2Proof.Machine

/-! ## Inputs of a pair (R279) -/

/-- Pair k runs and is checked. -/
def State.checking (s : State) (k : Fin 16) : Bool := s.paired k && (s.pairSt k == 0 || s.pairSt k == 4)

/-- The main of a pair latches an input that it has read; for a failed access, the cause. -/
def State.agreePush (s : State) (c : CoreId) (v : Word) (cause : Option BusCause) : State :=
  match s.role c with
  | .main k =>
    if s.checking k then
      let p := s.pair k
      let e : AgreeEntry := ⟨p.cntM, p.idxM, v, cause.map (fun b => ⟨causeCode b % 5, Nat.mod_lt _ (by decide)⟩)⟩
      s.setPair k { p with agree := p.agree ++ [e], idxM := p.idxM + 1 }
    else s
  | _ => s

/-! ## Remote accesses that end (R418, R419) -/

/-- A remote access is over. -/
def State.remoteDrop (s : State) (tag : BitVec 16) : State :=
  ({ s with remotes := s.remotes.filter (fun r => r.tag != tag) }).cancelDue (.remoteAccessTimeout tag)

/-- The core whose memory state ends goes on at this instruction, from its first clock edge at or after this one (R169). -/
def State.remoteBack (s : State) (c : CoreId) : State :=
  let k := s.core c
  if k.run = .remote then s.setCore c { k with run := .running, cycles := k.cycles + b2n (!s.coreCycle c) } else s

/-- The memory state of core c ends with a bus error. -/
def State.remoteFault (s : State) (c : CoreId) (f : FaultRec) (cause : BusCause) : State :=
  if (s.core c).run = .remote then ((s.remoteBack c).agreePush c 0 (some cause)).instrFault c 0 f else s

/-- What an access of address a was made for, once it has failed. -/
def State.useFail (s : State) (use : RemoteUse) (a : Word) (cause : BusCause) : State :=
  match use with
  | .load c op _ => s.remoteFault c (faultBus cause op.ea) cause
  | .store c op _ second => s.remoteFault c { faultBus cause (if second then a else op.ea) with part := second } cause
  | .ret c _ _ => s.remoteFault c (faultBus cause a) cause
  | .dmaRead n | .dmaWrite n => s.dmaError n
  | .command => s.refuse cause
  | .ozgan => { s with oz := { s.oz with memo := s.oz.memo ++ [(some cause, 0)] } }
  | .debug => { s with jtag := { s.jtag with stat := if cause = .denied then 2 else 3 } }
  | .sluice => s

/-- A remote access fails. -/
def State.remoteFail (s : State) (r : RemoteReq) (cause : BusCause) : State := (s.remoteDrop r.tag).useFail r.use r.addr cause

/-- The accesses outstanding on link n fail with timeout. -/
def State.failLink (s : State) (n : Fin 4) : State :=
  (s.remotes.filter (fun r => r.link == n)).foldl (fun t r => t.remoteFail r .timeout) s

/-! ## States of a port (R424) -/

/-- The port takes a state without traffic: DOWN 0, FAULTY 5 or HOSTILE 6. -/
def State.lkLeave (s : State) (n : Fin 4) (st : Nat) : State :=
  let s1 := ((s.cancelDue (.trainingTimeout n)).cancelDue (.trainingRetry n)).setLkState n st
  (s1.lkClear n).failLink n

/-- DOWN, and training again at once while EN is 1. -/
def State.lkRetrain (s : State) (n : Fin 4) : State :=
  if s.lkState n = 6 then s else (s.lkLeave n 0).train n

/-- LANE_LOCK_LOST (R424). -/
def execLaneLockLost (n : Fin 4) (s : State) : Host.Outcome State Fault Refusal :=
  .next (if s.lkUp n then ((s.lkLeave n 0).lkFire n 9).train n else s)

def tbPerSecond : Nat := 800000000

/-- ERROR_LIMIT_BREACH (R424): the port retrains; a second breach within 1 s of that retraining makes the partner FAULTY. -/
def State.lkBreach (s : State) (n : Fin 4) : State :=
  if !s.lkUp n ∨ (s.link n).errs ≤ s.fld (rLk n 0x0C) 0 8 then s
  else
    let s1 := s.setLink n { s.link n with errs := 0, flits := 0, breach := some s.now }
    let again := match (s.link n).breach with
      | some e => decide (s.now ≤ e + tbPerSecond)
      | none => false
    if again then ((s1.setLink n { s1.link n with breach := none }).lkLeave n 5).lkFire n 12
    else (s1.count (rLk n 8) 16 8 1).lkRetrain n

def execErrorLimitBreach (n : Fin 4) (s : State) : Host.Outcome State Fault Refusal := .next (s.lkBreach n)

/-- A hostile act (R425): the flits of the reply already due are sent, and the port is quarantined. HCAUSE 1 tag, 2 DENIED access, 3
credit. -/
def State.quarantine (s : State) (n : Fin 4) (cause : Nat) (due : List FlitReq) : State :=
  if !s.lkUp n then s
  else
    let s1 := due.foldl (fun (t : State) q => t.beginFlit n q.ty q.route q.tag q.body) s
    ((s1.lkLeave n 6).setFld (rLk n 4) 24 4 cause).lkFire n 13

/-- LINK_UNQUARANTINE lifts the quarantine and trains the port again. -/
def State.unquarantine (s : State) (n : Fin 4) : State := if s.lkState n = 6 then (s.setLkState n 0).train n else s

/-! ## Registers -/

/-- Replies that waited for LKn_OZRX.FULL to clear (R423): the oldest takes the buffer, or the held entries free. -/
def State.ozrxFree (s : State) (n : Fin 4) : State :=
  let l := s.link n
  match l.ozWait with
  | p :: r => (s.setLink n { l with ozWait := r }).lkReplyIn n p
  | [] => s.setLink n { l with held := l.held - l.ozHeld, owe := l.owe + l.ozHeld, ozHeld := 0 }

/-- A write of LKn_CTL. A quarantined port stays so (R424). -/
def State.lkCtlWrite (s : State) (n : Fin 4) (v : Word) : State :=
  let was := s.flag (rLk n 0) 0
  let s1 := s.writeRg false (rLk n 0) v
  if s1.lkState n = 6 then s1
  else if !bit v 0 then (if was then s1.lkLeave n 0 else s1)
  else if bit v 1 then s1.lkRetrain n
  else if !was then s1.train n
  else s1

/-- RETRAIN (R424): LKn_CTL.RETRAIN written with 1. -/
def State.lkRetrainWrite (s : State) (n : Fin 4) : State := s.lkCtlWrite n (setBit (s.rg (rLk n 0)) 1 true)

/-- A write of a register of the link block. -/
def State.lkWrite (s : State) (off : Nat) (v : Word) : State :=
  if h : off < 0x400 then
    let n : Fin 4 := ⟨off / 0x100, by omega⟩
    match off % 0x100 with
    | 0x00 => s.lkCtlWrite n v
    | 0x08 => if bit v 31 then ((s.setRg (rLk n 8) 0).setRg (rLk n 0x18) 0).setRg (rLk n 0x1C) 0 else s
    | 0x20 => s.oztxWrite n v
    | 0x24 =>
      let full := s.flag (rLk n 0x24) 31
      let s1 := s.writeRg false (rLk n 0x24) v
      if full && !s1.flag (rLk n 0x24) 31 then s1.ozrxFree n else s1
    | q => s.writeRg false (rLk n q) v
  else s.writeRg false (baseLk + off) v

end Sys2Proof.Machine
end

