-- ==== Sys2Proof/Machine/Bus.lean ====
section
/-! DEFINITION. Bus.lean: the address map (Table 8) as each master sees it, the registers of the peripheral blocks with who
may write them, and the register rows of the table. Remote windows are answered by the link (Links.lean). -/

namespace Sys2Proof.Machine

/-- The answer of a write: refused with a cause, or performed; and the state after it. -/
abbrev BusW := Option BusCause × State

/-- The command engine, which runs on SC in the Service world at supervisor level, and the debug port as masters. -/
def scCtx : Ctx := ⟨36, 36, true, true, true, false⟩
def debugCtx : Ctx := ⟨57, 57, true, true, true, true⟩

/-- How a master presents itself, a core and SC in their current worlds and levels (R250); none for those that reach no register
(R37, Table 6). -/
def State.ctxMaster (s : State) (m : Master) : Option Ctx :=
  match m with
  | .core n => some (s.ctxOf (coreId n))
  | .sc => some (s.ctxOf 36)
  | .dma n => some (s.dmaCtx n)
  | .debug => some debugCtx
  | _ => none

/-! ## Who may write -/

/-- A write that SC and the debug port alone may make. -/
def onlyFree (x : Ctx) (s t : State) : BusW := if x.free then (none, t) else (some .denied, s)

/-- A write that changes nothing and that no rule refuses: to a hole, or to a register whose fields are all RO (R7, Table 4). -/
def ignored (s : State) : BusW := (none, s)

/-- Registers of the converter block that R103 lets nobody write: SLOTs, SDg_CTL, SDg_SYNC, SDg_DATA and RLx_STAT. -/
def calSetReg (o : Nat) : Bool :=
  (decide (o < 0x1000) && decide (o % 0x100 < 0x40)) || o == 0x1010 || o == 0x1014 ||
  (decide (0x2000 ≤ o) && decide (o < 0x2080) && decide (o % 0x10 < 8)) ||
  (decide (0x2100 ≤ o) && decide (o < 0x2180) && decide (o % 0x10 = 0))

/-- A write to a register of unit u (R35). -/
def State.unitMay (s : State) (x : Ctx) (u : Nat) : Bool :=
  let w := s.rg (rUnitOwn u)
  x.free || (decide (x.owner = bits w 0 6) && (x.world == bit w 6) && (!bit w 7 || x.level))

def State.byUnit (s : State) (x : Ctx) (u : Nat) (t : State) : BusW := if s.unitMay x u then (none, t) else (some .denied, s)

/-- A write to a PWM timer: an owner that claims either pin, in the claiming world (R161). -/
def State.ptMay (s : State) (x : Ctx) (n : Nat) : Bool :=
  x.free || (decide (x.owner < 37) && (s.claimIn x.owner x.world (2 * n) || s.claimIn x.owner x.world (2 * n + 1)))

/-! ## Peripheral blocks -/

/-- The domain that a register lies in, where it can be off (Table 95, R34). PE_CLKk of a group, and the flash registers that the
banks share (DF_MAP, DF_HEALTH and the like), answer while the domain of that group or bank is off: R34 does not say that they time
out (DESIGN CHOICE, log entry 43). -/
def periphDom (blk o : Nat) : Option Nat :=
  match blk with
  | 4 =>
    if o < 0x1000 then some (37 + o / 0x100)
    else if o = 0x1010 then some 53
    else if o = 0x1014 then some 54
    else if 0x2000 ≤ o ∧ o < 0x2080 then some (68 + (o - 0x2000) / 0x10)
    else if 0x2100 ≤ o ∧ o < 0x2180 then some (68 + (o - 0x2100) / 0x10)
    else none
  | 5 => if o < 0x400 ∧ 0x10 ≤ o % 0x20 then some (80 + o / 0x200) else none
  | 7 => if o < 0x2000 then some (68 + o / 0x400) else none
  | 10 => if o < 0x140 then some (63 + o / 0x40) else none
  | 12 => if 0x00C ≤ o ∧ o < 0x018 then none else some 84
  | 13 => if o < 0x400 then some (76 + o / 0x100) else none
  | 14 => some 82
  | 15 => some 83
  | _ => none

def fin (n m : Nat) (h : 0 < n) : Fin n := ⟨m % n, Nat.mod_lt _ h⟩

/-- A word of 32 channel bits as reader x may see it. -/
def State.chMask (s : State) (x : Ctx) (m : Nat) (w : Word) : Word :=
  (List.range 32).foldl (fun v i => if bit w i && s.chVisible x (32 * m + i) then setBit v i true else v) 0

/-- A read of the fabric block (R316, R317, R322). -/
def State.fabRead (s : State) (x : Ctx) (o : Nat) : Word :=
  if o < 0x8000 then s.act 1 o
  else if o < 0x8600 then s.act 2 (o - 0x8000)
  else if 0x9000 ≤ o ∧ o < 0x9800 then s.act 3 (o - 0x9000)
  else if 0xA000 ≤ o ∧ o < 0xA800 then s.act 4 (o - 0xA000)
  else if 0xC100 ≤ o ∧ o < 0xC140 then s.chMask x ((o - 0xC100) / 4 % 8) (s.rg (baseFab + o))
  else if 0xC140 ≤ o ∧ o < 0xC160 then
    let m := (o - 0xC140) / 4
    s.chMask x m (s.fab.stage.extractLsb' (32 * m) 32)
  else if 0xD000 ≤ o ∧ o < 0xD400 then (if s.chVisible x ((o - 0xD000) / 4) then s.rg (baseFab + o) else 0)
  else if 0xE000 ≤ o ∧ o < 0xE200 then
    let n := (o - 0xE000) / 4
    let c := s.cell n
    let v := sget (c.out) (s.cellVals.map (fun e => (e.1, e.2.out))) n
    BitVec.ofNat 32 (b2n v + 2 * b2n c.q + (if s.fab.swapped then sget 1 s.cellDepths n else 0) <<< 8 + c.k <<< 16)
  else s.rg (baseFab + o)

/-- A read of a peripheral register by x. A read may act: it latches a high word, or removes a FIFO's oldest entry. -/
def State.periphRead (s : State) (x : Ctx) (blk o : Nat) : Word × State :=
  match blk with
  | 0 =>
    if o < 0x400 then (s.sysRead o, s)
    else if 0x8000 ≤ o ∧ o < 0x8000 + 0x100 * 36 then
      let c := coreId (s.holder ((o - 0x8000) / 0x100))
      let k := s.core c
      match o % 0x100 with
      | 0xA0 => ((List.finRange 16).foldl (fun (w : Word) (i : Fin 16) =>
          setBit (setBit w i.val (s.smpFresh c i false)) (16 + i.val) (s.smpFresh c i true)) 0, s)
      | 0xA4 => ((List.finRange 8).foldl (fun (w : Word) (j : Fin 8) => setBit w j.val (k.duty[j]).isSome) (s.rg (baseSys + o)), s)
      | _ => (s.rg (baseSys + o), s)
    else (s.rg (baseSys + o), s)
  | 1 => (s.rg (baseTb + o), s)
  | 2 => if h : o < 0x3000 then (s.ptRead ⟨o / 0x100, by omega⟩ (o % 0x100), s) else (0, s)
  | 3 =>
    if h : o < 0x1000 then s.gtRead x.id ⟨o / 0x80, by omega⟩ (o % 0x80)
    else if o = 0x1000 then s.tsRead x.id false
    else if o = 0x1004 then s.tsRead x.id true
    else (0, s)
  | 4 => if h : o < 0x1000 then s.adcRead ⟨o / 0x100, by omega⟩ (o % 0x100) else (s.calRead o, s)
  | 5 => if h : o < 0x400 then (s.cmpRead ⟨o / 0x20, by omega⟩ (o % 0x20), s)
         else if o = 0x400 then (s.latchSum, s) else (0, s)
  | 6 => (s.fabRead x o, s)
  | 7 =>
    if h : o < 0x2000 then s.pgRead ⟨o / 0x400, by omega⟩ (o % 0x400)
    else if o = 0x2000 then (s.pio.lane, s)
    else if 0x3000 ≤ o ∧ o < 0x3100 then (s.act 9 (o - 0x3000), s)
    else (s.rg (basePe + o), s)
  | 8 => if 0x2000 ≤ o ∧ o < 0x2000 + 0x20 * 1536 then (s.act 11 (o - 0x2000), s)
    else if h : o < 0x100 ∧ o % 0x10 = 0 then (s.dmaCtlRead ⟨o / 0x10, by omega⟩, s)
    else (s.rg (baseDma + o), s)
  | 9 => (s.rg (baseSram + o), s)
  | 10 =>
    if o = 0x200 then (s.flProtWord, s)
    else if o = 0x344 then (s.dfEst, s)
    else if o = 0x34C then (s.dfInfo, s)
    else (s.rg (baseFl + o), s)
  | 11 =>
    if o = 0 then (s.otpStat, s)
    else if 0x4000 ≤ o ∧ o < 0x8000 then (leWord ((List.range 4).map (fun i => s.otpRead (o - 0x4000 + i))), s)
    else (s.rg (baseOtp + o), s)
  | 12 => (s.rmRead o, s)
  | 13 => (s.rg (baseLk + o), s)
  | 14 => if h : o < 0x2000 then s.ethRead x.id ⟨o / 0x1000, by omega⟩ (o % 0x1000) else (0, s)
  | 15 => s.ifRead o
  | 16 => if o < 0x400 then s.pmRead x.id (o / 0x10) (o % 0x10) else (0, s)
  | _ => (s.rg (basePwr + o), s)

/-- A write of the system block: bindings (R248), units (R35), the rest (R453). -/
def State.sysBlockWrite (s : State) (x : Ctx) (o : Nat) (v : Word) : BusW :=
  if o < 0x400 then onlyFree x s (s.sysWrite o v)
  else if h : 0x8000 ≤ o ∧ o < 0x8000 + 0x100 * 36 then
    let n : Fin 36 := ⟨(o - 0x8000) / 0x100, by omega⟩
    let q := o % 0x100
    if q < 0x40 then onlyFree x s (s.sbindWrite n (fin 16 (q / 4) (by decide)) v)
    else if q < 0x60 then onlyFree x s (s.dbindWrite n (fin 8 ((q - 0x40) / 4) (by decide)) v)
    else if q = 0xA4 ∨ q = 0xA8 then
      if x.free ∨ (x.owner = n.val ∧ x.id < 36) then
        (none, if q = 0xA8 then (if bit v 31 then s.setRg (rCpSfcnt n) 0 else s) else s.writeRg false (rCpStage n) v)
      else (some .denied, s)
    else onlyFree x s (s.writeRg false (baseSys + o) v)
  else onlyFree x s (s.writeRg false (baseSys + o) v)

/-- A write of the comparator block (R122). A write of the set registers (CMPn_THR, CMPn_CFG, CMPn_RAMP, CMPn_SLOPE), which Table 4
calls RO, is ignored from SC and the debug port and refused from every other master (DESIGN CHOICE, log entry 43: R122 does not say
which of both holds). -/
def State.cmpBlockWrite (s : State) (x : Ctx) (o : Nat) (v : Word) : BusW :=
  if h : o < 0x400 then
    let n : Fin 32 := ⟨o / 0x20, by omega⟩
    if 0x10 ≤ o % 0x20 then s.byUnit x (84 + n.val) (s.cmpWrite n (o % 0x20) v) else onlyFree x s s
  else if o = 0x400 then
    let mine := (List.finRange 32).filter (fun n => s.unitMay x (84 + n.val))
    if mine.isEmpty then (some .denied, s)
    else (none, (mine.filter (fun n => bit v n.val && s.domReady (80 + n.val / 16))).foldl (fun t n => t.latchClear n) s)
  else ignored s

/-- A write of the fabric's runtime registers (R315 to R322). -/
def State.fabWrite (s : State) (x : Ctx) (o : Nat) (v : Word) : BusW :=
  let c := fin 256 (bits v 0 8) (by decide)
  let res := fun (r : Except BusCause State) => match r with | .ok t => (none, t) | .error e => (some e, s)
  if o = 0xC000 then res (s.fireChannel x c)
  else if o = 0xC004 then res (s.rearmChannel x c)
  else if 0xC120 ≤ o ∧ o < 0xC140 then
    let m := (o - 0xC120) / 4
    let v' := (List.range 32).foldl (fun w i => if bit v i && s.coincMayClear x (32 * m + i) then setBit w i true else w) (0 : Word)
    (none, s.writeRg false (baseFab + o) v')
  else if 0xF000 ≤ o ∧ o < 0xF100 ∧ o % 8 = 4 then
    onlyFree x s (if bit v 31 then
      { s with fab := { s.fab with evClr := s.fab.evClr ||| BitVec.ofNat 32 (2 ^ ((o - 0xF000) / 8)) } } else s)
  else if o = 0xC008 ∨ (0xC200 ≤ o ∧ o < 0xC260) then onlyFree x s (s.writeRg false (baseFab + o) v)
  -- the writes of a master that may not see a channel are ignored (R316, R317); those of one that may are refused (R322)
  else if 0xC100 ≤ o ∧ o < 0xC160 then
    if (List.range 32).any (fun i => s.chVisible x (32 * ((o - 0xC100) / 4 % 8) + i)) then onlyFree x s s else ignored s
  else if 0xD000 ≤ o ∧ o < 0xD400 then (if s.chVisible x ((o - 0xD000) / 4) then onlyFree x s s else ignored s)
  -- the words of the active set change only at a swap: "any other write" is refused (R322)
  else if o < 0xA800 then (some .denied, s)
  else onlyFree x s s

/-- A write of PIO_OUT or PIO_DIR: the bits of the groups that x may write (R390). -/
def State.pioWrite (s : State) (x : Ctx) (o : Nat) (v : Word) : BusW :=
  let mine := (List.range 8).filter (fun g => s.unitMay x (48 + g))
  if mine.isEmpty then (some .denied, s)
  else
    let w := mine.foldl (fun w g => setBits w (4 * g) 4 (bits v (4 * g) 4)) (s.rg (basePe + o))
    (none, s.setRg (basePe + o) w)

/-- A write of the pin-engine block. -/
def State.peWrite (s : State) (x : Ctx) (o : Nat) (v : Word) : BusW :=
  if h : o < 0x2000 then
    let g : Fin 8 := ⟨o / 0x400, by omega⟩
    if s.unitMay x (48 + g.val) then
      match s.pgWrite x.id g (o % 0x400) v with
      | .ok t => (none, t)
      | .error t => (some .denied, t)
    else (some .denied, s)
  else if o = 0x2004 ∨ o = 0x2008 then s.pioWrite x o v
  else ignored s

/-- A write of the flash block (R351, R367, R372). -/
def State.flWrite (s : State) (x : Ctx) (o : Nat) (v : Word) : BusW :=
  if h : o < 0x140 then
    let b : Fin 5 := ⟨o / 0x40, by omega⟩
    -- a core with its bit in DF_OWN issues the data flash's commands, their unit and data with them (R351)
    if x.free || (b == 4 && decide (x.id < 36) && x.level && s.bitOf (rDfOwn 0) x.owner) then
      (none, if o % 0x40 = 0 then s.flCmdWrite b (bits v 0 3) else s.writeRg false (baseFl + o) v)
    else (some .denied, s)
  else if o = 0x200 then onlyFree x s (s.flProtWrite (x.free && !x.debug) v)
  else onlyFree x s (s.writeRg false (baseFl + o) v)

/-- A write of a peripheral register by x; one to an offset that holds no register is ignored, whoever makes it (R7). -/
def State.periphWrite (s : State) (x : Ctx) (blk o : Nat) (v : Word) : BusW :=
  if isHole blk o then ignored s
  else match blk with
  | 0 => s.sysBlockWrite x o v
  | 1 => onlyFree x s (s.tbWrite o v)
  | 2 =>
    if h : o < 0x3000 then
      let n : Fin 48 := ⟨o / 0x100, by omega⟩
      if o % 0x100 < 0x40 then (some .denied, s)
      else if s.ptMay x n.val then (none, s.ptWrite n (o % 0x100) v) else (some .denied, s)
    else ignored s
  | 3 =>
    if h : o < 0x1000 then
      let n : Fin 32 := ⟨o / 0x80, by omega⟩
      if o % 0x80 < 0x20 then ignored s else s.byUnit x n.val (s.gtWrite n (o % 0x80) v)
    else ignored s
  | 4 =>
    if calSetReg o then (some .denied, s)
    else if h : o < 0x1000 then
      let n : Fin 16 := ⟨o / 0x100, by omega⟩
      s.byUnit x (68 + n.val) (s.adcWrite n (o % 0x100) v)
    else if o = 0x1004 then onlyFree x s (s.calReqWrite v)
    else if 0x2100 ≤ o ∧ o < 0x2180 ∧ o % 0x10 = 4 then
      s.byUnit x (48 + (o - 0x2100) / 0x10) (s.writeRg false (baseAdc + o) v)
    else onlyFree x s (s.writeRg false (baseAdc + o) v)
  | 5 => s.cmpBlockWrite x o v
  | 6 => s.fabWrite x o v
  | 7 => s.peWrite x o v
  | 8 =>
    if h : o < 0x100 then
      let n : Fin 16 := ⟨o / 0x10, by omega⟩
      s.byUnit x (32 + n.val) (if o % 0x10 = 0 then s.dmaCtlWrite n v else s.writeRg false (baseDma + o) v)
    else ignored s
  | 9 => onlyFree x s (if o = 0x108 then s.spgReqWrite v else s.writeRg false (baseSram + o) v)
  | 10 => s.flWrite x o v
  | 11 => onlyFree x s (if o = 0x004 then s.otpCmdWrite v else s.writeRg false (baseOtp + o) v)
  | 12 => onlyFree x s (s.rmWrite o v)
  | 13 => onlyFree x s (s.lkWrite o v)
  | 14 =>
    if h : o < 0x2000 then s.byUnit x (66 + o / 0x1000) (s.ethWrite ⟨o / 0x1000, by omega⟩ (o % 0x1000) v)
    else ignored s
  | 15 =>
    if o < 0x600 then s.byUnit x (56 + o / 0x100) (s.ifWrite o v)
    else if 0x800 ≤ o ∧ o < 0x8C0 then s.byUnit x (62 + (o - 0x800) / 0x40) (s.ifWrite o v)
    else if o = 0xC00 then s.byUnit x 65 (s.ifWrite o v)
    else ignored s
  | 16 =>
    if x.free ∨ (x.id < 37 ∧ x.level = true) then (none, if o < 0x400 then s.pmWrite (o / 0x10) (o % 0x10) v else s)
    else (some .denied, s)
  | _ => onlyFree x s (s.pwrWrite o v)

/-! ## The address map -/

/-- The kinds of region (Table 8). -/
inductive Region where
  | local | slot | flash | sram | remote | periph | priv | none
  deriving DecidableEq, Repr

/-- The region of an address as a core sees it. -/
def regionOf (a : Nat) : Region :=
  if a < localSize then .local
  else if 0x04000000 ≤ a ∧ a < 0x04940000 then (if a % 0x40000 < localSize then .slot else .none)
  else if (0x10000000 ≤ a ∧ a < 0x11000000) ∨ (0x18000000 ≤ a ∧ a < 0x18008000) then .flash
  else if isSram a then .sram
  else if isRemote a then .remote
  else if 0x40000000 ≤ a ∧ a < 0x40120000 then .periph
  else if 0xE0000000 ≤ a ∧ a < 0xE0008000 then .priv
  else .none

/-- The slot of an alias address, and what R28 and R298 refuse there. A core that is fenced and whose domain is off answers
"fenced": R28 does not say which cause comes first (DESIGN CHOICE, log entry 43). -/
def aliasSlot (a : Nat) : Nat := (a - 0x04000000) / 0x40000
def State.aliasBad (s : State) (x : Ctx) (a : Nat) : Option BusCause :=
  let c := aliasSlot a
  if s.fenced c then some .fenced
  else if !s.domReady c then some .timeout
  else if x.debug && (match s.role c with | .checker _ => true | _ => false) then some .denied
  else none

/-- The domain of a peripheral register is off. -/
def State.periphOff (s : State) (blk o : Nat) : Bool :=
  match periphDom blk o with
  | some d => !s.domReady d
  | none => false

/-- A read of the word that holds address a, by x; the answer of a remote window does not come here. -/
def State.busRead (s : State) (x : Ctx) (a : Nat) : Except BusCause Word × State :=
  match regionOf a with
  | .local => if x.id < 37 then s.ramRead (locAddr x.id a) else (.error .denied, s)
  | .priv =>
    if h : x.id < 37 then (s.privRead ⟨x.id, h⟩ x.world x.level (a / 4 * 4), s) else (.error .denied, s)
  | .slot => match s.aliasBad x a with
    | some e => (.error e, s)
    | none => (s.portWait (coreId (aliasSlot a))).ramRead a
  | .flash => if x.debug && decide (1 ≤ s.prot.val) then (.error .denied, s) else s.flRead a
  | .sram =>
    if s.sramBad a then (.error .timeout, s)
    else if !x.free && s.bankRefuses x.world a then (.error .denied, s)
    else s.ramRead a
  | .periph =>
    let blk := a / 0x10000 - 0x4000
    let o := a % 0x10000 / 4 * 4
    if s.periphOff blk o then (.error .timeout, s)
    else
      let r := s.periphRead x blk o
      (.ok r.1, r.2)
  | _ => (.error .denied, s)

/-- A store to memory under a byte mask. -/
def State.ramStore (s : State) (a : Nat) (v : Word) (m : Nat) : BusW :=
  match s.ramWrite a v m with
  | (.ok t, _) => (none, t)
  | (.error e, t) => (some e, t)

/-- The bits that a write by x governs: of PIO_OUT and PIO_DIR those of its groups (R390), of other registers all. -/
def State.putMask (s : State) (x : Ctx) (blk o : Nat) : Word :=
  if blk = 7 ∧ (o = 0x2004 ∨ o = 0x2008) then
    (List.range 8).foldl (fun w g => if s.unitMay x (48 + g) then w ||| mask (4 * g) 4 else w) 0
  else mask 0 32

/-- A write of a peripheral register in the order of R9. -/
def State.periphPut (s : State) (x : Ctx) (blk o : Nat) (v : Word) : BusW :=
  let a := 0x40000000 + 0x10000 * blk + o
  match s.periphWrite x blk o (s.ordered x.id a v) with
  | (none, t) => (none, t.noteWrite x.id a v (s.putMask x blk o))
  | r => r

/-- A write of the bytes in mask m of the word that holds address a, by x. -/
def State.busWrite (s : State) (x : Ctx) (a : Nat) (v : Word) (m : Nat) : BusW :=
  match regionOf a with
  | .local => if x.id < 37 then s.ramStore (locAddr x.id a) v m else (some .denied, s)
  | .priv =>
    if h : x.id < 37 then
      match s.privPut x.id ⟨x.id, h⟩ x.world x.level (a / 4 * 4) v with
      | .ok t => (none, t)
      | .error e => (some e, s)
    else (some .denied, s)
  | .slot => match s.aliasBad x a with
    | some e => (some e, s)
    | none =>
      if x.debug then
        -- the debugger's writes to the main of a pair are replayed into the checker (R298)
        let r := s.dbgLogWrite (coreId (aliasSlot a)) 0 (BitVec.ofNat 32 a) v
        if r.1 then (r.2.portWait (coreId (aliasSlot a))).ramStore a v m else (some .denied, s)
      else (s.portWait (coreId (aliasSlot a))).ramStore a v m
  | .sram =>
    if s.sramBad a then (some .timeout, s)
    else if !x.free && s.bankRefuses x.world a then (some .denied, s)
    else s.ramStore a v m
  | .periph =>
    let blk := a / 0x10000 - 0x4000
    let o := a % 0x10000 / 4 * 4
    if s.periphOff blk o then (some .timeout, s) else s.periphPut x blk o v
  | _ => (some .denied, s)

/-! ## Accesses made by commands -/

/-- The debug port reaches nothing: before step 1 of BOOT, at protection level 2, and with a write before BOOT has ended (R366,
R486). -/
def State.debugShut (s : State) (write : Bool) : Bool := !s.otpLoaded || s.prot == 2 || (write && s.mode == 1)

end Sys2Proof.Machine
end

