-- ==== Sys2Proof/Machine/Law.lean ====
section
/-! DEFINITION. Law.lean: the arithmetic of the law page (R231, R236 to R245) on Q1.31 values held as integers in units of
2⁻³¹, gains in units of 2⁻²⁴ and half-words in units of 2⁻¹⁵. A value carries whether it or one it came from saturated. -/

namespace Sys2Proof.Machine

/-- A Q1.31 value and whether saturation acted on its way. -/
abbrev Q := Int × Bool

def qTop : Int := 2147483647
def qBot : Int := -2147483648

/-- A result that exceeds its format saturates (R236). -/
def qsat (v : Int) (b : Bool) : Q :=
  if v > qTop then (qTop, true) else if v < qBot then (qBot, true) else (v, b)

def qof (w : Word) : Q := (w.toInt, false)

/-- A sum of values, saturated. -/
def qadd (a b : Q) : Q := qsat (a.1 + b.1) (a.2 || b.2)
def qsub (a b : Q) : Q := qsat (a.1 - b.1) (a.2 || b.2)

/-- A product with a factor in units of 2^−k, rounded and saturated. -/
def qmul (k : Nat) (a b : Q) : Q := qsat (roundUp (a.1 * b.1) (2 ^ k)) (a.2 || b.2)

/-- A half, rounded. -/
def qhalf (a : Q) : Q := (roundUp a.1 2, a.2)

def qclamp (a : Q) (lo hi : Int) : Q := (clampInt a.1 lo hi, a.2)

/-- A Q1.15 half of a word, as Q1.31. -/
def qhalfword (w : Word) (hi : Bool) : Int := ((if hi then w.extractLsb' 16 16 else w.extractLsb' 0 16).toInt) * 65536

/-- A Q1.31 value shortened to a Q1.15 record, limited to its range without setting Q (R236). -/
def toQ15 (v : Int) : BitVec 16 := BitVec.ofInt 16 (clampInt (roundUp v 65536) (-32768) 32767)

def wordOf (v : Int) : Word := BitVec.ofInt 32 v

/-! ## Angles (R237) -/

/-- π × 2^96, to the unit. -/
def piFix : Int := 0x3243F6A8885A308D313198A2E

/-- The terms of the sine and cosine series at x × 2^−96, summed: k counts terms, t is the k-th one. -/
def trigSeries : Nat → Nat → Int → Int → Int → Int → Int × Int
  | 0, _, _, _, s, c => (s, c)
  | n + 1, k, x, t, s, c =>
    let c' := if k % 4 = 0 then c + t else if k % 4 = 2 then c - t else c
    let s' := if k % 4 = 1 then s + t else if k % 4 = 3 then s - t else s
    trigSeries n (k + 1) x (t * x / (2 ^ 96 * (k + 1))) s' c'

/-- sin πθ and cos πθ in units of 2^−96, within a few units. -/
def trigFix (theta : Int) : Int × Int := trigSeries 48 0 (theta * piFix / 2 ^ 31) (2 ^ 96) 0 0

/-- A Q1.31 value within 2⁻²⁹ of x (in units of 2^−127): the device's choice among those that are (R237). -/
def near (pick : Nat) (x : Int) : Int :=
  let lo := (x - 4 * 2 ^ 96 + 2 ^ 96 - 1) / 2 ^ 96
  let hi := (x + 4 * 2 ^ 96) / 2 ^ 96
  lo + (pick % (hi - lo + 1).toNat : Nat)

/-- sin and cos of an angle as SINCOS returns them: +1 reads 0x7FFF_FFFF (R237). -/
def sincos (theta : Word) : Int × Int :=
  let x := trigFix theta.toInt
  (clampInt (near (Config.trigChoice 0 [theta]) (x.1 * 2 ^ 31)) qBot qTop,
   clampInt (near (Config.trigChoice 1 [theta]) (x.2 * 2 ^ 31)) qBot qTop)

/-- a × p + b × q for values a, b and exact factors p, q in units of 2^−96, within 2⁻²⁹ of exact, saturated. -/
def rotate (tag : Nat) (ws : List Word) (a p b q : Int) : Q :=
  qsat (near (Config.trigChoice tag ws) (a * p + b * q)) false

/-- PARK (R237): d and q. -/
def parkLaw (wa wb theta : Word) : Q × Q :=
  let t := trigFix theta.toInt
  let ws := [wa, wb, theta]
  (rotate 2 ws wa.toInt t.2 wb.toInt t.1, rotate 3 ws (-wa.toInt) t.1 wb.toInt t.2)

/-- IPARK (R237): α and β. -/
def iparkLaw (wd wq theta : Word) : Q × Q :=
  let t := trigFix theta.toInt
  let ws := [wd, wq, theta]
  (rotate 4 ws wd.toInt t.2 (-wq.toInt) t.1, rotate 5 ws wd.toInt t.1 wq.toInt t.2)

/-- 2^96 / √3 and 2^96 × √3 / 2, to the unit. -/
def invSqrt3 : Int := (sqrtNat (2 ^ 192 / 3) : Nat)
def halfSqrt3 : Int := (sqrtNat (3 * 2 ^ 190) : Nat)

/-- CLARKE (R237). -/
def clarkeLaw (ia ib : Q) : Q × Q :=
  (ia, qsat (roundUp ((ia.1 + 2 * ib.1) * invSqrt3) (2 ^ 96)) (ia.2 || ib.2))

/-- Rotation with the rounded cosine and sine, as the steps of R239 have it: d and q, then α and β. -/
def parkStep (a b : Q) (c s : Int) : Q × Q :=
  let m := fun (x : Q) (f : Int) => qmul 31 x (f, false)
  (qadd (m a c) (m b s), qsub (m b c) (m a s))
def iparkStep (d q : Q) (c s : Int) : Q × Q :=
  let m := fun (x : Q) (f : Int) => qmul 31 x (f, false)
  (qsub (m d c) (m q s), qadd (m d s) (m q c))

/-! ## Results of a law -/

/-- What a law-page instruction produces: outputs in order, the descriptor it writes, Q, and for SETTLE the flag SF. -/
structure LawOut where
  outs : List Word
  desc : Option (List Word)
  q    : Bool
  sf   : Option Bool
  deriving DecidableEq, Repr

def marginTop : Nat := 0x7FFF

/-- A distance over k × gain, in 16-bit VALUE units, rounded down; no bound where the gain is 0. Of a negative gain the magnitude divides,
KP + KI too, which R241 writes without bars (DESIGN CHOICE, log entry 43). -/
def marginTerm (dist : Int) (k : Nat) (gain : Int) : Nat :=
  if gain = 0 then marginTop else (clampInt (dist * 256 / (k * gain.natAbs : Nat)) 0 marginTop).toNat

/-- The FLAGS word after a pass (Table 46). -/
def flagsWord (spec limInt limOut limVec sat : Bool) (order law margin : Nat) : Word :=
  BitVec.ofNat 32 (b2n spec + 4 * b2n limInt + 8 * b2n limOut + 16 * b2n limVec + 32 * b2n sat + order <<< 8 +
    law <<< 12 + margin <<< 16)

/-- Word i of a descriptor. -/
def dw (d : List Word) (i : Nat) : Word := d.getD i 0

/-- LAWPI and LAWPID (R238, R240, R241). -/
def piLaw (pid spec : Bool) (meas : Word) (d : List Word) : LawOut :=
  let kp := (dw d 1).toInt
  let ki := (dw d 2).toInt
  let kd := (dw d 3).toInt
  let omin := (dw d 4).toInt
  let omax := (dw d 5).toInt
  let e := qsub (qof (dw d 0)) (qof meas)
  let pki := qmul 24 e (ki, false)
  let xs := qsat ((dw d 6).toInt + pki.1) pki.2
  let x := xs.1
  let integ := clampInt x omin omax
  let limInt := decide (integ ≠ x)
  let pkp := qmul 24 e (kp, false)
  let de := qsub e (qof (dw d 7))
  let pkd := if pid then qmul 24 de (kd, false) else (0, false)
  let u := qsat (integ + pkp.1 + pkd.1) (xs.2 || pkp.2 || pkd.2)
  let out := clampInt u.1 omin omax
  let sens := qsat (-(kp + ki + if pid then kd else 0)) false
  let sat := u.2 || sens.2
  let margin := if limInt ∨ sat then 0
    else min (marginTerm (x - omin) 1 ki) (marginTerm (omax - x) 1 ki)
  let fl := flagsWord spec limInt (decide (out ≠ u.1)) false sat 0 (if pid then 2 else 1) margin
  let d1 := (((((d.set 6 (wordOf integ)).set 8 (dw d 6)).set 9 meas).set 10 (wordOf u.1)).set 11 (wordOf sens.1)).set 12 (dw d 7)
  let d2 := if pid then d1.set 7 (wordOf e.1) else d1
  ⟨if spec then [] else [wordOf out], some (d2.set 15 fl), sat, none⟩

/-- The phases in the order of their voltages: index of the maximum (ties to the earlier) and of the minimum (ties to the
later phase) (R239). -/
def maxPhase (a b c : Int) : Nat := if b ≤ a ∧ c ≤ a then 0 else if c ≤ b then 1 else 2
def minPhase (a b c : Int) : Nat := if c ≤ a ∧ c ≤ b then 2 else if b ≤ a then 1 else 0

/-- ORDER of Table 46. -/
def orderCode (mx mn : Nat) : Nat :=
  match mx, mn with
  | 0, 1 => 0
  | 0, _ => 1
  | 1, 0 => 2
  | 1, _ => 3
  | _, 0 => 4
  | _, _ => 5

def pick3 (i : Nat) (a b c : Int) : Int := if i = 0 then a else if i = 1 then b else c

/-- Space-vector modulation (R239): the unclamped and clamped duties, the phase voltages, ORDER. -/
structure Svm where
  uncl  : List Q
  delta : List Int
  volts : List Int
  order : Nat
  deriving DecidableEq, Repr

def svm (valpha vbeta : Q) (dmax : Int) : Svm :=
  let h := qsat (roundUp (vbeta.1 * halfSqrt3) (2 ^ 96)) vbeta.2
  let n := qhalf (-valpha.1, valpha.2)
  let vb := qadd n h
  let vc := qsub n h
  let va := valpha
  let mx := maxPhase va.1 vb.1 vc.1
  let mn := minPhase va.1 vb.1 vc.1
  let vo := roundUp (pick3 mx va.1 vb.1 vc.1 + pick3 mn va.1 vb.1 vc.1) 2
  let u := fun (v : Q) => qsat (2 ^ 30 + v.1 - vo) (va.2 || vb.2 || vc.2)
  let us := [u va, u vb, u vc]
  ⟨us, us.map (fun x => clampInt x.1 (2 ^ 31 - dmax) dmax), [va.1, vb.1, vc.1], orderCode mx mn⟩

/-- SVPWM (R239). -/
def svpwmLaw (alpha beta : Word) (d : List Word) : LawOut :=
  let r := svm (qof alpha) (qof beta) (qhalfword (dw d 7) true)
  ⟨r.delta.map wordOf, none, r.uncl.any (·.2), none⟩

/-- The middle of three numbers. -/
def mid3 (a b c : Int) : Int := a + b + c - max a (max b c) - min a (min b c)

/-- The least integer whose square is at least n: the length of a vector, rounded up so that a distance to it is rounded down
(R241). -/
def rootUp (n : Nat) : Int :=
  let r := sqrtNat n
  if r * r = n then r else r + 1

/-- LAWFOC (R239 to R241). The sum of the squares in the vector limit, which may reach 2, is kept whole (DESIGN CHOICE, log entry
43). -/
def focLaw (spec : Bool) (wia wib : Word) (d : List Word) : LawOut :=
  let kp := (dw d 2).toInt
  let ki := (dw d 3).toInt
  let vmax := qhalfword (dw d 7) false
  let dmax := qhalfword (dw d 7) true
  let sc := sincos (dw d 6)
  let ab := clarkeLaw (qof wia) (qof wib)
  let i := parkStep ab.1 ab.2 sc.2 sc.1
  let ed := qsub (qof (dw d 0)) i.1
  let eq := qsub (qof (dw d 1)) i.2
  let axis := fun (e : Q) (int : Word) =>
    let x := qadd (qof int) (qmul 24 e (ki, false))
    let n := clampInt x.1 (-vmax) vmax
    let y := qadd (n, false) (qmul 24 e (kp, false))
    (x.1, n, y.1, clampInt y.1 (-vmax) vmax, e.2 || x.2 || y.2)
  let dd := axis ed (dw d 4)
  let qq := axis eq (dw d 5)
  let limInt := decide (dd.1 ≠ dd.2.1) || decide (qq.1 ≠ qq.2.1)
  let limOut := decide (dd.2.2.1 ≠ dd.2.2.2.1) || decide (qq.2.2.1 ≠ qq.2.2.2.1)
  let vd0 := dd.2.2.2.1
  let vq0 := qq.2.2.2.1
  let square := fun (v : Int) => roundUp (v * v) (2 ^ 31)
  let n2 : Nat := (square vd0 + square vq0).toNat
  let limVec := decide (square vmax < (n2 : Int))
  -- the root to nearest
  let root : Int := ((sqrtNat (4 * n2 * 2 ^ 31) + 1) / 2 : Nat)
  let lim := fun (v : Int) => if limVec then roundUp (roundUp (v * vmax) (2 ^ 31) * 2 ^ 31) root else v
  let sat1 := dd.2.2.2.2 || qq.2.2.2.2
  let v := iparkStep (lim vd0, sat1) (lim vq0, sat1) sc.2 sc.1
  let r := svm v.1 v.2 dmax
  let sat := r.uncl.any (·.2)
  let g := kp + ki
  let va := r.volts.getD 0 0
  let vb := r.volts.getD 1 0
  let vc := r.volts.getD 2 0
  let m := mid3 va vb vc
  let gap := min (max va (max vb vc) - m) (m - min va (min vb vc))
  let margin := if limInt ∨ sat ∨ limOut ∨ limVec then 0
    else [marginTerm (vmax - (dd.1.natAbs : Int)) 2 ki, marginTerm (vmax - (qq.1.natAbs : Int)) 2 ki,
          marginTerm (vmax - (dd.2.2.1.natAbs : Int)) 2 g, marginTerm (vmax - (qq.2.2.1.natAbs : Int)) 2 g,
          -- the distance to 64 more bits
          marginTerm (vmax * 2 ^ 64 - rootUp ((vd0 * vd0 + vq0 * vq0).toNat * 2 ^ 128)) 2 (g * 2 ^ 64),
          marginTerm gap 4 g].foldl min marginTop
  let fl := flagsWord spec limInt limOut limVec sat r.order 3 margin
  let d1 := (((((d.set 4 (wordOf dd.2.1)).set 5 (wordOf qq.2.1)).set 8 (dw d 4)).set 9 (dw d 5)).set 10
    (toQ15 wib.toInt ++ toQ15 wia.toInt)).set 11 (toQ15 sc.1 ++ toQ15 sc.2)
  let d2 := ((d1.set 12 (wordOf ((r.uncl.getD 0 (0, false)).1))).set 13 (wordOf ((r.uncl.getD 1 (0, false)).1))).set 14
    (wordOf ((r.uncl.getD 2 (0, false)).1))
  ⟨if spec then [] else r.delta.map wordOf, some (d2.set 15 fl), sat, none⟩

/-! ## SETTLE (R242 to R245) -/

def ceil16 (n : Nat) : Nat := (n + 65535) / 65536

/-- ERRB, a Q1.15 record saturated at 0x7FFF, a product rounded to nearest (R236, R244). R244 writes 8 x (KP + KI) x m without bars;
of a negative KP + KI settleLaw passes the magnitude (DESIGN CHOICE, log entry 43). -/
def errb (k gain m : Nat) : Nat := min marginTop (roundUp (k * gain * m : Nat) (2 ^ 24)).toNat

def settleFlags (fl : Word) (sf : Bool) (e : Nat) : Word :=
  setBits (setBit (setBit fl 0 false) 1 sf) 16 16 (if sf then e else 0)

def settleLaw (fins : List Word) (d : List Word) : LawOut :=
  let fl := dw d 15
  if !bit fl 0 then ⟨[], none, false, some true⟩
  else
    let law := bits fl 12 2
    let margin := bits fl 16 16
    if law = 3 then
      let specA := qhalfword (dw d 10) false
      let specB := qhalfword (dw d 10) true
      let da := (fins.getD 0 0).toInt - specA
      let db := (fins.getD 1 0).toInt - specB
      let m := max (ceil16 da.natAbs) (ceil16 db.natAbs)
      let sf := bit fl 2 || bit fl 5 || bit fl 3 || bit fl 4 || decide (margin < m)
      let kp := (dw d 2).toInt
      let ki := (dw d 3).toInt
      let dmax := qhalfword (dw d 7) true
      let dv := fun (x : Int) => qsat (roundUp (-(kp + ki) * x) (2 ^ 24)) false
      let va := dv da
      let vb := dv db
      let vc := dv (-da - db)
      let o := bits fl 8 3
      let mx := o / 2
      let mn := if o = 0 ∨ o = 5 then 1 else if o = 1 ∨ o = 3 then 2 else 0
      let half := roundUp (pick3 mx va.1 vb.1 vc.1 + pick3 mn va.1 vb.1 vc.1) 2
      let u := fun (i : Nat) (v : Q) => qsat ((dw d i).toInt + v.1 - half) (va.2 || vb.2 || vc.2)
      let us := [u 12 va, u 13 vb, u 14 vc]
      let outs := us.map (fun x => wordOf (clampInt x.1 (2 ^ 31 - dmax) dmax))
      let cs := dw d 11
      let ab := clarkeLaw (qsat da false) (qsat db false)
      let pk := parkStep ab.1 ab.2 (qhalfword cs false) (qhalfword cs true)
      let nd := qsub (qof (dw d 4)) (qmul 24 pk.1 (ki, false))
      let nq := qsub (qof (dw d 5)) (qmul 24 pk.2 (ki, false))
      let d1 := if sf then (d.set 4 (dw d 8)).set 5 (dw d 9) else (d.set 4 (wordOf nd.1)).set 5 (wordOf nq.1)
      let d2 := ((d1.set 12 (wordOf ((us.getD 0 (0, false)).1))).set 13 (wordOf ((us.getD 1 (0, false)).1))).set 14
        (wordOf ((us.getD 2 (0, false)).1))
      ⟨outs, some (d2.set 15 (settleFlags fl sf (errb 8 (kp + ki).natAbs m))),
        us.any (·.2) || (!sf && (nd.2 || nq.2)), some sf⟩
    else
      let dlt := (fins.getD 0 0).toInt - (dw d 9).toInt
      let m := ceil16 dlt.natAbs
      let sf := bit fl 2 || bit fl 5 || decide (margin < m)
      let s := (dw d 11).toInt
      let ki := (dw d 2).toInt
      let p := qsat (roundUp (s * dlt) (2 ^ 24)) false
      let u := qadd (qof (dw d 10)) p
      let out := clampInt u.1 (dw d 4).toInt (dw d 5).toInt
      let ni := qsub (qof (dw d 6)) (qsat (roundUp (ki * dlt) (2 ^ 24)) false)
      let ne := qsub (qof (dw d 7)) (qsat dlt false)
      let d1 := d.set 10 (wordOf u.1)
      let d2 := if sf then d1.set 6 (dw d 8) else d1.set 6 (wordOf ni.1)
      let d3 := if law = 2 then (if sf then d2.set 7 (dw d 12) else d2.set 7 (wordOf ne.1)) else d2
      ⟨[wordOf out], some (d3.set 15 (settleFlags fl sf (errb 2 s.natAbs m))),
        u.2 || (!sf && (ni.2 || (decide (law = 2) && ne.2))), some sf⟩

/-! ## A duty turned into compare words (R231) -/

/-- A position x, in units of 2^−31 × 2^−5 tb cycles, as a 27.5 compare word that counts down. -/
def compareWord (x : Int) : Word :=
  let q := clampInt (roundAway x (2 ^ 31)) 0 (0x7FFFFFF * 32)
  let i := (q + 31) / 32
  BitVec.ofInt 32 (i * 32 + (i * 32 - q))

/-- The compare pair of a duty δ with DCTR and DHALF. -/
def centrePair (delta dctr dhalf : Word) : Word × Word :=
  let dl := clampInt delta.toInt 0 qTop
  let h := dl * dhalf.toNat
  let c := (dctr.toNat : Int) * 2 ^ 31
  (compareWord (c + h), compareWord (c - h))

end Sys2Proof.Machine
end

