-- ==== Sys2Proof/Machine/Operands.lean ====
section
/-! DEFINITION. Operands.lean: operand forms of the instructions (Tables 37 to 41): immediates, second operands, shift amounts,
conditions, and the length that each form gives an instruction. -/

namespace Sys2Proof.Machine

/-- Bytes of an immediate. -/
def ImmSize.len : ImmSize → Nat
  | .b1 => 1
  | .b2 => 2
  | .b4 => 4

/-- An immediate, sign-extended. -/
def immS (i : Imm) : Word :=
  match i.size with
  | .b1 => (i.bits.extractLsb' 0 8).signExtend 32
  | .b2 => (i.bits.extractLsb' 0 16).signExtend 32
  | .b4 => i.bits

/-- An immediate, zero-extended. -/
def immZ (i : Imm) : Word :=
  match i.size with
  | .b1 => (i.bits.extractLsb' 0 8).setWidth 32
  | .b2 => (i.bits.extractLsb' 0 16).setWidth 32
  | .b4 => i.bits

/-- The second operand, with a sign-extended or a zero-extended immediate. -/
def srcS (k : CoreState) : Src → Word
  | .reg c => k.w c
  | .imm i => immS i
def srcZ (k : CoreState) : Src → Word
  | .reg c => k.w c
  | .imm i => immZ i

/-- A shift amount, modulo 32. -/
def shAmt (k : CoreState) : ShAmt → Nat
  | .reg c => (k.w c).toNat % 32
  | .imm n => n.toNat

/-- Length of the rr forms with a second operand: opcode, rr, immediate. -/
def srcLen : Src → Nat
  | .reg _ => 3
  | .imm i => 3 + ImmSize.len i.size
def shLen : ShAmt → Nat
  | .reg _ => 3
  | .imm _ => 4

/-- Bytes of a condition prefix. -/
def ccLen (cc : CC) : Nat := if cc.isSome then 2 else 0

/-- Bytes of a datum. -/
def sizeBytes : MemSize → Nat
  | .word => 4
  | .half => 2
  | .byte => 1

/-- Prefix bytes of a load or store: 0xF0 for a narrow size, 0xF5. -/
def dataPrefix (sz : MemSize) (una : Bool) : Nat := (if sz = .word then 0 else 1) + b2n una

/-- The prefixes of an instruction, the condition byte counted, are three at most (R200). -/
def prefixOk (n : Nat) (cc : CC) : Bool := decide (n + ccLen cc ≤ 3)

/-- The prefix 0xF1 of an accumulator instruction. -/
def accPrefix (a : Fin 4) : Nat := if 2 ≤ a.val then 1 else 0

/-- Whether a condition holds (Table 41). -/
def condHolds (st : Word) : Cond → Bool
  | .eq => bit st stZ
  | .ne => !bit st stZ
  | .hs => bit st stC
  | .lo => !bit st stC
  | .mi => bit st stN
  | .pl => !bit st stN
  | .vs => bit st stV
  | .vc => !bit st stV
  | .hi => bit st stC && !bit st stZ
  | .ls => !bit st stC || bit st stZ
  | .ge => bit st stN == bit st stV
  | .lt => bit st stN != bit st stV
  | .gt => !bit st stZ && (bit st stN == bit st stV)
  | .le => bit st stZ || (bit st stN != bit st stV)
  | .al => true

/-- An instruction acts: it has no condition, or its condition holds. -/
def ccHolds (k : CoreState) : CC → Bool
  | none => true
  | some c => condHolds k.st c

end Sys2Proof.Machine
end

