-- ==== Sys2Proof/Machine/CoreStep.lean ====
section
/-! DEFINITION. CoreStep.lean: one instruction of a core, from fetch to retirement (chapter 6): breakpoints, fetch, legality,
condition, the operation itself, the end of loops, the records of a pair, the halt of a debugger. -/

namespace Sys2Proof.Machine

/-! ## What an instruction is and what its operation answers -/

/-- Length in bytes, execute states, data accesses, condition, and whether the encoding is legal (R199 to R201). -/
structure Enc where
  len   : Nat
  ex    : Nat := 1
  data  : Nat := 0
  cc    : CC := none
  legal : Bool := true
  deriving DecidableEq, Repr

/-- Where an instruction sends its core: to the next one; over a loop body, still in sequence (LOOP with count 0); to a taken
branch or return, which may leave a loop; to a call or gate; or where RETX has restored it, with the target it records. -/
inductive Flow where
  | seq
  | skip (a : Word)
  | jump (a : Word)
  | call (a : Word)
  | back (target : Option Word)
  deriving DecidableEq, Repr

/-- The end of an operation: its flow, its memory states, its data accesses (true for a write), the checkpoint it makes, and
whether no interrupt may follow it (R206). -/
structure Ret where
  flow : Flow := .seq
  mem  : Nat := 0
  acc  : List (Word × Bool) := []
  ck   : Option (Fin 3) := none
  hold : Bool := false
  deriving DecidableEq, Repr

/-- What an operation answers: done; a fault; a state in which the instruction is not over (a wait, an access on a link, a
mismatch that stops the pair), or a fault, with the memory states spent up to there; or not now, the state being as before. -/
inductive Pass where
  | done (s : State) (r : Ret)
  | fault (s : State) (f : FaultRec) (mem : Nat := 0)
  | stay (s : State) (mem : Nat := 0)
  | later

/-! ## Loops (R176, R180, R212) -/

/-- The capture was started by the loop that level l holds. -/
def CoreState.starts (k : CoreState) (l : Fin 2) : Bool :=
  k.lbBase.isSome && k.lbLevel == l && k.lbLs == k.ls[l] && k.lbLe == k.le[l]

/-- Level l ends: its count is 0, and a capture that its loop started is released. -/
def CoreState.endLevel (k : CoreState) (l : Fin 2) : CoreState :=
  let k1 := { k with lc := k.lc.set l 0 }
  if k1.starts l then k1.lbRelease else k1

/-- Level l is active and its end is judged. -/
def CoreState.judged (k : CoreState) (l : Fin 2) : Bool := k.lc[l] != 0 && !k.susp.getLsbD l

/-- Execution reaches an address in sequence: level 1 is judged, then level 0. -/
def CoreState.advance (k : CoreState) (a : Word) : CoreState :=
  let inner := k.judged 1 && k.le[1] == a
  if inner && 1 < k.lc[1].toNat then { k with lc := k.lc.set 1 (k.lc[1] - 1), pc := k.ls[1] }
  else
    let k1 := if inner then k.endLevel 1 else k
    if k1.judged 0 && k1.le[0] == a then
      if 1 < k1.lc[0].toNat then { k1 with lc := k1.lc.set 0 (k1.lc[0] - 1), pc := k1.ls[0] }
      else { k1.endLevel 0 with pc := a }
    else { k1 with pc := a }

/-- A taken branch from pc to a target ends every level whose body it leaves. -/
def CoreState.leave (k : CoreState) (pc target : Word) : CoreState :=
  [0, 1].foldl (fun (k : CoreState) (l : Fin 2) =>
    let inBody := fun (a : Word) => decide (k.ls[l].toNat ≤ a.toNat) && decide (a.toNat < k.le[l].toNat)
    if k.judged l && inBody pc && !inBody target then k.endLevel l else k) k

/-! ## Fetch (R163 to R166, R177 to R179, R251) -/

/-- The fetch words of an instruction, by address. -/
def fetchWords (pc len : Nat) : List Nat := (List.range ((pc + len - 1) / 8 + 1 - pc / 8)).map (fun i => 8 * (pc / 8 + i))

/-- The place of a fetch word in the capture range. -/
def CoreState.capIdx (k : CoreState) (w : Nat) : Option Nat :=
  match k.lbBase with
  | some b => if b.toNat ≤ w ∧ w < b.toNat + 8 * k.lbLen then some ((w - b.toNat) / 8) else none
  | none => none

/-- The loop buffer holds a fetch word. -/
def CoreState.captured (k : CoreState) (w : Nat) : Bool :=
  match k.capIdx w with
  | some i => k.lbCap.getLsbD i
  | none => false

/-- A fetched word enters the capture. -/
def CoreState.capture (k : CoreState) (w : Nat) : CoreState :=
  match k.capIdx w with
  | some i => { k with lbCap := k.lbCap ||| BitVec.ofNat 16 (2 ^ i) }
  | none => k

def fetchFault (e : BusCause) (a : Nat) : FaultRec := { faultBus e (BitVec.ofNat 32 a) with fetch := true }

/-- The fetch words of an instruction are read (R163, R174): the fault that ended it, by cause and address, and the fetch states
spent. -/
def State.fetchAll (s : State) (c : CoreId) (pc : Nat) : List Nat → Nat → Option (BusCause × Nat) × Nat × State
  | [], n => (none, n, s)
  | w :: r, n =>
    let k := s.core c
    let a := max pc w
    if localSize ≤ a || !s.rgnAllows c k.world k.lvl .exec a then (some (.denied, a), n + b2n (!k.captured w), s)
    else if k.captured w then s.fetchAll c pc r n
    else
      let e := s.eccRead (locAddr c w)
      if e.1 then (e.2.setCore c ((e.2.core c).capture w)).fetchAll c pc r (n + 1)
      else (some (.ecc, w), n + 1, e.2)

/-- The bytes after an opcode, of the law page where `law` says so (Tables 38 and 39); an undefined opcode has none. -/
def opTail (law : Bool) (op : Nat) : Nat :=
  let imm := [0, 1, 2, 4].getD (op % 4) 0
  if law then (if op ≤ 8 then 3 else if op ≤ 0xA then 2 else 0)
  else if op < 0x08 then 0
  else if op < 0x0E then 1
  else if op < 0x10 then 0
  else if op < 0x40 then 2 + imm
  else if op < 0x52 then 2
  else if op = 0x52 then 4
  else if op < 0x55 then 0
  else if op < 0x58 then 1 + imm
  else if op < 0x6C then 2 + imm
  else if op < 0x70 then imm
  else if op < 0x74 then (if op = 0x70 then 3 else 2 + imm)
  else if op = 0x74 then 3
  else if op = 0x75 then 5
  else if (0x78 ≤ op ∧ op < 0x7F) ∨ (0x80 ≤ op ∧ op < 0x8F) then 2
  else 0

/-- The length of the instruction that some bytes begin, from its prefixes and its opcode (R199, R200). -/
def instrLen : List Byte → Nat
  | [] => 1
  | b :: r =>
    if b = 0xF2 then (match r with | _ :: q => 2 + instrLen q | [] => 2)
    else if b = 0xF0 ∨ b = 0xF1 ∨ b = 0xF4 ∨ b = 0xF5 then 1 + instrLen r
    else if b = 0xF3 then (match r with | o :: _ => 2 + opTail true o.toNat | [] => 2)
    else 1 + opTail false b.toNat

/-! ## Retirement -/

/-- The instruction counts of a pair (R279, R283): a checkpoint where the instruction makes one or 4,096 have retired. -/
def State.countRetired (s : State) (c : CoreId) (ck : Option (Fin 3)) : State :=
  let mark := fun (t : State) (since : Nat) =>
    match ck with
    | some q => t.checkpoint c q
    | none => if 4096 ≤ since then t.checkpoint c 2 else t
  match s.role c with
  | .solo => s
  | .main k =>
    if s.checking k then
      let p := s.pair k
      mark (s.setPair k { p with cntM := p.cntM + 1, sinceM := p.sinceM + 1, idxM := 0 }) (p.sinceM + 1)
    else s
  | .checker k =>
    if s.checking k then
      let p := s.pair k
      let t := mark (s.setPair k { p with cntC := p.cntC + 1, sinceC := p.sinceC + 1, idxC := 0 }) (p.sinceC + 1)
      -- R298: the checker halts at the count at which its main halted
      match p.haltAt with
      | some r => if r ≤ p.cntC + 1 then t.stopCore c else t
      | none => t
    else s

def State.isChecker (s : State) (c : CoreId) : Bool := match s.role c with | .checker _ => true | _ => false

/-- The performance events of a retired instruction (Table 103): n is the number of its fetch states, 0 where the loop buffer served
it wholly. -/
def State.pmRetired (s : State) (c : CoreId) (n : Nat) (prefetched : Bool) : State :=
  if s.pmSel.isEmpty then s
  else
    let s1 := s.pmCore c 1 1
    if n = 0 && !prefetched then s1.pmCore c 3 1 else s1

/-- Fetch states as the monitors count them (Table 103). -/
def State.pmFetch (s : State) (c : CoreId) (n : Nat) : State := if n = 0 then s else s.pmCore c 2 n

/-- An instruction of length len that stood at pc retires after cyc core cycles, n of them fetch states. -/
def State.finish (s : State) (c : CoreId) (pc : Word) (len cyc n : Nat) (r : Ret) : State :=
  let k := s.core c
  let k1 := match r.flow with
    | .seq => k.advance (pc + BitVec.ofNat 32 len)
    | .skip a => k.advance a
    | .jump a => { k.leave pc a with pc := a }
    | .call a => { k with pc := a }
    | .back _ => k
  let target := match r.flow with
    | .jump a | .call a => some a
    | .back t => t
    | _ => none
  let pre := k.prefetched
  let k2 := { k1 with noInt := r.hold, resumed := false, prefetched := false, retired := k1.retired + 1, cycles := k1.cycles + cyc }
  let s1 := s.setCore c k2
  let s2 := match target with
    | some t => s1.recBranch c t pc
    | none => s1
  let s3 := (s2.pmRetired c n pre).countRetired c r.ck
  if s3.isChecker c then s3
  else
    let hits := s3.wpHits c r.acc
    if hits ≠ 0 ∧ (s3.core c).run = .running then s3.dbgHaltNow c 3 hits else s3.boundary c

/-! ## Waits (R182 to R184, R227, R281) -/

/-- The next agreement entry of a checker is the one for its next input; none where the buffer is empty (R279). -/
def State.agreeNext (s : State) (k : Fin 16) : Option Bool :=
  match (s.pair k).agree with
  | e :: _ => some (e.count == (s.pair k).cntC && e.index == (s.pair k).idxC)
  | [] => none

/-- A WAITS of register n is satisfied: the fresh flag of the core, or for a checker its main's outcome. -/
def State.waitMet (s : State) (c : CoreId) (n : Fin 16) (final : Bool) : Bool :=
  match s.role c with
  | .checker p => if s.checking p then s.agreeNext p == some true else s.smpFresh c n final
  | _ => s.smpFresh c n final

/-- A checker's WAITS finds an entry of another place in the agreement buffer: a mismatch (R279). -/
def State.waitClash (s : State) (c : CoreId) : Option (Fin 16) :=
  match s.role c with
  | .checker p => if s.checking p && s.agreeNext p == some false then some p else none
  | _ => none

/-- The outcome of a WAITS passes through the agreement buffer (R279). -/
def State.waitAgree (s : State) (c : CoreId) : State :=
  match s.role c with
  | .checker p =>
    if s.checking p then
      match (s.pair p).agree with
      | _ :: r => s.setPair p { s.pair p with agree := r, idxC := (s.pair p).idxC + 1 }
      | [] => s
    else s
  | _ => s.agreePush c 1 none

/-- A core in a wait wakes when its condition is met: WAITS retires, after one wake cycle where the next instruction stands
prefetched (R183). A checker whose next input is another one stops its pair (R279). -/
def State.wakeCore (s : State) (c : CoreId) : State :=
  let k := s.core c
  match k.run with
  | .waiting n final =>
    if !s.domReady c then s
    else match s.waitClash c with
      | some p => s.mismatch p 3
      | none =>
        if s.waitMet c n final then
          let s1 := s.setCore c { k with run := .running, pc := k.waitPc, prefetched := k.own.isNone }
          let s2 := (s1.waitAgree c).finish c k.waitPc 2 (b2n k.prefetched) (k.own.getD 0) {}
          s2.setCore c { s2.core c with prefetched := k.prefetched && (s2.core c).run == .running }
        else s
  | _ => s

/-- During a wait the core fetches the next instruction in sequence, whose length its bytes tell, and decodes it (R182). A fault that
the fetch meets stands until the instruction begins (R174). -/
def State.prefetch (s : State) (c : CoreId) : State :=
  let k := s.core c
  let a := (k.advance (k.waitPc + 2)).pc.toNat
  let ws := fetchWords a (min 12 (instrLen (s.memBytes (locAddr c a) 12)))
  let r := s.fetchAll c a ws 0
  (r.2.2.setCore c { r.2.2.core c with
    prefetched := true, preWords := ws.length, preFault := r.1
    cycles := (r.2.2.core c).cycles + r.2.1 + b2n r.1.isNone }).pmFetch c r.2.1

/-- An instruction that is not over: its fetch, decode and execute states, n of them fetch states, are spent, and it waits for its
sample or for its access on a link. -/
def State.parked (s : State) (c : CoreId) (cyc n : Nat) : State :=
  let k := s.core c
  let s1 := s.setCore c { k with own := if k.prefetched then none else some n, cycles := k.cycles + cyc }
  match k.run with
  | .waiting _ _ => s1.prefetch c
  | .remote => s1
  | _ => s

/-! ## One instruction -/

/-- The fetch of an instruction of len bytes at pc: what stands prefetched is not read again (R166, R183). -/
def State.fetchInstr (s : State) (c : CoreId) (len : Nat) : Option (BusCause × Nat) × Nat × State :=
  let k := s.core c
  if k.prefetched && k.preFault.isSome then (k.preFault, 0, s)
  else s.fetchAll c k.pc.toNat ((fetchWords k.pc.toNat len).drop (if k.prefetched then k.preWords else 0)) 0

/-- Core c is given an instruction: it runs where the core executes, and is left alone where it cannot. The operation gets
the registers as its operands see them (R202, R203), and the state in which the load shadow has become visible. -/
def State.runInstr (s0 : State) (c : CoreId) (e : Enc) (body : CoreState → State → Pass) : State :=
  let s := (match s0.role c with | .checker k => s0.dbgReplay k | _ => s0).wakeCore c
  let k := s.core c
  if !s.domReady c || k.run != .running then s
  else
    let hits := if k.resumed || s.isChecker c then 0 else s.bpHits c k.pc
    if hits ≠ 0 then s.dbgHaltNow c 2 hits
    else match s.fetchInstr c e.len with
      | (some f, n, s1) => (s1.pmFetch c n).instrFault c n (fetchFault f.1 f.2)
      | (none, n, t1) =>
        let s1 := t1.pmFetch c n
        let pre := if k.prefetched then n else n + 1
        if !e.legal then s1.instrFault c pre (faultIllegal k.pc)
        else
          let k0 := s1.core c
          let s2 := s1.setCore c k0.commitShadow
          if !ccHolds k0 e.cc then s2.finish c k.pc e.len (pre + e.ex + e.data) n {}
          else match body k0 s2 with
            | .done t r => t.finish c k.pc e.len (pre + e.ex + r.mem) n r
            | .fault t f m => t.instrFault c (pre + e.ex + m) f
            | .stay t m => t.parked c (pre + e.ex + m) n
            | .later => s

/-- An operation on the registers alone. -/
def onRegs (c : CoreId) (f : CoreState → CoreState → CoreState) (k0 : CoreState) (s : State) : Pass :=
  .done (s.setCore c (f k0 (s.core c))) {}

/-- An instruction that writes one register from its operands. -/
def State.runReg (s : State) (c : CoreId) (e : Enc) (a : Reg) (v : CoreState → Word) : State :=
  s.runInstr c e (onRegs c (fun k0 k => k.setW a (v k0)))

/-! ## Data accesses (R24, R25, R208, R209, R251) -/

/-- The address lies outside the core's own memory and private space, where the inputs and outputs of a pair are. -/
def outside (a : Nat) : Bool := regionOf a != .local && regionOf a != .priv

/-- Peripheral and private space take whole aligned words only, before every other check (R6). -/
def wordOnly (a : Nat) : Bool := regionOf a == .periph || regionOf a == .priv

/-- Core cycles of a memory state (Table 34). -/
def State.memCycles (s : State) (a : Nat) : Nat :=
  match regionOf a with
  | .sram | .slot => 2
  | .periph => 3
  | .flash => match s.flLocate a with
    | some (b, f) => if (s.flBank b).line = some (f / 16 * 16) then 3 else 25
    | none => 1
  | _ => 1

/-- How a read or a write of one part of a datum came out. -/
inductive Acc1 where
  | ok (w : Word) (s : State)
  | bad (e : BusCause) (s : State)
  /-- The access is out on a link. -/
  | away (s : State)
  /-- The pair has been stopped by a mismatch. -/
  | stop (s : State)
  /-- The access cannot be made yet. -/
  | later

/-- The checker's next input (R279): its place must be that of the oldest entry. -/
def State.agreeTake (s : State) (k : Fin 16) : Option (AgreeEntry × State) :=
  let p := s.pair k
  match p.agree with
  | e :: r => if e.count = p.cntC ∧ e.index = p.idxC then some (e, s.setPair k { p with agree := r, idxC := p.idxC + 1 }) else none
  | [] => none

/-- The cause that an entry's code stands for. -/
def causeOf (c : Fin 5) : BusCause :=
  match c with
  | 1 => .timeout
  | 2 => .ecc
  | 3 => .denied
  | _ => .fenced

/-- The bytes that the held stores of a pair put over a word of shared SRAM (R286). -/
def sluiceWord (l : List PairOut) (a : Nat) (w : Word) : Word :=
  l.foldl (fun w o => match o with
    | .store x size data _ _ =>
      if x.toNat / 4 = a / 4 then setBits w (8 * (x.toNat % 4)) (8 * size) data.toNat else w
    | _ => w) w

def sluiceHolds (l : List PairOut) (a : Nat) : Bool :=
  l.any (fun o => match o with | .store x _ _ _ _ => x.toNat / 4 == a / 4 | _ => false)

/-- The address of a fire register, which the spec does not give: a free value (log entry 32). -/
def fireAddr (t : FireTarget) : Nat :=
  (Config.fireAddr (match t with
    | .swf n => 1008 + n.val
    | .coreEvent n => 448 + 2 * n.val)).toNat

/-- A held output is addressed to the peripheral block or remote window of an address. -/
def sluiceBlocks (l : List PairOut) (a : Nat) : Bool :=
  l.any (fun o => match o with
    | .fire t _ _ => regionOf a == .periph && fireAddr t / 0x10000 == a / 0x10000
    | .store x _ _ _ _ => match regionOf a with
      | .periph => x.toNat / 0x10000 == a / 0x10000
      | .remote => x.toNat / 0x1000000 == a / 0x1000000
      | _ => false
    | .duty _ _ _ _ _ => a / 0x10000 == 0x4002)

/-- The pair whose outputs core c holds back (LOOSE-OUTPUT, R284). -/
def State.sluiced (s : State) (c : CoreId) : Option (Fin 16) :=
  match s.role c with
  | .main k => if s.checking k && (s.pair k).mode == 2 then some k else none
  | _ => none

/-- A fenced core's access leaves it no more (R296). -/
def State.busIn (s : State) (c : CoreId) (a : Nat) : Except BusCause Word × State :=
  if outside a && s.fenced c then (.error .fenced, s.ghost c) else s.busRead (s.ctxOf c) a
def State.busOut (s : State) (c : CoreId) (a : Nat) (v : Word) (m : Nat) : BusW :=
  if outside a && s.fenced c then (some .fenced, s.ghost c) else s.busWrite (s.ctxOf c) a v m

/-- The core cycles of a memory state that ends in a fault: a timeout of a unit that is switched off comes after 64 (R28, R34). -/
def State.failCycles (s : State) (e : BusCause) (a : Nat) : Nat :=
  if e = .timeout ∧ (regionOf a = .periph ∨ regionOf a = .slot) then 64 else s.memCycles a

/-- An access that goes out on a link: its core waits in its memory state, but for a command's own access. -/
def State.awaitLink (s : State) (c : CoreId) (use : RemoteUse) : State :=
  match use with
  | .command => s
  | _ => s.setCore c { s.core c with run := .remote }

/-- A read of core c that waits until it can be made. -/
def State.stall (s : State) (c : CoreId) (a : Nat) (use : RemoteUse) : Acc1 :=
  .away (State.awaitLink { s with stalls := s.stalls ++ [⟨c.val, BitVec.ofNat 32 a, use⟩] } c use)

/-- A core reads the word that holds address a. The checker of a pair that does not run makes no access and is given no answer (R276).
The word comes from the agreement buffer, from the sluice, over a link, or from the bus. -/
def State.read1 (s : State) (c : CoreId) (a : Nat) (mask : BitVec 4) (use : RemoteUse) : Acc1 :=
  let bus := fun (_ : Unit) =>
    if isRemote a && !s.fenced c then
      match s.remoteIssue a false 0 mask (s.core c).world use with
      | .ok t => .away (t.awaitLink c use)
      | .error e => .bad e (s.agreePush c 0 (some e))
    else if s.flashWaits a && !s.fenced c then s.stall c a use
    else
      match s.busIn c a with
      | (.ok w, t) => .ok w (if outside a then t.agreePush c w none else t)
      | (.error e, t) => .bad e (if outside a then t.agreePush c 0 (some e) else t)
  if !outside a then bus ()
  else match s.role c with
    | .checker k =>
      if s.checking k then
        match s.agreeTake k with
        | some (e, t) => match e.cause with
          | some x => .bad (causeOf x) t
          | none => .ok e.value t
        | none => .stop (s.mismatch k 3)
      else .later
    | _ => match s.sluiced c with
      | none => bus ()
      | some k =>
        let held := (s.pair k).sluice
        if isSram a && sluiceHolds held a then
          -- served from the sluice; bytes that no held store covers come from the bank
          match s.busIn c a with
          | (.ok w, t) => let v := sluiceWord held a w; .ok v (t.agreePush c v none)
          | (.error e, t) => .bad e (t.agreePush c 0 (some e))
        else if sluiceBlocks held a then s.stall c a use
        else bus ()

/-! ## Outputs of a pair (R235, R284) -/

/-- Two outputs are the same: address or register, kind, size and data (R284); the data of a release are its staged values. -/
def PairOut.same : PairOut → PairOut → Bool
  | .store a n d _ _, .store a' n' d' _ _ => a == a' && n == n' && d == d'
  | .duty j k x y st, .duty j' k' x' y' st' => j == j' && k == k' && x == x' && y == y' && st == st'
  | .fire t _ _, .fire t' _ _ => t == t'
  | _, _ => false

/-- The word and byte mask of n bytes from address a. -/
def lanes (a n : Nat) (d : Word) : Word × Nat := (d <<< (8 * (a % 4)), ((2 ^ n - 1) <<< (a % 4)) % 16)

/-- A staged or written duty value is sent to its timer, under the bindings of block n (R230, R231, R233): δ or compare word
for the register's mode. -/
def State.dutyPut (s : State) (n j : Nat) (v : Word) : State :=
  let b := s.rg (rDbind n j)
  let t := fin 48 (bits b 0 6) (by decide)
  match bits b 8 2 with
  | 0 => s.ptBufWrite t 0x48 v
  | 1 => s.ptBufWrite t 0x4C v
  | 2 =>
    let p := centrePair v (s.rg (rDctr n j)) (s.rg (rDhalf n j))
    (s.ptBufWrite t 0x48 p.1).ptBufWrite t 0x4C p.2
  | _ => s

/-- A duty output arrives at the timers: a DUTY, the raw pair of a DUTYC, or the staged values of a release in ascending
register number. -/
def State.dutySend (s : State) (n : Nat) (j : Fin 8) (kind : Fin 3) (x y : Word) (staged : List (Option Word)) : State :=
  match kind with
  | 0 => s.dutyPut n j x
  | 1 =>
    let t := fin 48 (bits (s.rg (rDbind n j)) 0 6) (by decide)
    (s.ptBufWrite t 0x48 x).ptBufWrite t 0x4C y
  | _ => (staged.zipIdx).foldl (fun t e => match e.1 with | some v => t.dutyPut n e.2 v | none => t) s

/-- The owner and world attribute of SWFn's fire register lets x write it (R41); a register that names no owner takes every core. -/
def State.swfMay (s : State) (x : Ctx) (n : Fin 16) : Bool :=
  x.free || (decide (x.id < 37) && match s.swfOwn[n] with
    | some (o, w) => decide (x.owner = o.val) && x.world == w
    | none => true)

/-- A write of 1 to a fire register by x: the source activates at the next tb edge (R38, R41), or the write is refused. A core's event
register takes that core, SC and the debug port (DESIGN CHOICE, log entry 32). -/
def State.fireBy (s : State) (x : Ctx) (t : FireTarget) : Option State :=
  match t with
  | .swf n => if s.swfMay x n then some (s.fireCore (1008 + n.val)) else none
  | .coreEvent n => if x.free ∨ x.owner = n.val then some (s.fireCore (448 + 2 * n.val)) else none

/-- The oldest held output of pair k leaves (R284, R285), in the world and at the level of its access (R250). A bus error that it
meets has no instruction left to report to. -/
def State.sluiceLeave (s : State) (k : Fin 16) : State :=
  let p := s.pair k
  match p.sluice with
  | [] => s
  | o :: r =>
    let m := coreId (s.mainOf k)
    let s1 := { s.setPair k { p with sluice := r } with due := dropDue s.due (.sluiceTimeout k) }
    let ctx := fun (world level : Bool) => { s1.ctxOf m with world := world, level := level }
    match o with
    | .duty j kind x y st => s1.dutySend (2 * k.val) j kind x y st
    | .fire t w l => (s1.fireBy (ctx w l) t).getD s1
    | .store a n d w lv =>
      let l := lanes a.toNat n d
      if isRemote a.toNat then
        match s1.remoteIssue a.toNat true l.1 (BitVec.ofNat 4 l.2) w .sluice with
        | .ok t => t
        | .error _ => s1
      else (s1.busWrite (ctx w lv) a.toNat l.1 l.2).2

/-- The checker makes an output: in LOOSE-OUTPUT it is compared with the main's oldest. -/
def State.checkOut (s : State) (k : Fin 16) (o : PairOut) : Acc1 :=
  if (s.pair k).mode = 2 then
    match (s.pair k).sluice with
    | x :: _ => if x.same o then .ok 0 (s.sluiceLeave k) else .stop (s.mismatch k 4)
    | [] => .stop (s.mismatch k 4)
  else .ok 0 s

/-- The main makes an output in LOOSE-OUTPUT: it waits in the sluice. -/
def State.holdOut (s : State) (k : Fin 16) (o : PairOut) : State :=
  (s.setPair k { s.pair k with sluice := (s.pair k).sluice ++ [o] }).after (s.pairOffset k 8) (.sluiceTimeout k)

/-- A store that failed in the main fails in the checker too: its cause stands in the agreement buffer. -/
def State.storeBad (s : State) (k : Fin 16) : Option (BusCause × State) :=
  match s.agreeTake k with
  | some (e, t) => e.cause.map (fun x => (causeOf x, t))
  | none => none

/-- A store of core c as an output of its pair. -/
def State.storeOf (s : State) (c : CoreId) (a n : Nat) (d : Word) : PairOut :=
  .store (BitVec.ofNat 32 a) n d (s.core c).world (s.core c).lvl

/-- A core writes n bytes of data d at address a (within one word). A checker's store is suppressed (R276). -/
def State.write1 (s : State) (c : CoreId) (a n : Nat) (d : Word) (use : RemoteUse) : Acc1 :=
  let l := lanes a n d
  let bus := fun (_ : Unit) =>
    if isRemote a && !s.fenced c then
      match s.remoteIssue a true l.1 (BitVec.ofNat 4 l.2) (s.core c).world use with
      | .ok t => .away (t.awaitLink c use)
      | .error e => .bad e (s.agreePush c 0 (some e))
    else
      match s.busOut c a l.1 l.2 with
      | (none, t) => .ok 0 t
      | (some e, t) => .bad e (if outside a then t.agreePush c 0 (some e) else t)
  if !outside a then bus ()
  else match s.role c with
    | .checker k =>
      if s.checking k then
        match s.storeBad k with
        | some (e, t) => .bad e t
        | none => s.checkOut k (s.storeOf c a n d)
      else .ok 0 s
    | _ => match s.sluiced c with
      | some k => .ok 0 (s.holdOut k (s.storeOf c a n d))
      | none => bus ()

/-! ## Loads and stores -/

/-- The parts of a datum of `size` bytes at ea: address and bytes of each (R209). -/
def dataParts (ea size : Nat) (una : Bool) : List (Nat × Nat) :=
  if una then
    let n := min size (4 - ea % 4)
    if n < size then [(ea, n), ((ea / 4 * 4 + 4) % 2 ^ 32, size - n)] else [(ea, size)]
  else [(ea, size)]

/-- The checks on an effective address before anything is accessed (R6, R208). -/
def dataCheck (op : DataOp) : Option FaultRec :=
  let a := op.ea.toNat
  if wordOnly a && (op.sz != .word || op.una) then some (faultBus .denied op.ea)
  else if !op.una && a % sizeBytes op.sz != 0 then some (faultMisaligned op.ea)
  else none

/-- FLT_ADDR of a failed access: the effective address, and for ECC in local memory the 64-bit word (Table 48, R174). -/
def faultAccess (e : BusCause) (ea : Word) (part : Nat) : FaultRec :=
  if e = .ecc ∧ regionOf part = .local then faultBus e (BitVec.ofNat 32 (part / 8 * 8)) else faultBus e ea

/-- Words read one after the other: the words got so far, the state, the memory cycles; `got` are those that were read in earlier
attempts, whose cycles count already. The access that goes out on a link leaves from the state in which the instruction began. -/
inductive Reads where
  | ok (ws : List Word) (s : State) (cyc : Nat)
  | bad (e : BusCause) (a : Nat) (s : State) (cyc : Nat)
  | away (s : State) (cyc : Nat)
  | stop (s : State)
  | later

def State.readAll (s0 : State) (c : CoreId) (world level : Bool) (use : List Word → RemoteUse) :
    List (Nat × Nat) → List Word → List Word → Nat → State → Reads
  | [], _, acc, cyc, s => .ok acc s cyc
  | p :: r, got, acc, cyc, s =>
    match got with
    | w :: g => s0.readAll c world level use r g (acc ++ [w]) cyc (s.agreePush c w none)
    | [] =>
      if !s.rgnAllows c world level .read p.1 then .bad .denied p.1 s (cyc + 1)
      else
        let cy := s.memCycles p.1
        let m : BitVec 4 := BitVec.ofNat 4 (lanes p.1 p.2 0).2
        match (if isRemote p.1 then s0.read1 c p.1 m (use acc) else s.read1 c p.1 m (use acc)) with
        | .ok w t => s0.readAll c world level use r [] (acc ++ [w]) (cyc + cy) t
        | .bad e t => .bad e p.1 t (cyc + s.failCycles e p.1)
        | .away t => .away t cyc
        | .stop t => .stop t
        | .later => .later

/-- The datum that the words of its parts hold. -/
def gather : List (Nat × Nat) → List Word → Nat → Nat
  | p :: r, w :: ws, sh => (bits w (8 * (p.1 % 4)) (8 * p.2)) <<< sh + gather r ws (sh + 8 * p.2)
  | _, _, _ => 0

/-- A load (R203, R208, R209): the datum waits in the load shadow. -/
def State.load (s : State) (c : CoreId) (op : DataOp) (got : List Word) : Pass :=
  match dataCheck op with
  | some f => .fault s f
  | none =>
    let k := s.core c
    let ps := dataParts op.ea.toNat (sizeBytes op.sz) op.una
    match s.readAll c k.world k.lvl (fun l => .load c op l) ps got [] 0 s with
    | .bad e a t m => .fault t (faultAccess e op.ea a) m
    | .away t m => .stay t m
    | .stop t => .stay t
    | .later => .later
    | .ok ws t cyc =>
      let v := gather ps ws 0
      let n := 8 * sizeBytes op.sz
      let w : Word := BitVec.ofNat 32 (if op.sext ∧ v.testBit (n - 1) then v + 2 ^ 32 - 2 ^ n else v)
      let k1 := t.core c
      let k2 := if op.pop then k1.setW 31 (op.ea + 4) else k1
      .done (t.setCore c { k2 with shadow := some (op.a, w) })
        { mem := if op.una ∧ ps.length = 1 then cyc + 1 else cyc, acc := ps.map (fun p => (BitVec.ofNat 32 p.1, false)) }

/-- A store (R208, R209), from its first part, or from its second once the first has been made. -/
def State.store (s : State) (c : CoreId) (op : DataOp) (data : Word) (second : Bool) : Pass :=
  let chk := if second then none else dataCheck op
  match chk with
  | some f => .fault s f
  | none =>
    let k := s.core c
    let ps := dataParts op.ea.toNat (sizeBytes op.sz) op.una
    let put := fun (t : State) (a n off : Nat) (snd : Bool) =>
      let d : Word := BitVec.ofNat 32 (bits data (8 * off) (8 * n))
      if !t.rgnAllows c k.world k.lvl .write a then Acc1.bad .denied t
      else match t.write1 c a n d (.store c op data snd) with
        | .ok w u => Acc1.ok w (u.recStore c (BitVec.ofNat 32 a) n d)
        | r => r
    let fin2 := fun (t : State) (p1 : Nat × Nat) (cyc : Nat) =>
      match ps[1]? with
      | none => Pass.done t { mem := if op.una then cyc + 1 else cyc, acc := ps.map (fun p => (BitVec.ofNat 32 p.1, true)) }
      | some p2 =>
        match put t p2.1 p2.2 p1.2 true with
        | .ok _ u => .done u { mem := cyc + t.memCycles p2.1, acc := ps.map (fun p => (BitVec.ofNat 32 p.1, true)) }
        | .bad e u => .fault u { faultAccess e (BitVec.ofNat 32 p2.1) p2.1 with part := true } (cyc + t.failCycles e p2.1)
        | .away u => .stay u cyc
        | .stop u => .stay u
        | .later => .later
    match ps with
    | [] => .done s {}
    | p1 :: _ =>
      if second then fin2 s p1 0
      else match put s p1.1 p1.2 0 false with
        | .ok _ t => fin2 t p1 (s.memCycles p1.1)
        | .bad e t => .fault t (faultAccess e op.ea p1.1) (s.failCycles e p1.1)
        | .away t | .stop t => .stay t
        | .later => .later

end Sys2Proof.Machine
end

