-- ==== Sys2Proof/Machine/Control.lean ====
section
/-! DEFINITION. Control.lean: branches, calls and the return stack, hardware loops, levels, gates, waits, system registers, and
the return from an exception or interrupt (chapters 6, 7, 9). -/

namespace Sys2Proof.Machine

/-! ## Single bytes -/

/-- NOP (R207). -/
def execNop (c : CoreId) (cc : CC) (s : State) : Host.Outcome State Fault Refusal :=
  .next (s.runInstr c { len := 1 + ccLen cc, cc := cc } (fun _ t => .done t {}))

/-- FDONE (R48, R50): the done flag and the event of the core; a checker's serves only as a checkpoint. SC takes no part. One that
completes in the cycle of a tick counts for neither frame (R49). -/
def execFdone (c : CoreId) (cc : CC) (s : State) : Host.Outcome State Fault Refusal :=
  .next (s.runInstr c { len := 1 + ccLen cc, cc := cc } (fun _ t =>
    let n := t.ownId c
    let u := if c = 36 ∨ t.isChecker c then t else (if t.fab.feed.contains 979 then t else t.putBit (rFdone 0) n true).fireCore (449 + 2 * n)
    .done u { ck := some 1 }))

/-- CHKPT (R283): no effect in SPLIT. -/
def execChkpt (c : CoreId) (cc : CC) (s : State) : Host.Outcome State Fault Refusal :=
  .next (s.runInstr c { len := 1 + ccLen cc, cc := cc } (fun _ t => .done t { ck := some 0 }))

/-- LBFLUSH (R192). -/
def execLbflush (c : CoreId) (cc : CC) (s : State) : Host.Outcome State Fault Refusal :=
  .next (s.runInstr c { len := 1 + ccLen cc, cc := cc } (onRegs c (fun _ k => k.lbRelease)))

/-! ## Branches -/

/-- J (R205, R212). -/
def execJ (c : CoreId) (cc : CC) (disp : Imm) (s : State) : Host.Outcome State Fault Refusal :=
  .next (s.runInstr c { len := 1 + ImmSize.len disp.size + ccLen cc, cc := cc }
    (fun k0 t => .done t { flow := .jump (k0.pc + immS disp) }))

/-- JR (R207, R212). -/
def execJr (c : CoreId) (cc : CC) (a : Reg) (s : State) : Host.Outcome State Fault Refusal :=
  .next (s.runInstr c { len := 2 + ccLen cc, cc := cc } (fun k0 t => .done t { flow := .jump (k0.w a) }))

/-! ## The return stack (R214 to R218) -/

/-- A legal save mask: bit 15 zero, at most six bits (R214). -/
def maskOk (m : BitVec 16) : Bool := !m.getLsbD 15 && decide ((onesBelow m.toNat 16).length ≤ 6)

/-- The registers that a mask names, in ascending number. -/
def maskRegs (m : BitVec 16) : List Reg := (onesBelow m.toNat 15).map (fun i => ⟨(16 + i) % 32, Nat.mod_lt _ (by decide)⟩)

/-- A push would overflow (R215): the stack is full and the world's policy is to trap, or the oldest entry is the other
world's. -/
def State.rsFull (s : State) (c : CoreId) : Bool :=
  let k := s.core c
  decide (16 ≤ k.rstack.length) &&
    (s.flag (rWc c k.world 0) 0 || (match k.rstack.getLast? with | some e => e.world != k.world | none => false))

/-- An entry pushed; in wrap mode the oldest one is discarded. -/
def CoreState.pushRet (k : CoreState) (e : RetEntry) : CoreState := { k with rstack := (e :: k.rstack).take 16 }

/-- The top entry, if the current world has one. -/
def CoreState.topRet (k : CoreState) : Option RetEntry :=
  match k.rstack with
  | e :: _ => if e.world = k.world then some e else none
  | [] => none

/-- The entries that the current world has (RSD). -/
def CoreState.depth (k : CoreState) : Nat := (k.rstack.takeWhile (fun e => e.world == k.world)).length

/-- Words written from a base upward in local memory; nothing is written where a descriptor or an ECC error refuses one. -/
def State.spill (s : State) (c : CoreId) (base : Nat) (ws : List Word) : Except Pass State :=
  let k := s.core c
  let as := (List.range ws.length).map (fun i => base + 4 * i)
  match as.find? (fun a => !s.rgnAllows c k.world k.lvl .write a) with
  | some a => .error (.fault s (faultBus .denied (BitVec.ofNat 32 a)) ((a - base) / 4 + 1))
  | none => match as.find? (fun a => s.eccAt (locAddr c a) == some true) with
    | some a => .error (.fault (s.eccLater 1 (eccUnit (locAddr c a)) true) (faultAccess .ecc 0 a) ((a - base) / 4 + 1))
    | none => .ok ((as.zip ws).foldl (fun t p =>
        (t.ramStore (locAddr c p.1) p.2 15).2.recStore c (BitVec.ofNat 32 p.1) 4 p.2) s)

/-- CALL and CALLR (R216): the return address is the byte after the call. -/
def State.callTo (s : State) (c : CoreId) (k0 : CoreState) (target : Word) (mask : BitVec 16) (len : Nat) : Pass :=
  let regs := maskRegs mask
  let n := regs.length
  let sp := k0.curSp
  let base := sp - BitVec.ofNat 32 (4 * n)
  if s.rsFull c then .fault s (faultRsOver k0.pc)
  else if n ≠ 0 ∧ sp.toNat % 4 ≠ 0 then .fault s (faultMisaligned sp)
  else if n ≠ 0 ∧ s.areaBad c base.toNat (4 * n) then .fault s (faultStack base)
  else match s.spill c base.toNat (regs.map k0.w) with
    | .error p => p
    | .ok t =>
      let k := t.core c
      let k1 := if n = 0 then k else k.setW 31 base
      .done (t.setCore c (k1.pushRet ⟨k0.pc + BitVec.ofNat 32 len, mask, k.world⟩))
        { flow := .call target, mem := n
          acc := (List.range n).map (fun i => (base + BitVec.ofNat 32 (4 * i), true)) }

/-- CALL (R216). -/
def execCall (c : CoreId) (cc : CC) (disp : Imm) (mask : BitVec 16) (s : State) : Host.Outcome State Fault Refusal :=
  let n := 3 + ImmSize.len disp.size + ccLen cc
  .next (s.runInstr c { len := n, data := (maskRegs mask).length, cc := cc, legal := maskOk mask }
    (fun k0 t => t.callTo c k0 (k0.pc + immS disp) mask n))

/-- CALLR (R216). -/
def execCallr (c : CoreId) (cc : CC) (b : Reg) (mask : BitVec 16) (s : State) : Host.Outcome State Fault Refusal :=
  let n := 4 + ccLen cc
  .next (s.runInstr c { len := n, data := (maskRegs mask).length, cc := cc, legal := maskOk mask }
    (fun k0 t => t.callTo c k0 (k0.w b) mask n))

/-- The end of a series of stack reads. -/
def Reads.andThen (r : Reads) (f : List Word → State → Nat → Pass) : Pass :=
  match r with
  | .ok ws t cyc => f ws t cyc
  | .bad e a t m => .fault t (faultAccess e (BitVec.ofNat 32 a) a) m
  | .away t m => .stay t m
  | .stop t => .stay t
  | .later => .later

/-- The addresses of n words from an address upward. -/
def wordsFrom (a n : Nat) : List (Nat × Nat) := (List.range n).map (fun i => ((a + 4 * i) % 2 ^ 32, 4))
def readsOf (ps : List (Nat × Nat)) : List (Word × Bool) := ps.map (fun p => (BitVec.ofNat 32 p.1, false))

/-- RET (R217), with the words that came back over a link in earlier attempts. -/
def State.retRun (s : State) (c : CoreId) (k0 : CoreState) (got : List Word) : Pass :=
  match k0.topRet with
  | none => .fault s (faultRsEmpty k0.pc)
  | some e =>
    let regs := maskRegs e.mask
    let sp := k0.curSp
    let ps := wordsFrom sp.toNat regs.length
    if !regs.isEmpty && sp.toNat % 4 != 0 then .fault s (faultMisaligned sp)
    else (s.readAll c k0.world k0.lvl (fun l => .ret c false l) ps got [] 0 s).andThen (fun ws t cyc =>
      let k := t.core c
      let k1 := (regs.zip ws).foldl (fun k p => k.setW p.1 p.2) k
      let k2 := if regs.isEmpty then k1 else k1.setW 31 (sp + BitVec.ofNat 32 (4 * regs.length))
      .done (t.setCore c { k2 with rstack := k2.rstack.drop 1 }) { flow := .jump e.addr, mem := cyc, acc := readsOf ps })

def execRet (c : CoreId) (s : State) : Host.Outcome State Fault Refusal :=
  .next (s.runInstr c { len := 1 } (fun k0 t => t.retRun c k0 []))

/-- RSPUSH (R218). -/
def execRspush (c : CoreId) (s : State) : Host.Outcome State Fault Refusal :=
  .next (s.runInstr c { len := 1, data := 2 } (fun k0 t =>
    let base := k0.curSp - 8
    match k0.topRet with
    | none => .fault t (faultRsEmpty k0.pc)
    | some e =>
      if base.toNat % 4 ≠ 0 then .fault t (faultMisaligned k0.curSp)
      else if t.areaBad c base.toNat 8 then .fault t (faultStack base)
      else match t.spill c base.toNat [e.addr, e.mask.setWidth 32] with
        | .error p => p
        | .ok u =>
          let k := (u.core c).setW 31 base
          .done (u.setCore c { k with rstack := k.rstack.drop 1 }) { mem := 2, acc := [(base, true), (base + 4, true)] }))

/-- RSPOP (R218): a mask that R214 would refuse takes STACK_FAULT. Bits 31:16 of its word, which RSPUSH writes as zero, are not judged
(DESIGN CHOICE, log entry 43). -/
def execRspop (c : CoreId) (s : State) : Host.Outcome State Fault Refusal :=
  .next (s.runInstr c { len := 1, data := 2 } (fun k0 t =>
    let sp := k0.curSp
    if t.rsFull c then .fault t (faultRsOver k0.pc)
    else if sp.toNat % 4 ≠ 0 then .fault t (faultMisaligned sp)
    else if t.areaBad c sp.toNat 8 then .fault t (faultStack sp)
    else
      let ps := wordsFrom sp.toNat 2
      (t.readAll c k0.world k0.lvl (fun l => .ret c false l) ps [] [] 0 t).andThen (fun ws u cyc =>
        let m : BitVec 16 := (ws.getD 1 0).extractLsb' 0 16
        if !maskOk m then .fault u (faultStack sp) cyc
        else
          let k := (u.core c).setW 31 (sp + 8)
          .done (u.setCore c (k.pushRet ⟨ws.getD 0 0, m, k.world⟩)) { mem := cyc, acc := readsOf ps })))

/-! ## Hardware loops (R177, R211) -/

/-- The capture range of a body: base and number of fetch words. -/
def capRange (ls le : Word) : Nat × Nat := (ls.toNat / 8 * 8, (le.toNat - 1) / 8 + 1 - ls.toNat / 8)

/-- A capture of the body of level l starts, or one that covers it is kept (R177). -/
def CoreState.startCapture (k : CoreState) (on : Bool) (l : Fin 2) : CoreState :=
  let r := capRange k.ls[l] k.le[l]
  let covered := match k.lbBase with
    | some b => decide (b.toNat ≤ r.1) && decide (r.1 + 8 * r.2 ≤ b.toNat + 8 * k.lbLen)
    | none => false
  if on && decide (r.2 ≤ 16) && !covered then
    { k with lbBase := some (BitVec.ofNat 32 r.1), lbLen := r.2, lbCap := 0, lbLevel := l, lbLs := k.ls[l], lbLe := k.le[l] }
  else k

/-- LOOP (R211): a count of 0 skips the body; no loop begins or ends, and the capture stays (R177, R180). -/
def execLoop (c : CoreId) (level : Fin 2) (len : BitVec 16) (count : LoopCount) (s : State) : Host.Outcome State Fault Refusal :=
  let n := match count with | .reg _ => 4 | .imm _ => 6
  .next (s.runInstr c { len := n, legal := len != 0 } (fun k0 t =>
    let k := t.core c
    let ls := k0.pc + BitVec.ofNat 32 n
    let le := ls + len.setWidth 32
    let cnt : Word := match count with | .reg b => k0.w b | .imm v => v.setWidth 32
    let k1 := { k with ls := k.ls.set level ls, le := k.le.set level le
                       susp := k.susp &&& ~~~ BitVec.ofNat 2 (2 ^ level.val) }
    if cnt = 0 then .done (t.setCore c { k1 with lc := k1.lc.set level 0 }) { flow := .skip le }
    else
      let k2 := { k1 with lc := k1.lc.set level cnt }
      .done (t.setCore c (k2.startCapture (t.flag (rLbCtl c) 0) level)) {}))

/-! ## Levels and worlds (R206, R252) -/

/-- SETLVL (R206, R254): ILLEGAL_OPCODE at user level. -/
def execSetlvl (c : CoreId) (l : Bool) (im : BitVec 4) (s : State) : Host.Outcome State Fault Refusal :=
  .next (s.runInstr c { len := 2 } (fun k0 t =>
    let k := t.core c
    if !k0.lvl then .fault t (faultIllegal k0.pc)
    else .done (t.setCore c { k with st := setBits (setBit k.st 12 l) 8 4 im.toNat }) { hold := true }))

/-- GATE (R252): the other world's gate n; on SC always refused. -/
def execGate (c : CoreId) (n : Fin 16) (s : State) : Host.Outcome State Fault Refusal :=
  .next (s.runInstr c { len := 2 } (fun k0 t =>
    let g := t.rg (rWc c (!k0.world) (0x040 + 4 * n))
    let k := t.core c
    if c = 36 ∨ !bit g 31 then .fault t (faultBus .denied (BitVec.ofNat 32 n))
    else .done (t.setCore c { k with st := setBit (setBit k.st 13 (!k0.world)) 12 (bit g 30) })
      { flow := .call (BitVec.ofNat 32 (bits g 0 18)), hold := true }))

/-! ## Samples (R182, R226, R227) -/

/-- WAITS (R182): satisfied, it completes; else the core waits, with pc at the WAITS. SC has no sample registers (R224). A checker
whose next input is another one stops its pair (R279). -/
def execWaits (c : CoreId) (n : Fin 16) (final : Bool) (s : State) : Host.Outcome State Fault Refusal :=
  .next (s.runInstr c { len := 2, legal := c != 36 } (fun k0 t =>
    match t.waitClash c with
    | some p => .stay (t.mismatch p 3)
    | none =>
    if t.waitMet c n final then .done (t.waitAgree c) {}
    else .stay (t.setCore c { t.core c with run := .waiting n final, waitPc := k0.pc, noInt := false })))

/-- WAITS_WAKE (R183). -/
def execWaitsWake (c : CoreId) (s : State) : Host.Outcome State Fault Refusal := .next (s.wakeCore c)

/-- Sample register n is read and its flags clear (R226); an unbound one reads 0 (R228); a pair's reads pass through the agreement
buffer (R279). -/
def State.sampleRead (s : State) (c : CoreId) (n : Fin 16) : Option (Word × State) :=
  let v := if s.smpBound c n then (s.core c).smp[n] else 0
  let clear := fun (t : State) =>
    let k := t.core c
    let m : BitVec 16 := ~~~ BitVec.ofNat 16 (2 ^ n.val)
    t.setCore c { k with newE := k.newE &&& m, newF := k.newF &&& m }
  match s.role c with
  | .checker k =>
    if s.checking k then (s.agreeTake k).map (fun r => (r.1.value, r.2))
    else some (v, clear s)
  | _ =>
    some (v, (clear s).agreePush c v none)

/-- RDS (R226). -/
def execRds (c : CoreId) (cc : CC) (a : Reg) (n : Fin 32) (s : State) : Host.Outcome State Fault Refusal :=
  .next (s.runInstr c { len := 3 + ccLen cc, cc := cc, legal := decide (n.val < 16) && c != 36 } (fun _ t =>
    match t.sampleRead c ⟨n.val % 16, Nat.mod_lt _ (by decide)⟩ with
    | some (v, u) => .done (u.setCore c ((u.core c).setW a v)) {}
    | none => match t.role c with
      | .checker k => .stay (t.mismatch k 3)
      | _ => .done t {}))

/-! ## System registers (R213) -/

/-- A system register read. -/
def CoreState.sysGet (k : CoreState) (sr : Nat) : Word :=
  match sr with
  | 0 => k.st
  | 1 => k.lc[0]
  | 2 => k.ls[0]
  | 3 => k.le[0]
  | 4 => k.lc[1]
  | 5 => k.ls[1]
  | 6 => k.le[1]
  | 7 => k.pc
  | _ => BitVec.ofNat 32 k.depth

/-- A system register written: of ST the RW fields, and 0 in lc ends its level. A loop whose bounds change stays the one that started
the capture (R180). -/
def CoreState.sysPut (k : CoreState) (sr : Nat) (v : Word) : CoreState :=
  match sr with
  | 0 => { k with st := setBits k.st 0 7 v.toNat }
  | 1 => if v = 0 then k.endLevel 0 else { k with lc := k.lc.set 0 v }
  | 2 => { k with ls := k.ls.set 0 v, lbLs := if k.starts 0 then v else k.lbLs }
  | 3 => { k with le := k.le.set 0 v, lbLe := if k.starts 0 then v else k.lbLe }
  | 4 => if v = 0 then k.endLevel 1 else { k with lc := k.lc.set 1 v }
  | 5 => { k with ls := k.ls.set 1 v, lbLs := if k.starts 1 then v else k.lbLs }
  | _ => { k with le := k.le.set 1 v, lbLe := if k.starts 1 then v else k.lbLe }

/-- MFS (R213). -/
def execMfs (c : CoreId) (cc : CC) (a : Reg) (sr : Fin 32) (s : State) : Host.Outcome State Fault Refusal :=
  .next (s.runReg c { len := 3 + ccLen cc, cc := cc, legal := decide (sr.val ≤ 8) } a (fun k => k.sysGet sr))

/-- MTS (R213). -/
def execMts (c : CoreId) (cc : CC) (a : Reg) (sr : Fin 32) (s : State) : Host.Outcome State Fault Refusal :=
  .next (s.runInstr c { len := 3 + ccLen cc, cc := cc, legal := decide (sr.val ≤ 6) }
    (onRegs c (fun k0 k => k.sysPut sr (k0.w a))))

/-! ## Interrupts (R185, R259, R267 to R271, R281) -/

/-- The interrupt that a vector names, for a checker that takes what its main has taken. -/
def State.irqOf (s : State) (c : CoreId) (vec : Nat) : Irq :=
  if vec = 8 then ⟨8, bits (s.rg (rIcCtl c)) 0 4, bit (s.rg (rIcCtl c)) 4⟩
  else ⟨vec, bits (s.route (vec - 16)) 8 4, bit (s.route (vec - 16)) 12⟩

/-- The checker's next interrupt at its present count, as its main has left it; `chain` tells a chained one (R270). -/
def State.intDue (s : State) (k : Fin 16) (chain : Bool) : Option (Nat × State) :=
  let p := s.pair k
  match p.ints with
  | (n, v) :: r =>
    if n = p.cntC ∧ v.testBit 12 = chain then some (v, s.setPair k { p with ints := r }) else none
  | [] => none

/-- The interrupt that core c would take above a mask, among those of one world where `w` names it, and whether it abandons an
instruction: a main's choice `ab`, which its checker follows (R189). -/
def State.intPick (s : State) (c : CoreId) (im : Nat) (w : Option Bool) (chain ab : Bool) : Option (Irq × Bool × State) :=
  let own := fun (_ : Unit) =>
    let l := (s.irqs c).filter (fun i => match w with | some b => i.world == b | none => true)
    match bestIrq l im with
    | none => none
    | some i => match s.role c with
      | .main k => if s.checking k then
          some (i, ab, s.setPair k { s.pair k with
            ints := (s.pair k).ints ++ [((s.pair k).cntM, i.vec + 4096 * b2n chain + 8192 * b2n ab)] })
        else some (i, ab, s)
      | _ => some (i, ab, s)
  match s.role c with
  | .checker k =>
    if s.checking k then (s.intDue k chain).map (fun r => (s.irqOf c (r.1 % 4096), r.1.testBit 13, r.2)) else own ()
  | _ => own ()

/-- INTERRUPT_ENTRY (R185, R260): at a point that R185 admits, and not during another entry (R267). `abandon` names the abandonable
instruction that the entry found before its commit point, which LB_ABN counts; a checker abandons what its main did (R189). -/
def execInterruptEntry (c : CoreId) (abandon : Option Abandonable) (s : State) : Host.Outcome State Fault Refusal :=
  let k := s.core c
  let free := match k.run with
    | .running | .waiting _ _ => true
    | _ => false
  .next (if !s.domReady c || !free || k.noInt || s.stepMasked c || (s.entryOf c).isSome then s
    else match s.intPick c k.im none false (abandon.isSome && k.run == .running) with
      | none => s
      | some (i, ab, t) =>
        let t1 := (t.resetIdx c).setCore c { t.core c with resumed := false }
        let t2 := t1.takeIrq c i
        let t3 := if ab then t2.abandoned c else t2
        t3.boundary c)

/-! ## RETX (R264, R270) -/

/-- The capture that a return starts for the innermost active loop whose range fits (R181), from within its body or from a subroutine
called there. Every return does so that finds no capture covering the range, also where no handler's LOOP discarded it (R192; DESIGN
CHOICE, log entry 43). -/
def CoreState.reenter (k : CoreState) (on : Bool) : CoreState :=
  let fits := fun (l : Fin 2) => k.judged l && decide ((capRange k.ls[l] k.le[l]).2 ≤ 16)
  if fits 1 then k.startCapture on 1 else if fits 0 then k.startCapture on 0 else k

/-- A return that chains to interrupt i, after the read of memory 1 in cyc cycles: its vector is read, and the frame stays on the
stack. -/
def State.chainTo (s0 : State) (c : CoreId) (i : Irq) (cyc : Nat) (acc : List (Word × Bool)) : Pass :=
  let vt := (s0.rg (rWc c i.world 0x004)).toNat + 4 * i.vec
  let r := s0.eccRead (s0.vecAddr c i.world i.vec)
  let s := r.2
  if !r.1 then .fault s (s0.vectorFault c i.world i.vec) (cyc + 1)
  else
    let t := s.pendIrq c i.vec false
    let k := t.core c
    let rec0 := k.cross[k.im % 16]!
    let k1 := { k with
      cross := (k.cross.set! (k.im % 16) none).set! (i.prio % 16) rec0
      st := setBits k.st 8 4 i.prio
      pc := t.memWord (t.vecAddr c i.world i.vec)
      vecs := i.vec :: k.vecs.drop 1 }
    let u := (t.setCore c k1).record c (pairRecord (BitVec.ofNat 32 vt) 4 0 (BitVec.ofNat 32 i.vec) 0)
    .done u { flow := .back none, mem := cyc + 1, acc := acc }

/-- RETX (R264), with the words that came back over a link in earlier attempts. -/
def State.retxRun (s : State) (c : CoreId) (k0 : CoreState) (got : List Word) : Pass :=
  let sp := k0.curSp
  let at_ := fun (o : Nat) => ((sp.toNat + o) % 2 ^ 32, 4)
  if !k0.lvl then .fault s (faultIllegal k0.pc)
  else if sp.toNat % 4 ≠ 0 then .fault s (faultMisaligned sp)
  else
    (s.readAll c k0.world true (fun l => .ret c true l) [at_ 8] (got.take 1) [] 0 s).andThen (fun w1 t cyc1 =>
      let st := w1.getD 0 0 &&& 0x3F7F
      -- no interrupt is recognised in a masked step (R460)
      match (if t.stepMasked c then none else t.intPick c (bits st 8 4) (some k0.world) true false) with
      | some (i, _, u) => u.chainTo c i cyc1 (readsOf [at_ 8])
      | none =>
        let crossing := bit st 13 != k0.world
        if crossing && k0.cross[k0.im % 16]! != some sp then .fault t (faultBus .denied sp) cyc1
        else
          (s.readAll c k0.world true (fun l => .ret c true l) [at_ 12, at_ 4] (got.drop 1) w1 cyc1 t).andThen (fun ws u cyc =>
            let k := u.core c
            let k1 := { k.setW 31 (sp + 16) with
              cross := if crossing then k.cross.set! (k.im % 16) none else k.cross
              susp := (ws.getD 2 0).extractLsb' 0 2, pc := ws.getD 1 0, vecs := k.vecs.drop 1 }
            let k2 := { k1 with st := st }
            .done (u.setCore c (k2.reenter (u.flag (rLbCtl c) 0)))
              { flow := .back (some (ws.getD 1 0)), mem := cyc, acc := readsOf [at_ 8, at_ 12, at_ 4] }))

def execRetx (c : CoreId) (s : State) : Host.Outcome State Fault Refusal :=
  .next (s.runInstr c { len := 1, data := 3 } (fun k0 t => t.retxRun c k0 []))

end Sys2Proof.Machine
end

