-- ==== Sys2Proof/Machine/LawInstr.lean ====
section
/-! DEFINITION. LawInstr.lean: the law-page instructions and the duty writes, as the core runs them (R219, R222, R225 to R245). -/

namespace Sys2Proof.Machine

/-! ## Operands of a law (R222, Table 43) -/

/-- What Table 43 says of a law instruction: inputs, outputs, execute states, and which of SPEC, DD and SS it takes. -/
structure LawForm where
  nin  : Nat
  nout : Nat
  ex   : Nat
  spec : Bool := false
  dd   : Bool := false
  ss   : Bool := false
  deriving DecidableEq, Repr

/-- The register ranges of a law lie within w31, d7 and s15. -/
def lawRange (nin nout : Nat) (a r : Reg) (lc : Byte) : Bool :=
  decide (a.val + nout ≤ if lc.getLsbD 1 then 8 else 32) && decide (r.val + nin ≤ if lc.getLsbD 2 then 16 else 32)

/-- The law-control byte asks for nothing that the instruction does not have. -/
def LawForm.control (f : LawForm) (lc : Byte) : Bool :=
  (f.spec || !lc.getLsbD 0) && (f.dd || !lc.getLsbD 1) && (f.ss || !lc.getLsbD 2) && decide (lc.toNat < 8)

/-- A law instruction as the core sees it; B is 0 where there is no descriptor. -/
def lawEnc (f : LawForm) (c : CoreId) (cc : CC) (a r : Reg) (lc : Byte) (bOk : Bool) : Enc :=
  { len := 5 + ccLen cc, ex := f.ex, cc := cc,
    legal := decide (c ≠ 36) && bOk && f.control lc && lawRange f.nin f.nout a r lc }

/-- n inputs from register r onward, or from sample register r as VALUE × 2¹⁶. None where a pair's agreement fails. -/
def State.lawInputs (s : State) (c : CoreId) (ss : Bool) (k0 : CoreState) (r : Nat) : Nat → List Word → Option (List Word × State)
  | 0, l => some (l, s)
  | n + 1, l =>
    if ss then
      match s.sampleRead c (fin 16 r (by decide)) with
      | some (v, t) => t.lawInputs c ss k0 (r + 1) n (l ++ [v <<< 16])
      | none => none
    else s.lawInputs c ss k0 (r + 1) n (l ++ [k0.w (fin 32 r (by decide))])

/-- Words i, i+1, … of a descriptor are read. -/
def State.descRead (s : State) (c : CoreId) (base : Nat) : List Nat → List Word → Except FaultRec (List Word) × State
  | [], l => (.ok l, s)
  | i :: r, l =>
    let a := base + 4 * i
    let k := s.core c
    if !s.rgnAllows c k.world k.lvl .read a then (.error (faultBus .denied (BitVec.ofNat 32 a)), s)
    else match s.ramRead (locAddr c a) with
      | (.ok w, t) => t.descRead c base r (l ++ [w])
      | (.error e, t) => (.error (faultBus e (BitVec.ofNat 32 (a / 8 * 8))), t)

/-- The words of a descriptor that changed are written; the address of one that may not be. -/
def State.descWrite (s : State) (c : CoreId) (base : Nat) : List (Nat × Word) → Except FaultRec State
  | [] => .ok s
  | (i, w) :: r =>
    let a := base + 4 * i
    let k := s.core c
    if !s.rgnAllows c k.world k.lvl .write a then .error (faultBus .denied (BitVec.ofNat 32 a))
    else match s.ramWrite (locAddr c a) w 15 with
      | (.ok t, _) => t.descWrite c base r
      | (.error e, _) => .error (faultBus e (BitVec.ofNat 32 (a / 8 * 8)))

/-- Where a descriptor may lie: in the core's own local memory, on 64 bytes. -/
def descBad (p : Word) : Option FaultRec :=
  if localSize ≤ p.toNat then some (faultBus .denied p)
  else if p.toNat % 64 ≠ 0 then some (faultMisaligned p)
  else none

/-- The fields that a pass of each law writes (Tables 44 and 45), and those that SETTLE writes (R242). -/
def piFields (pid : Bool) : List Nat := if pid then [6, 7, 8, 9, 10, 11, 12, 15] else [6, 8, 9, 10, 11, 12, 15]
def focFields : List Nat := [4, 5, 8, 9, 10, 11, 12, 13, 14, 15]
def settleFields (law : Nat) : List Nat :=
  match law with
  | 3 => [4, 5, 12, 13, 14, 15]
  | 2 => [6, 7, 10, 15]
  | _ => [6, 10, 15]

/-- The outputs of a law: to w(A) onward, or into the staging of d(A) onward (R232). -/
def CoreState.lawOutputs (k : CoreState) (dd : Bool) (a : Nat) : List Word → CoreState
  | [] => k
  | v :: r =>
    let k1 := if dd then { k with duty := k.duty.set (a % 8) (some v) (Nat.mod_lt _ (by decide)) }
      else k.setW (fin 32 a (by decide)) v
    k1.lawOutputs dd (a + 1) r

/-- The commit point of a law (R236): descriptor, outputs, Q and SF. -/
def State.lawCommit (s : State) (c : CoreId) (base : Nat) (dd : Bool) (a : Reg) (outs : List Word) (fields : List Nat)
    (reads : List Nat) (o : LawOut) : Pass :=
  let ws := match o.desc with
    | some d => fields.map (fun i => (i, d.getD i 0))
    | none => []
  match s.descWrite c base ws with
  | .error f => .fault s f
  | .ok t =>
    let k := ((t.core c).lawOutputs dd a.val outs).sticky stQ o.q
    let k1 := match o.sf with | some b => k.setSt stSF b | none => k
    let at4 := fun (i : Nat) => BitVec.ofNat 32 (base + 4 * i)
    .done (t.setCore c k1) { acc := reads.map (fun i => (at4 i, false)) ++ ws.map (fun e => (at4 e.1, true)) }

/-- A law without a descriptor. -/
def State.runPlainLaw (s : State) (f : LawForm) (c : CoreId) (cc : CC) (a b r : Reg) (lc : Byte) (law : List Word → LawOut) : State :=
  s.runInstr c (lawEnc f c cc a r lc (decide (b = 0))) (fun k0 t =>
    match t.lawInputs c (lc.getLsbD 2) k0 r.val f.nin [] with
    | some (l, u) => let o := law l; u.lawCommit c 0 false a o.outs [] [] o
    | none => match t.role c with
      | .checker k => .stay (t.mismatch k 3)
      | _ => .done t {})

/-- A law on the descriptor that w(B) names: the words it reads and writes, and its arithmetic. A speculative pass writes its
descriptor only (R232, R240). -/
def State.runDescLaw (s : State) (f : LawForm) (c : CoreId) (cc : CC) (a b r : Reg) (lc : Byte) (reads writes : List Nat)
    (law : List Word → List Word → LawOut) : State :=
  s.runInstr c (lawEnc f c cc a r lc true) (fun k0 t =>
    let p := k0.w b
    match descBad p with
    | some f => .fault t f
    | none =>
      match t.descRead c p.toNat reads [] with
      | (.error e, u) => .fault u e
      | (.ok ws, u) =>
        let d := (List.range 16).map (fun i => match reads.findIdx? (· == i) with | some j => ws.getD j 0 | none => 0)
        match u.lawInputs c (lc.getLsbD 2) k0 r.val f.nin [] with
        | some (l, v) =>
          let o := law l d
          -- a refused descriptor write changes nothing: the sample flags stand (R256)
          match v.lawCommit c p.toNat (lc.getLsbD 1) a (if lc.getLsbD 0 then [] else o.outs) writes reads o with
          | .fault _ f => .fault u f
          | x => x
        | none => match u.role c with
          | .checker k => .stay (u.mismatch k 3)
          | _ => .done u {})

/-! ## The law instructions -/

def lawIn (l : List Word) (i : Nat) : Word := l.getD i 0

/-- The two results of a descriptor-free law. -/
def twoOuts (p : Q × Q) : LawOut := ⟨[wordOf p.1.1, wordOf p.2.1], none, p.1.2 || p.2.2, none⟩

/-- The descriptor words that LAWPI and LAWPID read. -/
def piReads (pid : Bool) : List Nat := if pid then [0, 1, 2, 3, 4, 5, 6, 7] else [0, 1, 2, 4, 5, 6, 7]

/-- LAWPI (R238). -/
def execLawpi (c : CoreId) (cc : CC) (a b r : Reg) (lc : Byte) (s : State) : Host.Outcome State Fault Refusal :=
  .next (s.runDescLaw { nin := 1, nout := 1, ex := 4, spec := true, ss := true } c cc a b r lc (piReads false) (piFields false)
    (fun l d => piLaw false (lc.getLsbD 0) (lawIn l 0) d))

/-- LAWPID (R238). -/
def execLawpid (c : CoreId) (cc : CC) (a b r : Reg) (lc : Byte) (s : State) : Host.Outcome State Fault Refusal :=
  .next (s.runDescLaw { nin := 1, nout := 1, ex := 6, spec := true, ss := true } c cc a b r lc (piReads true) (piFields true)
    (fun l d => piLaw true (lc.getLsbD 0) (lawIn l 0) d))

/-- CLARKE (R237). -/
def execClarke (c : CoreId) (cc : CC) (a b r : Reg) (lc : Byte) (s : State) : Host.Outcome State Fault Refusal :=
  .next (s.runPlainLaw { nin := 2, nout := 2, ex := 2, ss := true } c cc a b r lc
    (fun l => twoOuts (clarkeLaw (qof (lawIn l 0)) (qof (lawIn l 1)))))

/-- PARK (R237). -/
def execPark (c : CoreId) (cc : CC) (a b r : Reg) (lc : Byte) (s : State) : Host.Outcome State Fault Refusal :=
  .next (s.runPlainLaw { nin := 3, nout := 2, ex := 3 } c cc a b r lc
    (fun l => twoOuts (parkLaw (lawIn l 0) (lawIn l 1) (lawIn l 2))))

/-- IPARK (R237). -/
def execIpark (c : CoreId) (cc : CC) (a b r : Reg) (lc : Byte) (s : State) : Host.Outcome State Fault Refusal :=
  .next (s.runPlainLaw { nin := 3, nout := 2, ex := 3 } c cc a b r lc
    (fun l => twoOuts (iparkLaw (lawIn l 0) (lawIn l 1) (lawIn l 2))))

/-- SINCOS (R237). -/
def execSincos (c : CoreId) (cc : CC) (a b r : Reg) (lc : Byte) (s : State) : Host.Outcome State Fault Refusal :=
  .next (s.runPlainLaw { nin := 1, nout := 2, ex := 8 } c cc a b r lc
    (fun l => let x := sincos (lawIn l 0); ⟨[wordOf x.1, wordOf x.2], none, false, none⟩))

/-- SVPWM (R239): of the descriptor it reads the word at 0x1C. -/
def execSvpwm (c : CoreId) (cc : CC) (a b r : Reg) (lc : Byte) (s : State) : Host.Outcome State Fault Refusal :=
  .next (s.runDescLaw { nin := 2, nout := 3, ex := 5, dd := true } c cc a b r lc [7] []
    (fun l d => svpwmLaw (lawIn l 0) (lawIn l 1) d))

/-- LAWFOC (R239). -/
def execLawfoc (c : CoreId) (cc : CC) (a b r : Reg) (lc : Byte) (s : State) : Host.Outcome State Fault Refusal :=
  .next (s.runDescLaw { nin := 2, nout := 3, ex := 30, spec := true, dd := true, ss := true } c cc a b r lc
    [0, 1, 2, 3, 4, 5, 6, 7] focFields (fun l d => focLaw (lc.getLsbD 0) (lawIn l 0) (lawIn l 1) d))

/-- What SETTLE makes of the descriptor's FLAGS (R242, R245): none where it takes ILLEGAL_OPCODE; otherwise the number of its
inputs and outputs. -/
def settleShape (fl : Word) (a r : Reg) (lc : Byte) : Option (Nat × Nat) :=
  let law := bits fl 12 2
  let n := if law = 3 then (2, 3) else (1, 1)
  if law = 0 then (if bit fl 0 then none else some (0, 0))
  else if law ≠ 3 ∧ lc.getLsbD 1 then none
  else if !lawRange n.1 n.2 a r lc then none
  else if bit fl 0 then some n
  else some (0, 0)

/-- SETTLE (R242 to R245). -/
def execSettle (c : CoreId) (cc : CC) (a b r : Reg) (lc : Byte) (s : State) : Host.Outcome State Fault Refusal :=
  .next (s.runInstr c (lawEnc { nin := 0, nout := 0, ex := 2, dd := true, ss := true } c cc 0 0 lc true) (fun k0 t =>
    let p := k0.w b
    match descBad p with
    | some f => .fault t f
    | none =>
      match t.descRead c p.toNat (List.range 16) [] with
      | (.error e, u) => .fault u e
      | (.ok d, u) =>
        match settleShape (d.getD 15 0) a r lc with
        | none => .fault u (faultIllegal k0.pc)
        | some (nin, _) =>
          match u.lawInputs c (lc.getLsbD 2) k0 r.val nin [] with
          | none => match u.role c with
            | .checker k => .stay (u.mismatch k 3)
            | _ => .done u {}
          | some (l, v) =>
            let o := settleLaw l d
            let counted := o.desc.isSome && o.sf == some true
            let v1 := if counted && !v.isChecker c then v.count (rCpSfcnt (v.bindBlock c)) 0 16 1 else v
            let v2 := if counted then v1.pmCore c 5 1 else v1
            match v2.lawCommit c p.toNat (lc.getLsbD 1) a o.outs (settleFields (bits (d.getD 15 0) 12 2)) (List.range 16) o with
            | .fault _ f => .fault u f
            | x => x))

/-! ## Duty writes (R229 to R235) -/

/-- The address at which a write to duty register j of block n is refused (R234). -/
def State.dutyAddr (s : State) (n j : Nat) (pairWrite : Bool) : Word :=
  let b := s.rg (rDbind n j)
  BitVec.ofNat 32 (if !bit b 15 then rDbind n j
    else if bits b 8 2 = 1 ∧ !pairWrite then rPtShB (bits b 0 6) else rPtShA (bits b 0 6))

/-- Duty register j may be written: bound, and a pin of its timer claimed in the world given. RELEASE has no timer. -/
def State.dutyOk (s : State) (n j : Nat) (world : Bool) : Bool :=
  let b := s.rg (rDbind n j)
  let t := bits b 0 6
  bit b 15 && (bits b 8 2 == 3 || (decide (t < 48) && (s.claimIn n world (2 * t) || s.claimIn n world (2 * t + 1))))

/-- The staged values of the core as a release sends them: those of RELEASE registers go nowhere (R233). -/
def State.releaseList (s : State) (c : CoreId) (n : Nat) : List (Option Word) :=
  (List.range 8).map (fun j => if bits (s.rg (rDbind n j)) 8 2 = 3 then none else (s.core c).duty.toList.getD j none)

/-- An output of the core to its duty registers: recorded, and sent, held or compared as its role says (R235, R284). -/
def State.dutyOut (s : State) (c : CoreId) (j : Fin 8) (kind : Fin 3) (x y : Word) (staged : List (Option Word)) : Pass :=
  let n := s.bindBlock c
  let rec1 := fun (t : State) => t.record c (pairRecord (BitVec.ofNat 32 j.val) 2 kind.val x y)
  let o := PairOut.duty j kind x y staged
  match s.role c with
  | .checker k =>
    if s.checking k then
      match s.checkOut k o with
      | .ok _ t => .done (rec1 t) {}
      | .stop t => .stay t
      | _ => .later
    else .done (rec1 s) {}
  | _ => match s.sluiced c with
    | some k => .done (rec1 (s.holdOut k o)) {}
    | none => .done (rec1 (s.dutySend n j kind x y staged)) {}

/-- A duty write or release of the core (R230, R233, R234). -/
def State.dutyWrite (s : State) (c : CoreId) (j : Fin 8) (pairWrite : Bool) (x y : Word) : Pass :=
  let n := s.bindBlock c
  let k := s.core c
  let b := s.rg (rDbind n j)
  if s.fenced c then .fault (s.ghost c) (faultBus .fenced (s.dutyAddr n j pairWrite))
  else if !s.dutyOk n j k.world then .fault s (faultBus .denied (s.dutyAddr n j pairWrite))
  else if bits b 8 2 = 3 then
    let st := s.releaseList c n
    match (List.range 8).find? (fun i => (st.getD i none).isSome && !s.dutyOk n i k.world) with
    | some i =>
      let t := if s.isChecker c then s else s.hwFlag (rCpStage n) 8
      .fault t (faultBus .denied (s.dutyAddr n i false))
    | none => (s.setCore c { k with duty := Vector.replicate 8 none }).dutyOut c j 2 x y st
  else (s.setCore c { k with duty := k.duty.set j none }).dutyOut c j (if pairWrite then 1 else 0) x y []

/-- DUTY (R230). -/
def execDuty (c : CoreId) (cc : CC) (d r : Reg) (s : State) : Host.Outcome State Fault Refusal :=
  .next (s.runInstr c { len := 4 + ccLen cc, cc := cc, legal := decide (c ≠ 36) && decide (d.val < 8) } (fun k0 t =>
    t.dutyWrite c (fin 8 d.val (by decide)) false (k0.w r) 0))

/-- DUTYC (R230). -/
def execDutyc (c : CoreId) (cc : CC) (d b r : Reg) (s : State) : Host.Outcome State Fault Refusal :=
  .next (s.runInstr c { len := 4 + ccLen cc, cc := cc, legal := decide (c ≠ 36) && decide (d.val < 8) } (fun k0 t =>
    t.dutyWrite c (fin 8 d.val (by decide)) true (k0.w b) (k0.w r)))

end Sys2Proof.Machine
end

