-- ==== Sys2Proof/Machine/Rows.lean ====
section
/-! DEFINITION. Rows.lean: the commands that are one write or one read of a register, by the address at which the master makes
the access: who may, what is refused and what the register does stand in Bus.lean. -/

namespace Sys2Proof.Machine

/-! ## Accesses made by commands -/

/-- How an access of a core came out, for the command that made it: `ok` tells what an access that was made becomes. One that is out
on a link is answered later; one that must wait, and one that stops its pair, are not answered. -/
def State.rowEnd (s : State) (r : Acc1) (ok : Word → State → State) : State :=
  match r with
  | .ok w t => ok w t
  | .bad e t => t.refuse e
  | .away t | .stop t => t
  | .later => s

/-- A core, or SC's own code, checks its access against its descriptors before it leaves (R250, R251). -/
def State.ownGrants (s : State) (x : Ctx) (p : Perm) (a : Nat) : Bool := decide (37 ≤ x.id) || s.rgnAllows x.id x.world x.level p a

/-- A register write by a master, answered in `resp`. A core's is a store of that core: a fenced one is turned away (R296), and in a
pair it is an output (R276, R282, R284). -/
def State.cmdWrite (s : State) (m : Master) (a : Nat) (v : Word) : State :=
  if m = .debug ∧ s.debugShut true then s.refuse .denied
  else match s.ctxMaster m with
    | none => s.refuse .denied
    | some x =>
      if !s.ownGrants x .write a then s.refuse .denied
      else if h : x.id < 36 then
        s.rowEnd (s.write1 ⟨x.id, by omega⟩ a 4 v .command) (fun _ t => (t.recStore ⟨x.id, by omega⟩ (BitVec.ofNat 32 a) 4 v).answer 0)
      else if isRemote a then
        match s.remoteIssue a true v 15 x.world .command with
        | .ok t => t
        | .error e => s.refuse e
      else match s.busWrite x a v 15 with
        | (none, t) => t.answer 0
        | (some e, t) => t.refuse e

/-- A register read by a master, answered in `resp`. A core's passes through the agreement buffer of its pair (R279). -/
def State.cmdRead (s : State) (m : Master) (a : Nat) : State :=
  if m = .debug ∧ s.debugShut false then s.refuse .denied
  else match s.ctxMaster m with
    | none => s.refuse .denied
    | some x =>
      if !s.ownGrants x .read a then s.refuse .denied
      else if h : x.id < 36 then s.rowEnd (s.read1 ⟨x.id, by omega⟩ a 15 .command) (fun w t => t.answer w)
      else if isRemote a then
        match s.remoteIssue a false 0 15 x.world .command with
        | .ok t => t
        | .error e => s.refuse e
      else if s.flashWaits a && !(x.debug && decide (1 ≤ s.prot.val)) then
        { s with stalls := s.stalls ++ [⟨x.id, BitVec.ofNat 32 a, .command⟩] }
      else match s.busRead x a with
        | (.ok w, t) => t.answer w
        | (.error e, t) => t.refuse e

/-- The register at address a as a write must repeat it to change nothing: its RW fields as they are, 0 elsewhere. -/
def State.rwPart (s : State) (a : Nat) : Word :=
  (descOf a).flds.foldl (fun w f => if f.acc = .w1c then w else setBits w f.lo f.len (s.fld a f.lo f.len)) 0

/-- A master writes one field of a register, and repeats the others. -/
def State.fieldWrite (s : State) (m : Master) (a lo len v : Nat) : State := s.cmdWrite m a (setBits (s.rwPart a) lo len v)

/-- A core, or SC, as the master of an access. -/
def masterOf (c : CoreId) : Master := if h : c.val < 36 then .core ⟨c.val, h⟩ else .sc

abbrev Ans := Host.Outcome State Fault Refusal

/-! ## Private space of a core (R180, R266, R273) -/

def execSetpend (c : CoreId) (m : Fin 32) (v : Word) (s : State) : Ans :=
  .next (s.cmdWrite (masterOf c) (0xE0001080 + 4 * m.val) v)
def execClrpend (c : CoreId) (m : Fin 32) (v : Word) (s : State) : Ans :=
  .next (s.cmdWrite (masterOf c) (0xE0001100 + 4 * m.val) v)
def execWcLock (c : CoreId) (service : Bool) (s : State) : Ans :=
  .next (s.cmdWrite (masterOf c) (0xE0006000 + 0x400 * b2n service) (setBit (s.rg (rWc c service 0)) 1 true))
def execLbCtlFlush (c : CoreId) (s : State) : Ans :=
  .next (s.cmdWrite (masterOf c) 0xE0005000 (setBit (s.rg (rLbCtl c)) 1 true))
def execLbCtlEn (c : CoreId) (en : Bool) (s : State) : Ans :=
  .next (s.cmdWrite (masterOf c) 0xE0005000 (setBit (setBit (s.rg (rLbCtl c)) 1 false) 0 en))

/-! ## Bindings, timebase and frame (R47, R56, R57, R225, R248, R482) -/

def execSbindWrite (m : Master) (n : Fin 36) (k : Fin 16) (v : Word) (s : State) : Ans := .next (s.cmdWrite m (rSbind n k) v)
def execDbindWrite (m : Master) (n : Fin 36) (j : Fin 8) (v : Word) (s : State) : Ans := .next (s.cmdWrite m (rDbind n j) v)
def execFrameCtlWrite (m : Master) (v : Word) (s : State) : Ans := .next (s.cmdWrite m rFrameCtl v)
def execReferenceSwitch (m : Master) (v : Word) (s : State) : Ans := .next (s.cmdWrite m rTbCtl v)
def execSwapArm (m : Master) (s : State) : Ans := .next (s.cmdWrite m rSwapCtl 1)
def execSwapCtlCancel (m : Master) (s : State) : Ans := .next (s.cmdWrite m rSwapCtl 2)

/-! ## Converters and comparators (R80, R84, R88, R95, R108, R122) -/

def execAdcCtlWrite (m : Master) (n : Fin 16) (v : Word) (s : State) : Ans := .next (s.cmdWrite m (rAdc n 0x40) v)
def execAdcQDataRead (m : Master) (n : Fin 16) (s : State) : Ans := .next (s.cmdRead m (rAdc n 0x60))
def execAdcQFlush (m : Master) (n : Fin 16) (s : State) : Ans := .next (s.fieldWrite m (rAdc n 0x68) 16 1 1)
def execCalReqAdc (m : Master) (n : Fin 16) (s : State) : Ans := .next (s.cmdWrite m rCalReq (BitVec.ofNat 32 (2 ^ n.val)))
def execCalReqRla (m : Master) (s : State) : Ans := .next (s.cmdWrite m rCalReq 0x10000)
def execCalReqRlb (m : Master) (s : State) : Ans := .next (s.cmdWrite m rCalReq 0x20000)
def execLatchClear (m : Master) (n : Fin 32) (s : State) : Ans := .next (s.cmdWrite m (rCmpStat n) 4)
def execLatchSumClear (m : Master) (v : Word) (s : State) : Ans := .next (s.cmdWrite m rLatchSum v)

/-! ## PWM timers and general timers (R126, R131, R133, R142, R150, R151, R154, R156, R157) -/

def execReloadWrite (m : Master) (n : Fin 48) (v : Word) (s : State) : Ans := .next (s.cmdWrite m (rPt n 0x44) v)
def execShadowWrite (m : Master) (n : Fin 48) (b : Bool) (v : Word) (s : State) : Ans :=
  .next (s.cmdWrite m (rPt n (if b then 0x4C else 0x48)) v)
def execHoldWrite (m : Master) (n : Fin 48) (hold : Bool) (s : State) : Ans := .next (s.fieldWrite m (rPt n 0x58) 0 1 (b2n hold))
def execLoadph (m : Master) (n : Fin 48) (s : State) : Ans := .next (s.fieldWrite m (rPt n 0x58) 1 1 1)
def execUntrip (m : Master) (n : Fin 48) (s : State) : Ans := .next (s.fieldWrite m (rPt n 0x58) 2 1 1)
def execGtLoadph (m : Master) (n : Fin 32) (s : State) : Ans := .next (s.cmdWrite m (rGt n 0x28) 1)
def execGtCcrRead (m : Master) (n : Fin 32) (i : Fin 4) (s : State) : Ans := .next (s.cmdRead m (rGt n (0x30 + 4 * i.val)))

/-- Where a low word stands. A cascade's low word is that of its even timer. -/
def lowAddr : LowWord → Nat
  | .gtCnt k => rGt (2 * k.val) 0x20
  | .gtCcr k i => rGt (2 * k.val) (0x30 + 4 * i.val)
  | .ts64 => rTs64Lo
  | .pm n => rPm n 4
  | .ethTs p tx => rEth p (if tx then 0x20 else 0x18)

def execLowWordRead (m : Master) (w : LowWord) (s : State) : Ans := .next (s.cmdRead m (lowAddr w))

def cascadeAddr : CascadeLow → Nat
  | .rld k => rGt (2 * k.val) 0x24
  | .ccr k i => rGt (2 * k.val) (0x30 + 4 * i.val)

def execCascadeLowWrite (m : Master) (w : CascadeLow) (v : Word) (s : State) : Ans := .next (s.cmdWrite m (cascadeAddr w) v)

/-! ## The sync input (R149, R151) -/

/-- A counting edge of a PWM timer within the cycle, at which it counts to v, with the transfers, the return of its pins and the
events of that value (R127, R129, R130, R147). -/
def State.ptCountTo (s : State) (n : Fin 48) (v : Nat) : State :=
  let s0 := s.ptCountingEdge n
  let s1 := s0.setPt n { s0.pt n with cnt := v }
  let s2 := if v = 0 then s1.zeroNow n else s1
  let s3 := if v = s0.fld (rPtCmpA n) 5 27 then s2.ptMatch n false else s2
  if v = s0.fld (rPtCmpB n) 5 27 then s3.ptMatch n true else s3

/-- SYNC_EVENT on a PWM timer: RESET loads PHASE, GATE and CLOCK let it count once (Table 30). -/
def State.ptSyncIn (s : State) (n : Fin 48) : State :=
  let mode := s.ptSet n 0
  let p := s.pt n
  if !bit mode 7 then s
  else match bits mode 8 3 with
    | 1 | 3 => s.ptCountTo n (if p.cnt = 0 then bits p.rld 0 27 else p.cnt - 1)
    | 2 => s.ptCountTo n (bits (s.ptSet n 0x18) 0 27)
    | _ => s

/-- A general timer counts to v at once, with its compare events (R152). -/
def State.gtCountTo (s : State) (n : Fin 32) (v : Nat) : State :=
  let s1 := s.gtSetCount n v
  (List.finRange 4).foldl (fun (t : State) (i : Fin 4) =>
    if s.ccm n i 0 2 = 1 ∧ v = t.gtCcrVal n i then t.gtMatch n i else t) s1

/-- SYNC_EVENT on a general timer (R151). The upper half of a cascade has no sync input of its own. -/
def State.gtSyncIn (s : State) (n : Fin 32) : State :=
  let mode := s.gtSet n 0
  let casc := s.gtCasc n
  let wide := fun (lo hi : Word) => lo.toNat + (if casc then 2 ^ 32 * hi.toNat else 0)
  if !bit mode 0 || s.gtUpper n then s
  else match bits mode 2 3 with
    | 1 | 3 =>
      s.gtCountTo n (if s.gtCount n = 0 then wide (s.gt n).rld (s.gt (gtMate n)).rld else s.gtCount n - 1)
    | 2 => s.gtCountTo n (wide (s.gtSet n 0x0C) (s.gtSet (gtMate n) 0x0C))
    | _ => s

def execSyncEvent (t : SyncTarget) (s : State) : Ans :=
  .next (match t with
    | .pt n => s.ptSyncIn n
    | .gt n => s.gtSyncIn n)

/-! ## The event fabric (R41, R315, R320, R321) -/

def execChFire (m : Master) (ch : Fin 256) (s : State) : Ans := .next (s.cmdWrite m rChFire (BitVec.ofNat 32 ch.val))
def execChRearm (m : Master) (ch : Fin 256) (s : State) : Ans := .next (s.cmdWrite m rChRearm (BitVec.ofNat 32 ch.val))
def execEvcntClear (m : Master) (n : Fin 32) (s : State) : Ans := .next (s.cmdWrite m (rEvcntCtl n) 0x80000000)

/-- A write of 1 to a fire register (R38, R41). The spec gives these registers no address and no reset value of their attribute (log
entry 32). -/
def State.softwareFire (s : State) (m : Master) (t : FireTarget) : State :=
  if m = .debug ∧ s.debugShut true then s.refuse .denied
  else match s.ctxMaster m with
    | none => s.refuse .denied
    | some x =>
      if !s.ownGrants x .write (fireAddr t) then s.refuse .denied
      else if s.fenced x.id then (s.ghost x.id).refuse .fenced
      else
        let c := coreId x.id
        let o := PairOut.fire t x.world x.level
        let rec1 := fun (u : State) => (u.recStore c (BitVec.ofNat 32 (fireAddr t)) 4 1).answer 0
        let now := fun (_ : Unit) => match s.fireBy x t with
          | some u => if x.id < 37 then rec1 u else u.answer 0
          | none => s.refuse .denied
        if 37 ≤ x.id then now ()
        else match s.role c with
          | .checker k => if s.checking k then s.rowEnd (s.checkOut k o) (fun _ u => rec1 u) else rec1 s
          | _ => match s.sluiced c with
            | some k => rec1 (s.holdOut k o)
            | none => now ()

def execSoftwareFire (m : Master) (t : FireTarget) (s : State) : Ans := .next (s.softwareFire m t)

/-! ## DMA, sparge, flash and OTP (R341, R344, R351 to R353, R360, R367, R370, R371) -/

def execDmaGo (m : Master) (n : Fin 16) (start : BitVec 11) (s : State) : Ans :=
  .next (s.cmdWrite m (rDma n 0) (BitVec.ofNat 32 (start.toNat + 0x10000)))
def execDmaStop (m : Master) (n : Fin 16) (s : State) : Ans := .next (s.fieldWrite m (rDma n 0) 17 1 1)
def execSpgReqGo (m : Master) (v : Word) (s : State) : Ans := .next (s.cmdWrite m (rSram 0x108) (setBit v 8 true))
def execProgram (m : Master) (b : Fin 5) (s : State) : Ans := .next (s.cmdWrite m (rFl b 0) 1)
def execEraseSector (m : Master) (b : Fin 5) (s : State) : Ans := .next (s.cmdWrite m (rFl b 0) 2)
def execBlankCheck (m : Master) (b : Fin 5) (s : State) : Ans := .next (s.cmdWrite m (rFl b 0) 3)
def execLogErase (m : Master) (b : Fin 5) (s : State) : Ans := .next (s.cmdWrite m (rFl b 0) 4)
def execFlProtSet (m : Master) (level : BitVec 2) (s : State) : Ans :=
  .next (s.cmdWrite m rFlProt (BitVec.ofNat 32 (16 * level.toNat + 256)))
def execOtpCmdBurnGen (m : Master) (key : Bool) (s : State) : Ans :=
  .next (s.cmdWrite m (baseOtp + 4) (BitVec.ofNat 32 (1 + 4 * b2n key)))
def execOtpCmdRevoke (m : Master) (key : Bool) (gen : Fin 4) (s : State) : Ans :=
  .next (s.cmdWrite m (baseOtp + 4) (BitVec.ofNat 32 (2 + 4 * b2n key + 16 * gen.val)))

/-! ## Pin engines (R384 to R386, R389) -/

def execPgGo (m : Master) (g : Fin 8) (mask : BitVec 4) (s : State) : Ans :=
  .next (s.cmdWrite m (rPg g 0x100) (BitVec.ofNat 32 mask.toNat))
def execPgStop (m : Master) (g : Fin 8) (mask : BitVec 4) (s : State) : Ans :=
  .next (s.cmdWrite m (rPg g 0x100) (BitVec.ofNat 32 (mask.toNat * 0x10)))
def execPgClear (m : Master) (g : Fin 8) (mask : BitVec 4) (s : State) : Ans :=
  .next (s.cmdWrite m (rPg g 0x100) (BitVec.ofNat 32 (mask.toNat * 0x100)))
def execPgRestart (m : Master) (g : Fin 8) (mask : BitVec 4) (s : State) : Ans :=
  .next (s.cmdWrite m (rPg g 0x100) (BitVec.ofNat 32 (mask.toNat * 0x1000)))
def execFlagSetWrite (m : Master) (g : Fin 8) (mask : Byte) (s : State) : Ans :=
  .next (s.cmdWrite m (rPg g 0x104) (BitVec.ofNat 32 mask.toNat))
def execFlagClrWrite (m : Master) (g : Fin 8) (mask : Byte) (s : State) : Ans :=
  .next (s.cmdWrite m (rPg g 0x104) (BitVec.ofNat 32 (mask.toNat * 0x100)))
def execEngTxWrite (m : Master) (g : Fin 8) (e : Fin 4) (v : Word) (s : State) : Ans := .next (s.cmdWrite m (rEng g e 0x08) v)
def execEngRxRead (m : Master) (g : Fin 8) (e : Fin 4) (s : State) : Ans := .next (s.cmdRead m (rEng g e 0x0C))

/-- The registers of a pin-engine group and of its engines. -/
def pgRegs (g : Fin 8) : List Nat :=
  (List.range 67).map (fun i => rPg g (4 * i)) ++
    (List.range 4).flatMap (fun e => (List.range 8).map (fun i => rEng g e (4 * i)))

/-- The register that a guarded write names. -/
def peAddr (g : Fin 8) : PeTarget → Nat
  | .store i => rPg g (4 * i.val)
  | .cfg e => rEng g e 0x00
  | .lanes e => rEng g e 0x18
  | .cr e => rEng g e 0x1C
  | .pc e => rEng g e 0x04

def execProgramStoreWrite (m : Master) (g : Fin 8) (t : PeTarget) (v : Word) (s : State) : Ans := .next (s.cmdWrite m (peAddr g t) v)

/-! ## Redundancy (R278, R297) -/

def execPairModeWrite (m : Master) (k : Fin 16) (v : Word) (s : State) : Ans := .next (s.cmdWrite m (rRmPair k 0) v)
def execRmReadmitGo (m : Master) (n : Fin 36) (s : State) : Ans :=
  .next (s.cmdWrite m rRmReadmit (BitVec.ofNat 32 (n.val + 256)))

/-! ## Links and interfaces (R423, R424, R429 to R431) -/

def execRetrain (m : Master) (n : Fin 4) (s : State) : Ans := .next (s.fieldWrite m (rLk n 0) 1 1 1)
def execOztxGo (m : Master) (n : Fin 4) (addr : BitVec 18) (len : BitVec 13) (s : State) : Ans :=
  .next (s.cmdWrite m (rLk n 0x20) (BitVec.ofNat 32 (addr.toNat + len.toNat * 2 ^ 18 + 2 ^ 31)))
/-- The TXGO register of a ring port. -/
def txgoAddr : RingPort → Nat
  | .eth p => rEth p 0x4C
  | .can c => rCan c 0x2C

def execTxgo (m : Master) (r : RingPort) (s : State) : Ans := .next (s.cmdWrite m (txgoAddr r) 1)
def execRecover (m : Master) (c : Fin 6) (s : State) : Ans := .next (s.fieldWrite m (rCan c 0) 5 1 1)
def execUartTxWrite (m : Master) (u : Fin 3) (b : Byte) (s : State) : Ans := .next (s.cmdWrite m (rUart u 4) (b.setWidth 32))
def execUartDataRead (m : Master) (u : Fin 3) (s : State) : Ans := .next (s.cmdRead m (rUart u 4))

/-! ## Modes and power (R435, R440, R443) -/

def execModeRequest (m : Master) (req : Fin 8) (s : State) : Ans :=
  .next (s.cmdWrite m rSysMode (setBits (s.rwPart rSysMode) 8 4 (req.val + 8)))
def execPowerDomainOn (m : Master) (d : Fin 85) (s : State) : Ans :=
  .next (s.cmdWrite m (basePwr + 4 * (d.val / 32)) (setBit (s.rg (basePwr + 4 * (d.val / 32))) (d.val % 32) true))
def execPowerDomainOff (m : Master) (d : Fin 85) (s : State) : Ans :=
  .next (s.cmdWrite m (basePwr + 4 * (d.val / 32)) (setBit (s.rg (basePwr + 4 * (d.val / 32))) (d.val % 32) false))
def execSoftwareReset (m : Master) (key : Byte) (s : State) : Ans :=
  .next (s.cmdWrite m rSysReset (BitVec.ofNat 32 (key.toNat * 0x100 + 0x10000)))

/-! ## Any other register (R8) -/

/-- REGISTER_WRITE: a word write of the register at an address. A misaligned one is no register access (R6). -/
def execRegisterWrite (m : Master) (addr v : Word) (s : State) : Ans :=
  .next (if addr.toNat % 4 = 0 then s.cmdWrite m addr.toNat v else s.refuse .denied)

end Sys2Proof.Machine
end

