-- ==== Sys2Proof/Machine/Remote.lean ====
section
/-! DEFINITION. Remote.lean: what the answer to a remote access does to its requester (R417 to R419), requests served for other
devices (R418), and the elements of the DMA channels (R343, R344). -/

namespace Sys2Proof.Machine

/-! ## DMA elements -/

/-- A DMA access may be made: aligned to its size, and whole words where the region takes nothing else (R6). -/
def dmaAligned (a n : Nat) : Bool := decide (a % n = 0) && (!wordOnly a || decide (n = 4))

/-- The element's write of the word read, under its destination's lanes. -/
def State.dmaPut (s : State) (n : Fin 16) (w : Word) : State :=
  let d := s.dma n
  let sz := dmaBytes d
  let a := d.dst.toNat
  let v : Word := BitVec.ofNat 32 (bits w (8 * (d.src.toNat % 4)) (8 * sz))
  let l := lanes a sz v
  if !dmaAligned a sz then s.dmaError n
  else if isRemote a then
    match s.remoteIssue a true l.1 (BitVec.ofNat 4 l.2) (s.dmaCtx n).world (.dmaWrite n) with
    | .ok t => t.setDma n { t.dma n with out := true }
    | .error _ => s.dmaError n
  else match s.busWrite (s.dmaCtx n) a l.1 l.2 with
    | (none, t) => t.dmaMoved n
    | (some _, t) => t.dmaError n

/-- DMA_ELEMENT (R343): the element at the front of the descriptor, of a channel that has a request. -/
def State.dmaElement (s : State) (n : Fin 16) : State :=
  let d := s.dma n
  if !s.dmaActive n || !s.dmaPend n || d.out then s
  else
    let sz := dmaBytes d
    let a := d.src.toNat
    if !dmaAligned a sz then s.dmaError n
    else if isRemote a then
      match s.remoteIssue a false 0 (BitVec.ofNat 4 (lanes a sz 0).2) (s.dmaCtx n).world (.dmaRead n) with
      | .ok t => t.setDma n { t.dma n with out := true }
      | .error _ => s.dmaError n
    else if s.flashWaits a then
      -- it waits for a suspend point of its bank (R349)
      State.setDma { s with stalls := s.stalls ++ [⟨37 + n.val, BitVec.ofNat 32 a, .dmaRead n⟩] } n { d with out := true }
    else match s.busRead (s.dmaCtx n) a with
      | (.ok w, t) => t.dmaPut n w
      | (.error _, t) => t.dmaError n

def execDmaElement (n : Fin 16) (s : State) : Host.Outcome State Fault Refusal := .next (s.dmaElement n)

/-! ## Answers (R417, R418) -/

/-- An instruction whose access has come back goes on: its states up to the access, and its wait for it, are counted already (R169,
R417). -/
def State.remotePass (s : State) (c : CoreId) (len : Nat) (p : Pass) : State :=
  let pc := (s.core c).pc
  let own := (s.core c).own
  match p with
  | .done t r => (t.setCore c { t.core c with prefetched := own.isNone }).finish c pc len r.mem (own.getD 0) r
  | .fault t f m => t.instrFault c m f
  | .stay t m => t.setCore c { t.core c with cycles := (t.core c).cycles + m }
  | .later => s

/-- The registers as a RET or RETX saw them when its access at address a went out. -/
def retCore (k : CoreState) (a : Word) (retx : Bool) (n : Nat) : CoreState :=
  k.setW 31 (a - BitVec.ofNat 32 (if retx then [8, 12, 4].getD n 0 else 4 * n))

/-- What an access of address a was made for goes on with the word that answers it. -/
def State.useDone (s1 : State) (use : RemoteUse) (a : Word) (w : Word) : State :=
  match use with
  | .load c op got =>
    if (s1.core c).run ≠ .remote then s1
    else
      let t := s1.remoteBack c
      t.remotePass c op.len (t.load c op (got ++ [w]))
  | .store c op data second =>
    if (s1.core c).run ≠ .remote then s1
    else
      let t := s1.remoteBack c
      let ps := dataParts op.ea.toNat (sizeBytes op.sz) op.una
      let n1 := (ps.getD 0 (0, 0)).2
      let half := fun (i off : Nat) =>
        let p := ps.getD i (0, 0)
        t.recStore c (BitVec.ofNat 32 p.1) p.2 (BitVec.ofNat 32 (bits data (8 * off) (8 * p.2)))
      let acc := ps.map (fun p => (BitVec.ofNat 32 p.1, true))
      if second then (half 1 n1).remotePass c op.len (.done (half 1 n1) { acc := acc })
      else if ps.length = 1 then (half 0 0).remotePass c op.len (.done (half 0 0) { acc := acc })
      else (half 0 0).remotePass c op.len ((half 0 0).store c op data true)
  | .ret c retx got =>
    if (s1.core c).run ≠ .remote then s1
    else
      let t := s1.remoteBack c
      let k0 := retCore (t.core c) a retx got.length
      t.remotePass c 1 (if retx then t.retxRun c k0 (got ++ [w]) else t.retRun c k0 (got ++ [w]))
  | .dmaRead n => if (s1.dma n).out then (s1.setDma n { s1.dma n with out := false }).dmaPut n w else s1
  | .dmaWrite n => if (s1.dma n).out then s1.dmaMoved n else s1
  | .command => s1.answer w
  | .ozgan => { s1 with oz := { s1.oz with memo := s1.oz.memo ++ [(none, w)] } }
  | .debug => { s1 with jtag := { s1.jtag with stat := 0, data := w } }
  | .sluice => s1

/-- A remote access is answered with a word. -/
def State.remoteDone (s : State) (r : RemoteReq) (w : Word) : State := (s.remoteDrop r.tag).useDone r.use r.addr w

/-! ## Reads that waited (R29, R286) -/

/-- The read still has to wait: for a suspend point of its flash bank, or for the held outputs of its pair. -/
def State.stallHolds (s : State) (w : Stall) : Bool :=
  let a := w.addr.toNat
  s.flashWaits a || (decide (w.master < 37) && match s.sluiced (coreId w.master) with
    | some k => sluiceBlocks (s.pair k).sluice a
    | none => false)

/-- A read that waited is made, and what it serves goes on. A core that no longer waits for it has dropped it. -/
def State.stallGo (s : State) (w : Stall) : State :=
  let s1 := { s with stalls := s.stalls.erase w }
  match w.use with
  | .load c op got =>
    if (s1.core c).run ≠ .remote then s1
    else let t := s1.remoteBack c; t.remotePass c op.len (t.load c op got)
  | .ret c retx got =>
    if (s1.core c).run ≠ .remote then s1
    else
      let t := s1.remoteBack c
      let k0 := retCore (t.core c) w.addr retx got.length
      t.remotePass c 1 (if retx then t.retxRun c k0 got else t.retRun c k0 got)
  | use =>
    if w.master < 36 then s1.rowEnd (s1.read1 (coreId w.master) w.addr.toNat 15 use) (fun v t => t.answer v)
    else match s1.flRead w.addr.toNat with
      | (.ok v, t) => t.useDone use w.addr v
      | (.error e, t) => t.useFail use w.addr e

/-- The reads that need wait no longer are made, oldest first. -/
def State.stallEdge (s : State) : State :=
  s.stalls.foldl (fun t w => if t.stallHolds w then t else t.stallGo w) s

/-- A clock edge of every core that waits in a memory state (R169). -/
def State.waitEdge (s : State) : State :=
  if s.remotes.isEmpty && s.stalls.isEmpty then s
  else (List.finRange 37).foldl (fun (t : State) (c : CoreId) =>
    if (t.core c).run = .remote ∧ t.coreCycle c then t.setCore c { t.core c with cycles := (t.core c).cycles + 1 } else t) s

/-- A remote access is over, with the status of its answer (Table 90): 0 OK, 2 DENIED, 3 ECC, 4 NOROUTE. A status that the table
does not name counts as no route (DESIGN CHOICE, log entry 21). -/
def State.remoteEnd (s : State) (r : RemoteReq) (data : Word) (status : Nat) : State :=
  match status with
  | 0 => s.remoteDone r data
  | 2 => s.remoteFail r .denied
  | 3 => s.remoteFail r .ecc
  | _ => s.remoteFail r .timeout

def State.remoteByTag (s : State) (tag : BitVec 16) : Option RemoteReq := s.remotes.find? (fun r => r.tag == tag)

/-- MEMRSP (R418, R419): a response to no outstanding access is dropped and counted. -/
def State.memrsp (s : State) (n : Fin 4) (tag : BitVec 16) (data : Word) (status : Nat) : State :=
  if !s.lkUp n then s
  else match s.remoteByTag tag with
    | some r => s.remoteEnd r data status
    | none => s.count (rLk n 0x1C) 16 16 1

def execMemrsp (n : Fin 4) (tag : BitVec 16) (data : Word) (status : Byte) (s : State) : Host.Outcome State Fault Refusal :=
  .next (s.memrsp n tag data status.toNat)

/-- BUSY (R418): the request is issued again; after the fourth the access fails. -/
def State.busyIn (s : State) (n : Fin 4) (tag : BitVec 16) : State :=
  if !s.lkUp n then s
  else
    let s1 := s.count (rLk n 0x18) 16 16 1
    match s1.remoteByTag tag with
    | none => s1.count (rLk n 0x1C) 16 16 1
    | some r =>
      if 3 ≤ r.busy then (s1.remoteFail r .timeout).lkFire r.link 14
      else
        let body := natBytes 4 (r.addr.toNat % 0x1000000 / 4 * 4) ++ (if r.write then wordBytes r.data else [0, 0, 0, 0]) ++
          [BitVec.ofNat 8 (r.mask.toNat + 16 * b2n r.world)]
        let s2 := { s1 with remotes := s1.remotes.map (fun (x : RemoteReq) => if x.tag = tag then { x with busy := x.busy + 1 } else x) }
        s2.lkQueue r.link true (if r.write then 3 else 2) (remoteDev r.addr.toNat) (s2.devNum.getD 0) tag body

def execBusy (n : Fin 4) (tag : BitVec 16) (s : State) : Host.Outcome State Fault Refusal := .next (s.busyIn n tag)

/-- REMOTE_ACCESS_TIMEOUT (R419). -/
def execRemoteAccessTimeout (tag : BitVec 16) (s : State) : Host.Outcome State Fault Refusal :=
  .next (match s.remoteByTag tag with
    | some r => if s.notYet (.remoteAccessTimeout tag) then s else s.remoteFail r .timeout
    | none => s)

/-! ## Requests served for other devices (R418) -/

/-- A request that is refused: a hostile act, answered with DENIED. -/
def State.memRefuse (s : State) (n : Fin 4) (r : MemReq) : State :=
  (s.lkFree n).quarantine n 2 [⟨4, r.src.val + 8 * r.dst.val, r.tag, rspBody 0 2, s.now⟩]

/-- MEMRD (R418). -/
def State.memrd (s : State) (n : Fin 4) (r : MemReq) (side : CoreSide) : State :=
  if !s.lkUp n then s else if s.memBad r then s.memRefuse n r else s.serveRead n r side

def execMemrd (n : Fin 4) (r : MemReq) (side : CoreSide) (s : State) : Host.Outcome State Fault Refusal := .next (s.memrd n r side)

/-- MEMWR (R418). -/
def State.memwr (s : State) (n : Fin 4) (r : MemReq) (side : CoreSide) : State :=
  if !s.lkUp n then s else if s.memBad r then s.memRefuse n r else s.serveWrite n r side

def execMemwr (n : Fin 4) (r : MemReq) (side : CoreSide) (s : State) : Host.Outcome State Fault Refusal := .next (s.memwr n r side)

end Sys2Proof.Machine
end

