-- ==== Sys2Proof/Machine/OzCore.lean ====
section
/-! DEFINITION. OzCore.lean: the command engine's packets, sessions, replies, credits and jobs (R391 to R406). -/

namespace Sys2Proof.Machine

/-- The codes of Table 73 that the engine itself gives. -/
def stOk : Nat := 0
def stBusy : Nat := 1
def stBadCrc : Nat := 2
def stBadGen : Nat := 3
def stNoSession : Nat := 4
def stReplay : Nat := 5
def stDenied : Nat := 6
def stState : Nat := 7
def stUnknown : Nat := 8
def stTooLong : Nat := 9

/-! ## Sessions -/

/-- The place of session n, 1 to 8. -/
def sessIdx (n : BitVec 8) : Option (Fin 8) := if h : 1 ≤ n.toNat ∧ n.toNat ≤ 8 then some ⟨n.toNat - 1, by omega⟩ else none

/-- Session n, where it is open. -/
def State.sess (s : State) (n : BitVec 8) : Option Session := (sessIdx n).bind (fun i => s.oz.sessions[i])

/-- Session n, where it is open on the transport a request came on (R391). -/
def State.sessOn (s : State) (via : Transport) (n : BitVec 8) : Option Session :=
  match s.sess n with
  | some x => if x.via = via then some x else none
  | none => none

def State.setSess (s : State) (n : BitVec 8) (x : Option Session) : State :=
  match sessIdx n with
  | some i => { s with oz := { s.oz with sessions := s.oz.sessions.set i x } }
  | none => s

/-- Requests that a session may hold (R403). -/
def Session.limit (x : Session) : Nat := if x.gen = 1 then 1 else 8

/-- The largest payload (R395). -/
def maxLen (gen : Nat) : Nat := if gen = 1 then 256 else 4096

/-- A sequence number lies in the window and is not yet recorded (R401). -/
def Session.fresh (x : Session) (seq : BitVec 16) : Bool :=
  let d := (seq - x.top).toNat
  if 1 ≤ d ∧ d ≤ 32767 then true
  else if d = 0 then !x.seen.getLsbD 0
  else if 65473 ≤ d then !x.seen.getLsbD (65536 - d)
  else false

/-- The window slides to a new number. -/
def Session.slide (x : Session) (seq : BitVec 16) : Session :=
  let d := (seq - x.top).toNat
  if 1 ≤ d ∧ d ≤ 32767 then { x with top := seq, seen := x.seen <<< d } else x

/-- A number is recorded. -/
def Session.mark (x : Session) (seq : BitVec 16) : Session :=
  let d := (x.top - seq).toNat
  if d ≤ 63 then { x with seen := x.seen ||| BitVec.ofNat 64 (2 ^ d) } else x

/-- The replies that still wait for session n are discarded (R402): in the slots of SPIH, and among the flits that no link has begun to
send. -/
def State.sessDrop (s : State) (n : BitVec 8) : State :=
  match (s.sess n).map Session.via with
  | some Transport.spih => { s with oz := { s.oz with
      spih := s.oz.spih.filter (fun r => r.1 != n), refusal := s.oz.refusal.filter (fun p => p.getD 3 0 != n) } }
  | some (Transport.link k) => s.lkUnsend k n
  | _ => s

/-- Session n is over (R402): its subscriptions end, its requests that have not begun are dropped. -/
def State.sessEnd (s : State) (n : BitVec 8) : State :=
  match s.sess n with
  | none => s
  | some _ =>
    let t := (s.setSess n none).cancelDue (.sessionTimeout n)
    { t with oz := { t.oz with
        subs := t.oz.subs.filter (fun x => x.sess != n)
        queue := t.oz.queue.filter (fun r => r.h.session != n) } }.fire 994

/-- A session closes (R402). -/
def State.sessClose (s : State) (n : BitVec 8) : State := (s.sessDrop n).sessEnd n

/-- 10 s without a request that passes step 8 (R402). -/
def sessIdle : Nat := 10 * tbPerSecond

def State.sessTouch (s : State) (n : BitVec 8) : State := (s.cancelDue (.sessionTimeout n)).after sessIdle (.sessionTimeout n)

/-- SESSION_TIMEOUT (R402). -/
def execSessionTimeout (n : BitVec 8) (s : State) : Host.Outcome State Fault Refusal :=
  .next (if s.notYet (.sessionTimeout n) then s else s.sessClose n)

/-! ## Packets (R394, R398) -/

/-- A packet, with its tag where a key is given. -/
def mkPacket (gen flags : Nat) (sess : BitVec 8) (seq : BitVec 16) (op b10 b11 : Nat) (pay : List Byte) (key : List Byte) : List Byte :=
  let auth := !key.isEmpty
  let head0 := [(0xB7 : Byte), BitVec.ofNat 8 gen, BitVec.ofNat 8 (flags + 2 * b2n auth), sess] ++ natBytes 2 seq.toNat ++
    natBytes 2 op ++ natBytes 2 pay.length ++ [BitVec.ofNat 8 b10, BitVec.ofNat 8 b11]
  let body := head0 ++ natBytes 2 (crc16 head0).toNat ++ [0, 0] ++ pay
  let body1 := if auth then body ++ (hmac key body).take 8 else body
  body1 ++ wordBytes (crc32 body1)

/-- The operation inside the engine that reads a subscription's block. -/
def opNotify : Nat := 0x10401

/-- Reply slots of SPIH that are held or reserved (R392): replies waiting, and its requests not yet answered. -/
def State.spihSlots (s : State) : Nat :=
  let own := fun (h : ReqHdr) (op : Nat) => h.via == .spih && op != opNotify
  s.oz.spih.length + (s.oz.queue.filter (fun r => own r.h r.op)).length +
    (match s.oz.wait with | some w => b2n (own w.h w.op) | none => 0)

/-- A packet leaves on a transport; on SPIH it waits, a refusal of steps 3 to 9 in its own slot. -/
def State.ozSend (s : State) (via : Transport) (sess : BitVec 8) (early : Bool) (pkt : List Byte) : State :=
  match via with
  | .spih =>
    if early then
      let t := if s.oz.refusal.isSome then s.hwFlag rSpih 9 else s
      { t with oz := { t.oz with refusal := some pkt } }
    else { s with oz := { s.oz with spih := s.oz.spih ++ [(sess, pkt)] } }
  | .udp p ip port => { s with oz := { s.oz with sent := (via, pkt) :: s.oz.sent } }.udpSend p ip port pkt
  | .link n => { s with oz := { s.oz with sent := (via, pkt) :: s.oz.sent } }.lkPacket n pkt

/-- The count of the diagnostics group that a code adds to (Table 84). -/
def ozCounter (status : Nat) : Option (Fin 6) :=
  if status = stBadCrc then some 1
  else if status = stDenied then some 2
  else if status = stReplay then some 3
  else if status = stBusy then some 4
  else none

/-- A count of the command engine, which holds its largest value. -/
def State.ozCount (s : State) (i : Fin 6) : State :=
  let v := s.oz.counts[i]
  { s with oz := { s.oz with counts := s.oz.counts.set i (if v = BitVec.allOnes 32 then v else v + 1) } }

/-- A reply (R396, R403): tagged with the session's key where the session is open on the transport; source 993. -/
def State.ozReply (s : State) (h : ReqHdr) (gen op status : Nat) (pay : List Byte) (early : Bool) : State :=
  let s1 := match ozCounter status with | some i => s.ozCount i | none => s
  let x := s1.sessOn h.via h.session
  let key := match x with | some x => x.key | none => []
  let credit := match x with | some x => x.limit - x.open_ | none => 0
  (s1.ozSend h.via h.session early (mkPacket gen 1 h.session h.seq op status credit pay key)).fire 993

/-- A request past step 9 is answered: its credit returns, and its number is recorded unless the code is BUSY (R401). A reply
to a session that has closed is discarded (R402). A lowering of the protection that the command asked for begins (R367). -/
def State.ozAnswer (s : State) (h : ReqHdr) (op status : Nat) (pay : List Byte) : State :=
  let t := match s.sessOn h.via h.session with
    | some x =>
      let x1 := { x with open_ := x.open_ - 1 }
      let x2 := if status = stBusy then x1 else x1.mark h.seq
      (s.setSess h.session (some x2)).ozReply h x.gen op status pay false
    | none => s
  match t.oz.lower with
  | some n => ({ t with oz := { t.oz with lower := none } }.setFld rFlProt 4 2 n.val).protSet
  | none => t

/-! ## When commands are served (R393, R434, R460) -/

/-- The command engine runs: its modes, and SC executing. -/
def State.ozOn (s : State) : Bool :=
  (s.mode == 2 || s.mode == 3 || s.mode == 4 || s.mode == 5) && !s.boot.scDown &&
    (match (s.core 36).run with | .halted | .lockup => false | _ => true)

/-! ## Jobs (R406) -/

/-- A job starts: its number, and the table of the last 16. -/
def State.newJob (s : State) (k : JobKind) (note : List Byte) : Byte × State :=
  let n := s.oz.nextJob
  let l := s.oz.jobs ++ [⟨n, k, true, 0, note⟩]
  (n, { s with oz := { s.oz with jobs := l.drop (l.length - 16), nextJob := n + 1 } })

/-- Job n ends. -/
def State.jobDone (s : State) (n : Byte) (status : Byte) (result : List Byte) : State :=
  { s with oz := { s.oz with jobs := s.oz.jobs.map (fun (j : Job) =>
      if j.num = n ∧ j.run then { j with run := false, status := status, result := result } else j) } }

/-- XFAIL_CNT of the converters, as a job of calibrations notes them when it starts. -/
def State.xfailNote (s : State) : List Byte := (List.range 16).map (fun n => BitVec.ofNat 8 (s.fld (rAdcCal n) 16 8))

/-- A converter waits for its calibration or is being served. -/
def State.calBusy (s : State) (n : Nat) : Bool :=
  let m := fin 16 n (by decide)
  let r := s.relief (reliefOf m)
  r.queue.contains m || r.target == some m

/-- The converters of a job's mask whose cross-check failed since it started. -/
def State.calFailed (s : State) (j : Job) (mask : Nat) : Nat :=
  (List.range 16).foldl (fun v n =>
    if mask.testBit n ∧ s.fld (rAdcCal n) 16 8 ≠ ((j.result.getD n 0).toNat) then v + 2 ^ n else v) 0

/-- The memories of a mask of SPARGE_FAST: bits 0 to 7 quadrants, bit 8 + n local memory n. -/
def fastTargets (m : BitVec 64) : List (Nat × SpargeTarget) :=
  ((List.finRange 8).filter (fun q => m.getLsbD q.val)).map (fun q => (q.val, SpargeTarget.quadrant q)) ++
    ((List.finRange 37).filter (fun c => m.getLsbD (8 + c.val))).map (fun c => (8 + c.val, SpargeTarget.local c))

/-- The banks of a mask that run an operation (R410). -/
def State.banksBusy (s : State) (m : BitVec 64) : Nat :=
  (List.finRange 5).foldl (fun v b => if m.getLsbD b.val && s.flBusy b then v + 2 ^ b.val else v) 0

/-- The end of a job that the device's own state shows: calibrations served, fast passes over. A margin read waits for the operations
that it found in its banks. -/
def State.jobEnd (s : State) (j : Job) : State :=
  match j.kind with
  | .cal adcs rl =>
    let wait := (List.range 16).any (fun n => adcs.getLsbD n && s.calBusy n) ||
      [0, 1].any (fun (g : Fin 2) => rl.getLsbD g.val && ((s.relief g).selfReq || decide (s.fld (rRlStat g) 4 3 = 3)))
    if wait then s
    else
      let bad := s.calFailed j adcs.toNat
      s.jobDone j.num 0 (natBytes 2 (adcs.toNat - bad) ++ natBytes 2 bad)
  | .test 1 mask =>
    let m := mask.toNat % 2 ^ 16
    if (List.range 16).any (fun n => m.testBit n && s.calBusy n) then s
    else
      let bad := s.calFailed j m
      (s.jobDone j.num 0 (natBytes 8 (m - bad) ++ natBytes 8 bad)).fire 998
  | .test 0 mask =>
    let ts := fastTargets mask
    if ts.any (fun t => decide (0 < (s.spg t.2).fast)) then s
    else
      let bad := ts.foldl (fun v t => if 0 < (s.spg t.2).fails then v + 2 ^ t.1 else v) 0
      s.jobDone j.num 0 (natBytes 8 (mask.toNat - bad) ++ natBytes 8 bad)
  | .test 2 mask =>
    let left := BitVec.ofNat 8 (s.banksBusy mask) &&& j.result.getD 0 0
    { s with oz := { s.oz with jobs := s.oz.jobs.map (fun (x : Job) => if x = j then { x with result := [left] } else x) } }
  | .sparge t =>
    if 0 < (s.spg t).fast then s else s.jobDone j.num 0 (natBytes 4 (s.spg t).fails)
  | _ => s

/-- Jobs that have come to their end are closed. -/
def State.jobsEdge (s : State) : State := (s.oz.jobs.filter (fun j => j.run)).foldl (fun t j => t.jobEnd j) s

/-- SELF_TEST_COMPLETE (R410): the outcome of a self-test; source 998. A margin read that still waits for a bank has not begun. -/
def execSelfTestComplete (job : Byte) (passed failed : BitVec 64) (s : State) : Host.Outcome State Fault Refusal :=
  .next (match s.oz.jobs.find? (fun j => j.num == job && j.run && (match j.kind with
      | .test 2 _ => j.result.getD 0 0 == 0
      | .test _ _ => true
      | _ => false)) with
    | some _ => (s.jobDone job 0 (natBytes 8 passed.toNat ++ natBytes 8 failed.toNat)).fire 998
    | none => s)

/-- JOB_COMPLETE (R406): a job ends; a calibration's completion activates source 999. -/
def execJobComplete (job : Byte) (status : Byte) (result : List Byte) (s : State) : Host.Outcome State Fault Refusal :=
  .next (match s.oz.jobs.find? (fun j => j.num == job && j.run) with
    | some j =>
      let t := s.jobDone job status result
      match j.kind with
      | .cal _ _ => t.fire 999
      | .test _ _ => t.fire 998
      | _ => t
    | none => s)

end Sys2Proof.Machine
end

