-- ==== Sys2Proof/Machine/OzOps.lean ====
section
/-! DEFINITION. OzOps.lean: what each opcode of the command engine does (R408, R409, Tables 75 to 86), once its request has passed
the checks of Table 74. -/

namespace Sys2Proof.Machine

/-- How an opcode ends: with a reply, or it waits for something first. -/
inductive OpOut where
  | reply (s : State) (status : Nat) (pay : List Byte)
  | wait (s : State) (k : OzWaitKind)

/-- A refusal without a payload. -/
def State.no (s : State) (status : Nat) : OpOut := .reply s status []
def State.yes (s : State) (pay : List Byte) : OpOut := .reply s stOk pay

def u8 (p : List Byte) (i : Nat) : Nat := leAt p i 1
def u16 (p : List Byte) (i : Nat) : Nat := leAt p i 2
def u32 (p : List Byte) (i : Nat) : Nat := leAt p i 4
def w32 (p : List Byte) (i : Nat) : Word := BitVec.ofNat 32 (u32 p i)

def wordsBytes (l : List Word) : List Byte := l.flatMap wordBytes

/-- The generation of the session that a request belongs to. -/
def State.genOf (s : State) (h : ReqHdr) : Nat := match s.sess h.session with | some x => x.gen | none => 1

/-- A retry hint for the end of an operation: the time that is left is not held by the model, so it is a free value (log
entry 24). -/
def State.hint (s : State) : List Byte × State := ([Config.freeByte s.free, Config.freeByte (s.free + 1)], { s with free := s.free + 2 })

/-- The hint for the end of bank b's operation: a BLANK_CHECK takes 1 ms (Table 66), and what is left of a µs counts whole (DESIGN
CHOICE, log entry 24). -/
def State.bankHint (s : State) (b : Fin 5) : List Byte × State :=
  match (s.flBank b).op with
  | some (.blankCheck _ _) => (natBytes 2 (((s.flBank b).since + 800000 - s.now + 799) / 800), s)
  | _ => s.hint

/-- BUSY with a hint, since bank b is BUSY or SUSPENDED (R404). -/
def State.busyOut (s : State) (b : Fin 5) : OpOut := .reply (s.bankHint b).2 stBusy (s.bankHint b).1

/-- The first bank that is BUSY or SUSPENDED of those that the addresses of a command need (R404). -/
def State.bankBusy (s : State) (as : List Nat) : Option (Fin 5) :=
  as.findSome? (fun a => match s.flLocate a with
    | some (b, _) => if s.domReady (63 + b.val) && s.flBusy b then some b else none
    | none => none)

/-! ## Accesses as SC or as the debug port (R405, R456) -/

/-- One access of a command. -/
inductive OzAcc where
  | rd (a : Nat)
  | wr (a : Nat) (v : Word)

/-- Reads of flash are refused to every command at protection level 1 and 2 (R366). -/
def State.ozFlashBad (s : State) (a : Nat) : Bool := regionOf a == .flash && decide (1 ≤ s.prot.val)

/-- The accesses of a command, each chosen by the words read before it. What has been done is noted in `memo`, so that a command
that has waited for a link, or for a suspend point of a flash bank (R349), goes on where it was. True where the last one still waits. -/
def State.ozAccs (x : Ctx) (f : List Word → Option OzAcc) : Nat → State → Bool × State
  | 0, s => (false, s)
  | n + 1, s =>
    let note := fun (t : State) (r : Option BusCause × Word) => { t with oz := { t.oz with memo := t.oz.memo ++ [r] } }
    if s.oz.memo.any (fun r => r.1.isSome) then (false, s)
    else match f (s.oz.memo.map (fun r => r.2)) with
      | none => (false, s)
      | some (.rd a) =>
        if isRemote a then
          match s.remoteIssue a false 0 15 x.world .ozgan with
          | .ok t => (true, t)
          | .error e => (false, note s (some e, 0))
        else if s.ozFlashBad a then (false, note s (some .denied, 0))
        else if s.flashWaits a then (true, { s with stalls := s.stalls ++ [⟨36, BitVec.ofNat 32 a, .ozgan⟩] })
        else match s.busRead x a with
          | (.ok w, t) => (note t (none, w)).ozAccs x f n
          | (.error e, t) => (false, note t (some e, 0))
      | some (.wr a v) =>
        if isRemote a then
          match s.remoteIssue a true v 15 x.world .ozgan with
          | .ok t => (true, t)
          | .error e => (false, note s (some e, 0))
        else match s.busWrite x a v 15 with
          | (none, t) => (note t (none, v)).ozAccs x f n
          | (some e, t) => (false, note t (some e, 0))

/-- A command made of accesses: the words it gathers, DENIED where one is refused, or a wait for one of them. -/
def State.ozScript (s : State) (x : Ctx) (pay : List Byte) (n : Nat) (f : List Word → Option OzAcc) (out : List Word → List Byte) : OpOut :=
  let r := s.ozAccs x f n
  if r.1 then .wait r.2 (.remote pay)
  else if r.2.oz.memo.any (fun m => m.1.isSome) then r.2.no stDenied
  else r.2.yes (out (r.2.oz.memo.map (fun m => m.2)))

/-- Accesses fixed in advance. -/
def accList (l : List OzAcc) (got : List Word) : Option OzAcc := l[got.length]?

/-- Words read by x: BUSY, before any of it, where a bank that they need is (R404). -/
def State.ozReads (s : State) (x : Ctx) (pay : List Byte) (as : List Nat) (out : List Word → List Byte) : OpOut :=
  match s.bankBusy as with
  | some b => if s.oz.memo.isEmpty then s.busyOut b else s.ozScript x pay (as.length + 1) (accList (as.map OzAcc.rd)) out
  | none => s.ozScript x pay (as.length + 1) (accList (as.map OzAcc.rd)) out

/-- Words read as SC. -/
def State.ozRegs (s : State) (pay : List Byte) (as : List Nat) (out : List Word → List Byte) : OpOut := s.ozReads scCtx pay as out

/-- A register as SC sees it; 0 where the read is refused. -/
def State.scWord (s : State) (a : Nat) : Word := match (s.busRead scCtx a).1 with | .ok w => w | .error _ => 0

/-! ## Session (Table 75) -/

/-- BYE: the session closes with its reply (R402). -/
def State.opBye (s : State) (_ : List Byte) : OpOut := s.yes []

def State.opPing (s : State) (p : List Byte) : OpOut := s.yes p

/-- JOB (R406): state, status, and sixteen bytes of result. -/
def State.opJob (s : State) (p : List Byte) : OpOut :=
  match s.oz.jobs.find? (fun j => j.num.toNat == u8 p 0) with
  | some j =>
    if j.run then s.yes ([0, 0] ++ List.replicate 16 0)
    else s.yes ([1, j.status] ++ (j.result ++ List.replicate 16 0).take 16)
  | none => s.yes ([2, 0] ++ List.replicate 16 0)

/-! ## Modes (Table 76) -/

def State.opGetMode (s : State) (_ : List Byte) : OpOut :=
  s.yes (BitVec.ofNat 8 s.mode :: (wordBytes (s.scWord rTickStat) ++ wordBytes (s.scWord rFrameNum)))

/-- SET_MODE acts as a write of SYS_MODE (R435), an undefined code as REQ takes it (R10, R407): a request that is not allowed sets
REFUSED. The mode changes at the next edge, so the reply leaves before DORMANT is entered. -/
def State.opSetMode (s : State) (p : List Byte) : OpOut :=
  let m := modeCode (u8 p 0)
  let r := s.requestMode m
  if !r.1 then r.2.no stState
  else if s.mode = m ∨ m = 0 then r.2.yes [BitVec.ofNat 8 m]
  else .wait r.2 .mode

/-- RELEASE (R52, R67). -/
def State.opRelease (s : State) (p : List Byte) : OpOut :=
  let m : BitVec 37 := BitVec.ofNat 37 (leAt p 0 8 % 2 ^ 36)
  let ended := (s.holdOvr ||| s.holdNew) &&& m
  (s.releaseHold m).yes (natBytes 8 ended.toNat)

def State.opFireHev (s : State) (p : List Byte) : OpOut :=
  let m := u8 p 0
  ((List.range 8).foldl (fun t n => if m.testBit n then t.fire (1000 + n) else t) s).yes [BitVec.ofNat 8 m]

/-! ## Configuration sets (Table 77) -/

def imgStatus : ImgErr → Nat
  | .badCrc => stBadCrc
  | .badGen => stBadGen
  | .tooLong => stTooLong
  | .state => stState

/-- An assembly of an image with no chunk for 1 s is discarded. -/
def State.dropAssembly (s : State) : State := { s with oz := { s.oz with load := none } }.cancelDue .assemblyTimeout

def execAssemblyTimeout (s : State) : Host.Outcome State Fault Refusal :=
  .next (if s.notYet .assemblyTimeout then s else s.dropAssembly)

/-- SET_LOAD: chunks in order, from one session; the last one loads the image (R63). -/
def State.opSetLoad (s : State) (h : ReqHdr) (p : List Byte) : OpOut :=
  let off := u32 p 0
  let total := u32 p 4
  let chunk := p.drop 8
  let cur := s.oz.load
  let have_ := match cur with | some a => a.bytes | none => []
  if off ≠ have_.length ∨ cur.any (fun a => a.total != total) then s.dropAssembly.no stState
  else if 102400 < total ∨ total < off + chunk.length then s.dropAssembly.no stTooLong
  else
    let img := have_ ++ chunk
    if img.length = total then
      let t := s.dropAssembly
      match t.imgLoad img with
      | .error e => t.no (imgStatus e)
      | .ok u => (u.fire 997).yes (natBytes 4 total ++ wordBytes (u.rg rShadowId))
    else
      let t := { s with oz := { s.oz with load := some ⟨h.session, total, img, s.now⟩ } }
      ((t.cancelDue .assemblyTimeout).after tbPerSecond .assemblyTimeout).yes (natBytes 4 img.length)

/-- The section, offset and words of SET_WRITE and SET_READ lie within a section's decoded size. -/
def setRangeOk (ty off count : Nat) : Bool :=
  decide (1 ≤ ty) && decide (ty ≤ 12) && decide (off % 4 = 0) && decide (off + 4 * count ≤ secSize ty)

/-- SET_WRITE (R55, R407): the words go into the shadow set, clamped. -/
def State.opSetWrite (s : State) (p : List Byte) : OpOut :=
  let ty := u8 p 0
  let n := u16 p 2
  let off := u32 p 4
  if !setRangeOk ty off n then s.no stTooLong
  else
    let l := (List.range n).foldl (fun m i => setLoadWord m ty (off + 4 * i) (w32 p (8 + 4 * i))) s.shadow
    ({ s with shadow := l }.setRg rShadowId 0).yes (wordsBytes ((List.range n).map (fun i => setWord l ty (off + 4 * i))))

/-- SET_READ: set 1 is the shadow set; an undefined code takes the active one. -/
def State.opSetRead (s : State) (g : Nat) (p : List Byte) : OpOut :=
  let ty := u8 p 1
  let n := u16 p 2
  let off := u32 p 4
  if !setRangeOk ty off n || decide (maxLen g < 4 * n) then s.no stTooLong
  else
    let l := if u8 p 0 = 1 then s.shadow else s.active
    s.yes (wordsBytes ((List.range n).map (fun i => setWord l ty (off + 4 * i))))

/-- The reply of SWAP_SET (Table 77): OK when ARMED, otherwise the code of the refusal. -/
def State.swapReply (s : State) (n : Word) : OpOut :=
  let st := swapState s
  let code := if st = 2 ∨ st = 3 then stOk
    else if st = 4 then
      match s.fld rSwapStat 4 4 with
      | 1 => 14
      | 2 => 16
      | 3 => 15
      | 4 => 17
      | _ => stState
    else stState
  .reply s code (wordBytes n ++ wordBytes (s.rg rSwapStat))

/-- SWAP_SET (R56): the reply is sent when the check ends. -/
def State.opSwapSet (s : State) (p : List Byte) : OpOut :=
  let n := w32 p 0
  if s.shadowLocked then
    let t := s.swapArm n
    .reply t stState (wordBytes n ++ wordBytes (t.rg rSwapStat))
  else
    let u := (s.setRg rSwapTarget (s.ordered 36 rSwapTarget n)).noteWrite 36 rSwapTarget n (mask 0 32)
    let t := { u.swapArm n with swapCut := false }
    if swapState t = 1 then .wait t .swap else t.swapReply n

def State.opSwapCancel (s : State) (_ : List Byte) : OpOut :=
  let t := s.swapCancel
  t.yes (wordBytes (t.rg rSwapStat))

def State.opSwapStatus (s : State) (_ : List Byte) : OpOut :=
  s.yes (wordsBytes ([rSwapStat, rSwapTarget, rSetId, rShadowId, rFrameNum].map s.rg))

/-- SET_COPY: the active set is copied into the shadow set. -/
def State.opSetCopy (s : State) (_ : List Byte) : OpOut :=
  let t := { s with shadow := s.active }.setRg rShadowId (s.rg rSetId)
  t.yes (wordBytes (t.rg rShadowId))

/-! ## Images and cores (Table 78) -/

/-- The cores of a mask, C0 to C35. -/
def maskCores (m : Nat) : List CoreId := (List.finRange 37).filter (fun c => decide (c.val < 36) && m.testBit c.val)
def coresMask (l : List CoreId) : List Byte := natBytes 8 (l.foldl (fun v c => v + 2 ^ c.val) 0)

/-- A core that CORE_HALT has still to wait for: powered, executing or waiting. -/
def State.halting (s : State) (c : CoreId) : Bool :=
  s.domReady c && (match (s.core c).run with | .halted | .lockup => false | _ => true)

def State.haltedOf (s : State) (m : Nat) : List CoreId := (maskCores m).filter (fun c => s.domReady c && (s.core c).run == .halted)

/-- CORE_HALT. -/
def State.opCoreHalt (s : State) (p : List Byte) : OpOut :=
  let m := leAt p 0 8 % 2 ^ 36
  if (maskCores m).any (fun c => s.fenced c || (match s.role c with | .checker _ => true | _ => false)) then s.no stDenied
  else
    let t := (maskCores m).foldl (fun u c => if u.domReady c then u.dbgHalt c else u) s
    if (maskCores m).any (fun c => t.halting c) then .wait t (.cores (BitVec.ofNat 36 m)) else t.yes (coresMask (t.haltedOf m))

/-- CORE_START: the halted cores of the mask begin at the address with the register state of R197; with a main its checker. -/
def State.opCoreStart (s : State) (p : List Byte) : OpOut :=
  let a := w32 p 8
  let may := fun (c : CoreId) => s.domReady c && !s.fenced c && (s.core c).run == .halted && !s.pairStopped c &&
    (s.core c).testEnd.isNone && (match s.role c with | .checker _ => false | _ => true)
  if 0x2FF80 ≤ a.toNat ∨ a.toNat % 4 ≠ 0 then s.no stTooLong
  else
    let l := (maskCores (leAt p 0 8)).filter may
    (l.foldl (fun (t : State) c =>
      let u := t.startCore c a
      match t.role c with
      | .main k =>
        let v := u.setPair k { u.pair k with haltAt := none }
        let b := coreId (t.checkerOf k)
        -- a core in lockup leaves it only by a reset of its domain (R258)
        if (v.core b).run = .lockup then v else v.startCore b a
      | _ => u) s).yes (coresMask l)

/-- Bytes written through an alias, one by one; none where a write is refused. -/
def State.aliasBytes (s : State) (a : Nat) : List Byte → Option State
  | [] => some s
  | b :: r =>
    match s.busWrite scCtx a ((b.setWidth 32) <<< (8 * (a % 4))) (2 ^ (a % 4)) with
    | (none, t) => t.aliasBytes (a + 1) r
    | (some _, _) => none

/-- CORE_LOAD. -/
def State.opCoreLoad (s : State) (p : List Byte) : OpOut :=
  let c := coreId (min 36 (u8 p 0))
  let off := u32 p 4
  let bs := p.drop 8
  if 0x2FF80 < off + bs.length then s.no stTooLong
  else match s.aliasBytes (locAddr c off) bs with
    | some t => t.yes (natBytes 4 bs.length)
    | none => s.no stDenied

/-- PAIR_MODE (R278, R294). -/
def State.opPairMode (s : State) (p : List Byte) : OpOut :=
  if 16 ≤ u8 p 0 then s.no stTooLong
  else if !s.domReady 84 then s.no stDenied
  else
    let k := fin 16 (u8 p 0) (by decide)
    -- an undefined mode takes the default, 0 (R10, R407)
    let a := rRmPair k 0
    let v := BitVec.ofNat 32 ((if u8 p 1 < 3 then u8 p 1 else 0) + 256 * u8 p 2)
    let t := (s.pairModeWrite k true (s.ordered 36 a v)).noteWrite 36 a v (mask 0 32)
    t.yes [BitVec.ofNat 8 (t.fld (rRmPair k 0) 0 2), BitVec.ofNat 8 (t.fld (rRmPair k 0) 8 8)]

/-- READMIT (R297). -/
def State.opReadmit (s : State) (p : List Byte) : OpOut :=
  if !s.domReady 84 then s.no stDenied
  else
    let t := s.readmit (min 35 (u8 p 0))
    let r := t.fld rRmReadmit 12 3
    .reply t (if r = 1 then stOk else stState) [BitVec.ofNat 8 r]

/-- PE_LOAD (R389). -/
def State.opPeLoad (s : State) (p : List Byte) : OpOut :=
  let g := fin 8 (min 7 (u8 p 0)) (by decide)
  let first := u8 p 1
  let n := (p.length - 2) / 2
  if 48 < first + n then s.no stTooLong
  else if !s.domReady (68 + g.val) then s.no stDenied
  else
    -- as SC's writes of the store, in the order of R9 (R405)
    match (List.range n).foldl (fun (r : BusW) i =>
        match r with
        | (none, t) => t.periphPut scCtx 7 (0x400 * g.val + 4 * (first + i)) (BitVec.ofNat 32 (u16 p (2 + 2 * i)))
        | e => e) (none, s) with
    | (none, t) => t.yes [BitVec.ofNat 8 n]
    | (some _, t) => t.no 13

/-- IMAGE_INFO: the slot verified at the last BOOT, and the manifest digest of the slot asked for; a code that names none takes A. -/
def State.opImageInfo (s : State) (p : List Byte) : OpOut :=
  s.yes (BitVec.ofNat 8 (s.fld rBootStat 2 1) :: (if u8 p 0 = 1 then s.boot.digB else s.boot.digA))

/-! ## Telemetry and subscriptions (Table 79) -/

def blockReads (a n : Nat) : List Nat := (List.range (n / 4)).map (fun i => (a + 4 * i) % 2 ^ 32)

/-- READ_BLOCK. -/
def State.opReadBlock (s : State) (g : Nat) (p : List Byte) : OpOut :=
  let a := u32 p 0
  let n := u16 p 4
  if a % 4 ≠ 0 ∨ n % 4 ≠ 0 ∨ maxLen g < n then s.no stTooLong
  else s.ozRegs p (blockReads a n) wordsBytes

/-- SUBSCRIBE: the lowest free identifier from 0 to 15. -/
def State.opSubscribe (s : State) (h : ReqHdr) (p : List Byte) : OpOut :=
  let a := u32 p 0
  let n := u16 p 4
  let per := max 1 (u16 p 6)
  if a % 4 ≠ 0 ∨ n % 4 ≠ 0 ∨ n < 4 ∨ 256 < n then s.no stTooLong
  else
    match (List.range 16).find? (fun i => !s.oz.subs.any (fun x => x.id.toNat == i)) with
    | none => s.no stState
    | some i =>
      let x : Subscription := ⟨BitVec.ofNat 8 i, h.session, BitVec.ofNat 32 a, n, per, per, 0⟩
      ({ s with oz := { s.oz with subs := s.oz.subs ++ [x] } }).yes (BitVec.ofNat 8 i :: natBytes 2 per)

/-- UNSUBSCRIBE. -/
def State.opUnsubscribe (s : State) (h : ReqHdr) (p : List Byte) : OpOut :=
  match s.oz.subs.find? (fun x => x.id.toNat == u8 p 0 && x.sess == h.session) with
  | some x => ({ s with oz := { s.oz with subs := s.oz.subs.filter (fun y => y.id != x.id) } }).yes (natBytes 2 (min 0xFFFF x.skip))
  | none => s.no stState

/-! ## Flash (Table 80) -/

/-- The bank of a command. -/
def opBank (n top : Nat) (h : top < 5) : Fin 5 := ⟨min n top, by omega⟩

/-- Units of a bank: 2^18 of a code bank, 2,048 of the data-flash window. -/
def bankUnits (b : Fin 5) : Nat := if b = 4 then 2048 else 2 ^ 18

/-- The power domain of a bank. -/
def bankDom (b : Fin 5) : Nat := 63 + b.val

/-- The next unit of an FL_PROGRAM, or its reply: units done and the code. -/
def State.flStep (s : State) (b : Fin 5) : Nat → Nat → List Byte → Nat → OpOut
  | 0, _, _, done => s.yes (natBytes 2 done)
  | n + 1, unit, left, done =>
    if left.isEmpty then s.yes (natBytes 2 done)
    else
      let t := s.flCmd b 1 unit (left.take 16)
      if t.flBusy b then .wait t (.flash b (unit + 1) (left.drop 16) done)
      else if t.flCode b = 0 then t.flStep b n (unit + 1) (left.drop 16) (done + 1)
      else .reply t (flStatus (t.flCode b)) (natBytes 2 done)

/-- FL_PROGRAM (R352). -/
def State.opFlProgram (s : State) (p : List Byte) : OpOut :=
  let b := opBank (u8 p 0) 4 (by decide)
  let unit := u32 p 4
  let data := p.drop 8
  if bankUnits b < unit + data.length / 16 then s.no stTooLong
  else if !s.domReady (bankDom b) then s.no stDenied
  else if s.flBusy b then s.busyOut b
  else s.flStep b (data.length / 16 + 1) unit data 0

/-- A flash command that runs as a job. -/
def State.flJob (s : State) (b : Fin 5) (op unit : Nat) (k : JobKind) : OpOut :=
  if !s.domReady (bankDom b) then s.no stDenied
  else if s.flBusy b then s.busyOut b
  else
    let t := s.flCmd b op unit []
    if t.flBusy b then
      let j := t.newJob k []
      j.2.yes [j.1]
    else t.no (flStatus (t.flCode b))

/-- FL_ERASE. -/
def State.opFlErase (s : State) (p : List Byte) : OpOut :=
  let b := opBank (u8 p 0) 3 (by decide)
  if 64 ≤ u8 p 1 then s.no stTooLong else s.flJob b 2 (4096 * u8 p 1) (.erase b)

/-- FL_LOG_ERASE (R360, R361). -/
def State.opFlLogErase (s : State) (p : List Byte) : OpOut :=
  let l := fin 8 (min 7 (u8 p 0)) (by decide)
  if !s.domReady (bankDom 4) then s.no stDenied
  else if s.flBusy 4 then s.busyOut 4
  else
    let t := s.flCmd 4 4 (256 * l.val) []
    if t.flBusy 4 then .wait t (.logErase l) else t.no (flStatus (t.flCode 4))

/-- FL_BLANK: the sectors of a code bank, or the logical sectors of the data flash; the number takes the nearest legal one (R407). -/
def State.opFlBlank (s : State) (p : List Byte) : OpOut :=
  let b := opBank (u8 p 0) 4 (by decide)
  s.flJob b 3 (if b = 4 then 256 * min 7 (u16 p 1) else 4096 * min 63 (u16 p 1)) (.blank b)

/-- The address at which SC reads a unit of a bank. -/
def unitAddr (b : Fin 5) (unit : Nat) : Nat :=
  if b = 4 then 0x18000000 + 16 * unit else 0x10000000 + 0x400000 * b.val + 16 * unit

/-- FL_READ. -/
def State.opFlRead (s : State) (g : Nat) (p : List Byte) : OpOut :=
  let b := opBank (u8 p 0) 4 (by decide)
  let unit := u32 p 4
  let n := u16 p 8
  if bankUnits b < unit + n ∨ maxLen g < 16 * n then s.no stTooLong
  else if s.flBusy b then s.busyOut b
  else s.ozRegs p (blockReads (unitAddr b unit) (16 * n)) wordsBytes

/-- FL_PROT (R367): a level at or above the present one holds at once; the reply leaves before a lowering begins. -/
def State.opFlProt (s : State) (p : List Byte) : OpOut :=
  let n : Fin 3 := ⟨min 2 (u8 p 0), by omega⟩
  (if s.prot ≤ n then (s.setFld rFlProt 4 2 n.val).protSet else { s with oz := { s.oz with lower := some n } }).yes
    [BitVec.ofNat 8 n.val]

def State.opDfHealth (s : State) (p : List Byte) : OpOut :=
  s.ozRegs p ([rDfHealth, rDfHealth + 4] ++ (List.range 8).map rDfMap) wordsBytes

/-! ## OTP (Table 81) -/

/-- OTP_READ. -/
def State.opOtpRead (s : State) (g : Nat) (p : List Byte) : OpOut :=
  let off := u16 p 0
  let n := u16 p 2
  if off % 4 ≠ 0 ∨ n % 4 ≠ 0 ∨ 0x4000 < off + n ∨ maxLen g < n then s.no stTooLong
  else s.yes ((List.range n).map (fun i => s.otpRead (off + i)))

/-- The status of an OTP result code. -/
def otpStatus (code : Nat) : Nat :=
  match code with
  | 0 => stOk
  | 1 => stBadCrc
  | 2 => 18
  | 3 => stState
  | _ => 11

/-- BURN_GEN (R370): area 1 is the key block; a code that names no area takes 0. -/
def State.opBurnGen (s : State) (p : List Byte) : OpOut :=
  let key := decide (u8 p 0 = 1)
  let img := p.drop 4
  if img.length ≠ otpLen key then s.no stTooLong
  else match s.burnCheck key img with
    | .error c => s.no (otpStatus c)
    | .ok _ =>
      let j := (s.otpBurn key img).newJob .burn []
      j.2.yes [j.1]

/-- REVOKE (R371). -/
def State.opRevoke (s : State) (p : List Byte) : OpOut :=
  let key := decide (u8 p 0 = 1)
  let g := fin 4 (min 3 (u8 p 1)) (by decide)
  if !s.revokeAllowed key g then s.no stState else .wait (s.otpRevokeCmd key g) .otp

def State.opOtpStatus (s : State) (p : List Byte) : OpOut := s.ozRegs p [rOtpStat] wordsBytes

/-! ## Self-test and calibration (Table 82, R410) -/

/-- Whether a test may run in the present mode (Table 87). -/
def testMode (t mode : Nat) : Bool :=
  if t ≤ 3 then true
  else if t ≤ 7 then mode == 4 || mode == 5
  else mode == 5

/-- The targets of a mask that the device has and that the test may run on: in SAFE-HOLD halted cores and spares not admitted, converters
whose EN is 0, links other than a locked follower's tick link; in DIAGNOSE all (Table 87). -/
def State.testTargets (s : State) (t : Nat) (m : BitVec 64) : BitVec 64 :=
  let keep := fun (n : Nat) (ok : Nat → Bool) =>
    BitVec.ofNat 64 ((List.range n).foldl (fun v i => if m.getLsbD i ∧ ok i then v + 2 ^ i else v) 0)
  let diag := s.mode == 5
  match t with
  | 0 => keep 45 (fun i => if i < 8 then s.domReady (55 + i) else s.domReady (i - 8))
  | 1 => keep 16 (fun n => (s.calRequest (fin 16 n (by decide))).1)
  | 2 => keep 5 (fun b => s.domReady (63 + b))
  | 3 => 0
  | 4 => keep 32 (fun n => s.domReady (80 + n / 16))
  | 5 => keep 36 (fun n => s.domReady n && (diag || (s.core (coreId n)).run == .halted ||
      (decide (32 ≤ n) && s.flag rRmSpare (n - 32) && (match s.role n with | .solo => true | _ => false))))
  | 6 => keep 16 (fun n => (diag || !s.adcEn n) && s.adcOn n)
  | 7 => keep 4 (fun n => s.domReady (76 + n) && (diag || !(s.follows && s.fld rTickCtl 2 2 == n)))
  | 8 => keep 8 (fun q => s.domReady (55 + q))
  | _ => keep 48 (fun _ => true)

/-- The test of an ST_RUN: a code that names none takes 0 (R407). -/
def stTest (p : List Byte) : Nat := if u8 p 0 ≤ 9 then u8 p 0 else 0

/-- ST_RUN (R410): one that runs already answers with its job; a test without targets, but for OTP_VERIFY, is over at once. A
code that names no test takes 0 (R407). A calibration that names an enabled converter without its relief converter is refused
(R97). -/
def State.opStRun (s : State) (p : List Byte) : OpOut :=
  let t := stTest p
  let m := s.testTargets t (BitVec.ofNat 64 (leAt p 4 8))
  let same := s.oz.jobs.find? (fun j => j.run && (match j.kind with | .test n k => n == t && (k &&& m != 0 || t == 3) | _ => false))
  let mb := natBytes 8 m.toNat
  match same with
  | some j => s.yes (j.num :: mb)
  | none =>
    let s1 : State := match t with
      | 0 => (fastTargets m).foldl (fun u x => u.spargeFast x.2) s
      | 1 => (List.finRange 16).foldl (fun (u : State) n => if m.getLsbD n.val then (u.calRequest n).2 else u) s
      | _ => s
    let j := s1.newJob (.test t m) (if t = 1 then s.xfailNote else if t = 2 then [BitVec.ofNat 8 (s.banksBusy m)] else [])
    let s2 := if m = 0 ∧ t ≠ 3 then (j.2.jobDone j.1 0 (List.replicate 16 0)).fire 998 else j.2
    s2.yes (j.1 :: mb)

/-- The converters of a CAL_REQ that can be served. -/
def State.calServed (s : State) (p : List Byte) : List (Fin 16) :=
  (List.finRange 16).filter (fun n => (u16 p 0).testBit n.val && (s.calRequest n).1)

/-- CAL_REQ (R95 to R97): STATE where a converter that it names cannot be served, or where it names none. -/
def State.opCalReq (s : State) (p : List Byte) : OpOut :=
  let rl := u8 p 2 % 4
  let s1 := (s.calServed p).foldl (fun (u : State) n => (u.calRequest n).2) s
  let s2 := [0, 1].foldl (fun (u : State) (g : Fin 2) => if rl.testBit g.val then u.calSelf g else u) s1
  let j := s2.newJob (.cal (BitVec.ofNat 16 (u16 p 0)) (BitVec.ofNat 2 rl)) s.xfailNote
  j.2.yes [j.1]

/-- SPARGE_REQ (R341): kind 0 a quadrant, 1 a local memory; the target takes the nearest legal number. -/
def State.opSpargeReq (s : State) (p : List Byte) : OpOut :=
  let t : SpargeTarget := if u8 p 0 = 1 then .local (coreId (min 36 (u8 p 1))) else .quadrant (fin 8 (min 7 (u8 p 1)) (by decide))
  match s.oz.jobs.find? (fun j => j.run && j.kind == .sparge t) with
  | some j => s.yes [j.num]
  | none =>
    let j := (s.spargeFast t).newJob (.sparge t) []
    j.2.yes [j.1]

/-! ## Links (Table 83) -/

def opLink (p : List Byte) : Fin 4 := fin 4 (min 3 (u8 p 0)) (by decide)

/-- LINK_STATUS: generation, partner state, partner number, errors, TICK_STAT. -/
def State.opLinkStatus (s : State) (p : List Byte) : OpOut :=
  let n := opLink p
  s.yes ([BitVec.ofNat 8 (s.fld (rLk n 4) 4 2), BitVec.ofNat 8 (s.lkState n), BitVec.ofNat 8 (s.fld (rLk n 4) 8 3)] ++
    wordBytes (s.rg (rLk n 8)) ++ wordBytes (s.scWord rTickStat))

/-- LINK_RETRAIN: not of a quarantined port (Table 91), nor, in RUN, of the tick link of a locked follower. -/
def State.opLinkRetrain (s : State) (p : List Byte) : OpOut :=
  let n := opLink p
  let j := (s.lkRetrain n).newJob (.retrain n) []
  j.2.yes [j.1]

/-- LINK_UNQUARANTINE, of a quarantined port. -/
def State.opLinkUnquarantine (s : State) (p : List Byte) : OpOut :=
  let n := opLink p
  let j := (s.unquarantine n).newJob (.retrain n) []
  j.2.yes [j.1]

/-! ## Diagnostics (Table 84) -/

/-- The registers that a selector reads. -/
def diagRegs (sel : Nat) : List Nat :=
  match sel with
  | 1 => [rOvrStat 0, rOvrStat 1] ++ (List.range 36).map rOvrCnt
  | 2 => (List.range 16).map (fun k => rRmPair k 0x08) ++ (List.range 16).map (fun k => rRmPair k 0x18) ++ [rRmGhost]
  | 3 => rFabStat :: (List.range 8).map rChMuted
  | 4 => [rSram 0, rSram 0x10, rSram 0x14, rSram 0x18, rSram 0x0C]
  | 5 => [rFlEcc, rDfHealth]
  | 6 => (List.range 16).map rAdcCal
  | _ => (List.range 32).map rCmpCnt

/-- The counts and flags with a CLR or W1C control that a selector clears, with what is written to them. -/
def diagClears (sel : Nat) : List (Nat × Word) :=
  match sel with
  | 1 => [(rOvrStat 0, BitVec.allOnes 32), (rOvrStat 1, 0xF)] ++ (List.range 36).map (fun n => (rOvrCnt n, 0x80000000))
  | 2 => (List.range 16).map (fun k => (rRmPair k 0x18, 0x80000000)) ++ [(rRmGhost, 0x80000000)]
  | 3 => [(rFabStat, 3)]
  | 4 => [(rSram 0, 0x1F)]
  | 5 => [(rDfHealth, 0x400)]
  | 6 => (List.range 16).map (fun n => (rAdcCal n, 1))
  | 7 => (List.range 32).map (fun n => (rCmpCnt n, 0x80000000))
  | _ => []

def State.opDiagRead (s : State) (p : List Byte) : OpOut :=
  let sel := min 7 (u8 p 0)
  if sel = 0 then s.yes (wordsBytes s.oz.counts.toList) else s.ozRegs p (diagRegs sel) wordsBytes

def State.opDiagClear (s : State) (p : List Byte) : OpOut :=
  let l := diagClears (min 7 (u8 p 0))
  s.ozScript scCtx p (l.length + 1) (accList (l.map (fun e => OzAcc.wr e.1 e.2))) (fun _ => [])

/-! ## Register access (Table 85) -/

/-- REG_READ. -/
def State.opRegRead (s : State) (p : List Byte) : OpOut :=
  let as := (List.range (u16 p 0)).map (fun i => u32 p (4 + 4 * i))
  if as.any (fun a => a % 4 != 0) then s.no stTooLong else s.ozRegs p as wordsBytes

/-- REG_WRITE: every word is written, in order, and then read back. -/
def State.opRegWrite (s : State) (p : List Byte) : OpOut :=
  let n := u16 p 0
  let l := (List.range n).map (fun i => (u32 p (4 + 8 * i), w32 p (8 + 8 * i)))
  if l.any (fun e => e.1 % 4 != 0) then s.no stTooLong
  else s.ozScript scCtx p (2 * n + 1) (accList (l.map (fun e => OzAcc.wr e.1 e.2) ++ l.map (fun e => OzAcc.rd e.1)))
    (fun ws => wordsBytes (ws.drop n))

/-- REG_MODIFY. -/
def State.opRegModify (s : State) (p : List Byte) : OpOut :=
  let a := u32 p 0
  let m := w32 p 4
  let v := w32 p 8
  if a % 4 ≠ 0 then s.no stTooLong
  else match (if s.oz.memo.isEmpty then s.bankBusy [a] else none) with
  | some b => s.busyOut b
  | none => s.ozScript scCtx p 4 (fun got => match got with
      | [] => some (.rd a)
      | [old] => some (.wr a ((old &&& ~~~ m) ||| (v &&& m)))
      | [_, _] => some (.rd a)
      | _ => none) (fun ws => wordBytes (ws.getD 2 0))

/-! ## Debug (Table 86, R298, R456 to R461) -/

/-- A checker in a paired mode refuses the debug port (R298). -/
def State.dbgRefused (s : State) (c : CoreId) : Bool := match s.role c with | .checker _ => true | _ => false

def opCore (p : List Byte) : CoreId := coreId (min 36 (u8 p 0))

/-- DBG_HALT. -/
def State.opDbgHalt (s : State) (p : List Byte) : OpOut :=
  let c := opCore p
  if s.dbgRefused c then s.no stDenied
  else
    let t := s.dbgHalt c
    if (t.core c).run = .halted then t.yes (natBytes 4 ((t.core c).retired % 2 ^ 32)) else .wait t (.halted c false)

/-- DBG_RESUME. -/
def State.opDbgResume (s : State) (p : List Byte) : OpOut :=
  let c := opCore p
  if s.dbgRefused c then s.no stDenied else (s.dbgGo c false).yes []

/-- Access to space 1, 2 or 3 of a core: the words read, or the code of the refusal. -/
def State.dbgWords (s : State) (c : CoreId) (sp a n : Nat) : Except Nat (List Word) :=
  match sp with
  | 1 => .ok ((List.range n).map (fun i => (s.core c).dbgGet (a + i)))
  | 2 => (List.range n).foldl (fun r i => match r with
      | .ok l => match s.privRead c (s.core c).world true (a + 4 * i) with
        | .ok w => .ok (l ++ [w])
        | .error _ => .error stDenied
      | e => e) (.ok [])
  | _ => .ok ((List.range n).map (fun i => s.dbgRegRead c (a + 4 * i)))

/-- Words written to space 1, 2 or 3: those of a pair's main are logged for its checker. -/
def State.dbgPuts (s : State) (c : CoreId) (sp a : Nat) : List Word → Except Nat State
  | [] => .ok s
  | v :: r =>
    if sp = 3 then (s.dbgRegWrite c a v).dbgPuts c sp (a + 4) r
    else
      let l := s.dbgLogWrite c sp (BitVec.ofNat 32 a) v
      if !l.1 then .error stDenied
      else if sp = 1 then (l.2.dbgLand c 1 (BitVec.ofNat 32 a) v).dbgPuts c sp (a + 1) r
      else match l.2.privPut 36 c (s.core c).world true a v with
        | .ok t => t.dbgPuts c sp (a + 4) r
        | .error _ => .error stDenied

/-- The checks of a debug access before it is made: alignment, the register numbers of Table 101, the private space. -/
def State.dbgCheck (s : State) (c : CoreId) (sp a n : Nat) : Option Nat :=
  if sp ≠ 1 ∧ a % 4 ≠ 0 then some stTooLong
  else if sp = 0 then none
  else if s.dbgRefused c || !s.domReady c then some stDenied
  else if sp = 1 then
    if (s.core c).run ≠ .halted then some stState else if 85 < a + n then some stTooLong else none
  else if sp = 2 ∧ regionOf a ≠ .priv then some stDenied
  else none

/-- The space of a command: a code that names none takes 0. -/
def opSpace (p : List Byte) : Nat := if u8 p 1 ≤ 3 then u8 p 1 else 0

/-- DBG_READ. -/
def State.opDbgRead (s : State) (g : Nat) (p : List Byte) : OpOut :=
  let c := opCore p
  let sp := opSpace p
  let n := u16 p 2
  let a := u32 p 4
  if maxLen g < 4 * n then s.no stTooLong
  else match s.dbgCheck c sp a n with
    | some e => s.no e
    | none =>
      if sp = 0 then s.ozReads debugCtx p (blockReads a (4 * n)) wordsBytes
      else match s.dbgWords c sp a n with
        | .ok ws => s.yes (wordsBytes ws)
        | .error e => s.no e

/-- DBG_WRITE: the reply holds the words written. -/
def State.opDbgWrite (s : State) (p : List Byte) : OpOut :=
  let c := opCore p
  let sp := opSpace p
  let n := u16 p 2
  let a := u32 p 4
  let ws := (List.range n).map (fun i => w32 p (8 + 4 * i))
  match s.dbgCheck c sp a n with
  | some e => s.no e
  | none =>
    if sp = 0 then
      s.ozScript debugCtx p (n + 1) (accList (((blockReads a (4 * n)).zip ws).map (fun e => OzAcc.wr e.1 e.2))) wordsBytes
    else match s.dbgPuts c sp a ws with
      | .ok t => t.yes (wordsBytes ws)
      | .error e => s.no e

/-- DBG_BREAK: units 0 to 3 are breakpoints, 4 and 5 watchpoints. -/
def State.opDbgBreak (s : State) (p : List Byte) : OpOut :=
  let c := opCore p
  let u := min 5 (u8 p 1)
  if s.dbgRefused c then s.no stDenied
  else
    let b := 0x10 + 0xC * u
    let kind := if u8 p 2 ≤ 4 then u8 p 2 else 0
    (((s.dbgRegWrite c b (w32 p 4)).dbgRegWrite c (b + 4) (w32 p 8)).dbgRegWrite c (b + 8) (BitVec.ofNat 32 kind)).yes
      [BitVec.ofNat 8 u]

/-- DBG_STEP (R460). -/
def State.opDbgStep (s : State) (p : List Byte) : OpOut :=
  let c := opCore p
  if s.dbgRefused c then s.no stDenied
  else
    let t := s.dbgRegWrite c 0 (BitVec.ofNat 32 (4 + 8 * min 1 (u8 p 1)))
    if (t.core c).run = .halted then t.no stState else .wait t (.halted c true)

/-! ## Steps 11 and 13 of Table 74 -/

/-- The command reads flash at protection level 1 or 2 (R366). -/
def State.opSecret (s : State) (op : Nat) (p : List Byte) : Bool :=
  decide (1 ≤ s.prot.val) && (match op with
    | 0x0400 | 0x0401 => (blockReads (u32 p 0) (u16 p 4)).any s.ozFlashBad
    | 0x0504 => true
    | 0x0A00 => (List.range (u16 p 0)).any (fun i => s.ozFlashBad (u32 p (4 + 4 * i)))
    | 0x0A02 => s.ozFlashBad (u32 p 0)
    | 0x0B02 => opSpace p == 0 && (blockReads (u32 p 4) (4 * u16 p 2)).any s.ozFlashBad
    | _ => false)

/-- The device's state forbids the command, by the checks of Tables 75 to 87 that change nothing. What SET_MODE, SWAP_SET, SET_LOAD's
order of chunks, READMIT, BURN_GEN and REVOKE judge by their own rules is part of their execution (DEDUCED, log entry 24). -/
def State.opForbidden (s : State) (h : ReqHdr) (op : Nat) (p : List Byte) : Bool :=
  let c := opCore p
  match op with
  | 0x0200 => s.shadowLocked || s.oz.load.any (fun a => a.sess != h.session)
  | 0x0201 | 0x0206 => s.shadowLocked
  | 0x0302 => (s.core c).run != .halted
  | 0x0401 => ((List.range 16).find? (fun i => !s.oz.subs.any (fun x => x.id.toNat == i))).isNone
  | 0x0402 => !s.oz.subs.any (fun x => x.id.toNat == u8 p 0 && x.sess == h.session)
  | 0x0601 => s.otpBusy && decide (p.length = 4 + otpLen (decide (u8 p 0 = 1)))
  | 0x0602 => s.otpBusy
  | 0x0700 => !testMode (stTest p) s.mode || (stTest p == 1 &&
      (List.finRange 16).any (fun n => (leAt p 4 8).testBit n.val && s.adcOn n && !(s.calRequest n).1))
  | 0x0701 => (s.calServed p).foldl (fun v n => v + 2 ^ n.val) 0 != u16 p 0 || (u16 p 0 == 0 && u8 p 2 % 4 == 0)
  | 0x0801 => s.lkState (opLink p) == 6 || (s.follows && s.fld rTickCtl 2 2 == (opLink p).val && s.mode == 3)
  | 0x0802 => s.lkState (opLink p) != 6
  | 0x0B00 => c == 36 || (!s.dbgRefused c && (!s.domReady c || (s.core c).run == .lockup))
  | 0x0B02 | 0x0B03 => s.dbgCheck c (opSpace p) (u32 p 4) (u16 p 2) == some stState
  | 0x0B05 => c == 36 || (!s.dbgRefused c && (s.core c).run != .halted)
  | _ => false

/-! ## HELLO (R397, R398) -/

/-- HELLO: the session opened, the number that the reply carries, and the reply. -/
def State.opHello (s : State) (h : ReqHdr) (p : List Byte) : BitVec 8 × State × Nat × List Byte :=
  let offer := u8 p 0 % 8
  let gen := if offer.testBit 2 then 3 else if offer.testBit 1 then 2 else 1
  let idx := u8 p 1
  let key := s.hmacKey idx
  match (List.finRange 8).find? (fun i => (s.oz.sessions[i]).isNone) with
  | none => if offer = 0 then (0, s, stBadGen, []) else (0, s, stNoSession, [])
  | some i =>
    if offer = 0 then (0, s, stBadGen, [])
    else if idx ≠ 0xFF ∧ (key.isNone ∨ gen = 1) then (0, s, stDenied, [])
    else
      let n : BitVec 8 := BitVec.ofNat 8 (i.val + 1)
      let nonce := (List.range 16).map (fun j => Config.freeByte (s.free + j))
      let ks := match idx, key with
        | 0xFF, _ => []
        | _, some k => hmac k (slice p 2 16 ++ nonce ++ [n])
        | _, none => []
      let x : Session := ⟨h.via, gen, decide (idx ≠ 0xFF), ks, 0, 1, 0, 0, s.now, 0, 0, 0⟩
      let t := (({ s with free := s.free + 16 }.setSess n (some x)).sessTouch n).fire 994
      let feat := match s.privRead 0 true true 0xE0004000 with | .ok w => w | .error _ => 0
      (n, t, stOk, [BitVec.ofNat 8 gen, n, BitVec.ofNat 8 x.limit, BitVec.ofNat 8 (s.devNum.getD 0)] ++ nonce ++
        wordBytes feat ++ wordBytes (s.rg rSetId))

end Sys2Proof.Machine
end

