-- ==== Sys2Proof/Machine/Ozgan.lean ====
section
/-! DEFINITION. Ozgan.lean: the command engine at work: the checks of Table 74, execution one command at a time, batches, commands
that wait, notifications, and the transports SPIH and UDP (R391 to R410). -/

namespace Sys2Proof.Machine

/-! ## The opcode table (Tables 75 to 86) -/

/-- An opcode: generation, class R, the modes that serve it (bit 0 COMMISSION to bit 3 DIAGNOSE), the least and largest LEN, and
for a counted payload the offset of the u16 count, the bytes ahead of the items and the bytes of an item. -/
structure OpSpec where
  gen   : Nat
  read  : Bool
  modes : Nat
  lo    : Nat
  hi    : Nat
  at_   : Nat := 0
  head  : Nat := 0
  item  : Nat := 0
  deriving DecidableEq, Repr

def mAll : Nat := 15

/-- Groups 0x00xx to 0x02xx. -/
def opSpecA (op : Nat) : Option OpSpec :=
  match op with
  | 0x0000 => some ⟨1, true, mAll, 18, 18, 0, 0, 0⟩
  | 0x0001 => some ⟨1, true, mAll, 0, 0, 0, 0, 0⟩
  | 0x0002 => some ⟨1, true, mAll, 0, 4096, 0, 0, 0⟩
  | 0x0003 => some ⟨1, true, mAll, 1, 1, 0, 0, 0⟩
  | 0x0004 => some ⟨3, true, mAll, 0, 4096, 0, 0, 0⟩
  | 0x0100 => some ⟨1, true, mAll, 0, 0, 0, 0, 0⟩
  | 0x0101 => some ⟨1, false, mAll, 1, 1, 0, 0, 0⟩
  | 0x0102 => some ⟨1, false, 6, 8, 8, 0, 0, 0⟩
  | 0x0103 => some ⟨1, false, mAll, 1, 1, 0, 0, 0⟩
  | 0x0200 => some ⟨1, false, mAll, 8, 4096, 0, 0, 0⟩
  | 0x0201 => some ⟨1, false, mAll, 8, 4096, 2, 8, 4⟩
  | 0x0202 => some ⟨1, true, mAll, 8, 8, 0, 0, 0⟩
  | 0x0203 => some ⟨1, false, mAll, 4, 4, 0, 0, 0⟩
  | 0x0204 => some ⟨1, false, mAll, 0, 0, 0, 0, 0⟩
  | 0x0205 => some ⟨1, true, mAll, 0, 0, 0, 0, 0⟩
  | 0x0206 => some ⟨1, false, mAll, 0, 0, 0, 0, 0⟩
  | _ => none

/-- Groups 0x03xx to 0x06xx. -/
def opSpecB (op : Nat) : Option OpSpec :=
  match op with
  | 0x0300 => some ⟨1, false, 13, 8, 8, 0, 0, 0⟩
  | 0x0301 => some ⟨1, false, 13, 12, 12, 0, 0, 0⟩
  | 0x0302 => some ⟨2, false, 13, 8, 4096, 0, 0, 0⟩
  | 0x0303 => some ⟨1, false, 9, 3, 3, 0, 0, 0⟩
  | 0x0304 => some ⟨1, false, mAll, 1, 1, 0, 0, 0⟩
  | 0x0305 => some ⟨1, false, mAll, 2, 4096, 0, 0, 0⟩
  | 0x0306 => some ⟨1, true, mAll, 1, 1, 0, 0, 0⟩
  | 0x0400 => some ⟨1, true, mAll, 6, 6, 0, 0, 0⟩
  | 0x0401 => some ⟨3, true, mAll, 8, 8, 0, 0, 0⟩
  | 0x0402 => some ⟨3, true, mAll, 1, 1, 0, 0, 0⟩
  | 0x0500 => some ⟨1, false, mAll, 8, 4096, 0, 0, 0⟩
  | 0x0501 => some ⟨1, false, mAll, 2, 2, 0, 0, 0⟩
  | 0x0502 => some ⟨1, false, mAll, 1, 1, 0, 0, 0⟩
  | 0x0503 => some ⟨1, true, mAll, 3, 3, 0, 0, 0⟩
  | 0x0504 => some ⟨1, true, mAll, 10, 10, 0, 0, 0⟩
  | 0x0505 => some ⟨1, false, 9, 1, 1, 0, 0, 0⟩
  | 0x0506 => some ⟨1, true, mAll, 0, 0, 0, 0, 0⟩
  | 0x0600 => some ⟨1, true, mAll, 4, 4, 0, 0, 0⟩
  | 0x0601 => some ⟨2, false, 9, 4, 4096, 0, 0, 0⟩
  | 0x0602 => some ⟨1, false, 9, 2, 2, 0, 0, 0⟩
  | 0x0603 => some ⟨1, true, mAll, 0, 0, 0, 0, 0⟩
  | _ => none

/-- Groups 0x07xx to 0x0Bxx. -/
def opSpecC (op : Nat) : Option OpSpec :=
  match op with
  | 0x0700 => some ⟨1, false, mAll, 12, 12, 0, 0, 0⟩
  | 0x0701 => some ⟨1, false, mAll, 3, 3, 0, 0, 0⟩
  | 0x0702 => some ⟨1, false, mAll, 2, 2, 0, 0, 0⟩
  | 0x0800 => some ⟨1, true, mAll, 1, 1, 0, 0, 0⟩
  | 0x0801 => some ⟨1, false, mAll, 1, 1, 0, 0, 0⟩
  | 0x0802 => some ⟨1, false, 13, 1, 1, 0, 0, 0⟩
  | 0x0900 => some ⟨1, true, mAll, 1, 1, 0, 0, 0⟩
  | 0x0901 => some ⟨1, false, mAll, 1, 1, 0, 0, 0⟩
  | 0x0A00 => some ⟨1, true, mAll, 4, 4096, 0, 4, 4⟩
  | 0x0A01 => some ⟨1, false, mAll, 4, 4096, 0, 4, 8⟩
  | 0x0A02 => some ⟨1, false, mAll, 12, 12, 0, 0, 0⟩
  | 0x0B00 => some ⟨1, false, mAll, 1, 1, 0, 0, 0⟩
  | 0x0B01 => some ⟨1, false, mAll, 1, 1, 0, 0, 0⟩
  | 0x0B02 => some ⟨1, true, mAll, 8, 8, 0, 0, 0⟩
  | 0x0B03 => some ⟨1, false, mAll, 8, 4096, 2, 8, 4⟩
  | 0x0B04 => some ⟨1, false, mAll, 12, 12, 0, 0, 0⟩
  | 0x0B05 => some ⟨1, false, mAll, 2, 2, 0, 0, 0⟩
  | _ => none

def opSpec (op : Nat) : Option OpSpec :=
  if op < 0x0300 then opSpecA op else if op < 0x0700 then opSpecB op else opSpecC op

/-- Step 12: the length that the opcode requires. -/
def OpSpec.lenOk (x : OpSpec) (op : Nat) (p : List Byte) : Bool :=
  decide (x.lo ≤ p.length) && decide (p.length ≤ x.hi) &&
    (x.item == 0 || p.length == x.head + x.item * u16 p x.at_) &&
    (op != 0x0305 || p.length % 2 == 0) && (op != 0x0500 || p.length % 16 == 8)

/-- The mode bit of Table 75 to 86. -/
def modeBit (m : Nat) : Nat := m - 2

/-- Steps 10 to 13 as far as the opcode's row alone decides them: the code of the first check that fails. An open session at a key's
presence uses class R only (R400); the debug opcodes are refused at protection level 2; the recovery engine serves five groups (R446).
-/
def State.opCheck (s : State) (gen : Nat) (auth : Bool) (op : Nat) (p : List Byte) : Option Nat :=
  match opSpec op with
  | none => some stUnknown
  | some x =>
    if gen < x.gen then some stUnknown
    else if s.keysLoaded && !auth && !x.read then some stDenied
    else if op / 256 = 0x0B ∧ s.prot = 2 then some stDenied
    else if !x.lenOk op p then some stTooLong
    else if !x.modes.testBit (modeBit s.mode) then some stState
    else if s.flag rBootStat 5 && !([0, 1, 3, 5, 6].contains (op / 256)) then some stState
    else none

/-- Step 14 of groups 0x00xx to 0x02xx. HELLO naming a session is refused. -/
def State.opDoA (s : State) (h : ReqHdr) (g op : Nat) (p : List Byte) : OpOut :=
  match op with
  | 0x0001 => s.opBye p
  | 0x0002 => s.opPing p
  | 0x0003 => s.opJob p
  | 0x0100 => s.opGetMode p
  | 0x0101 => s.opSetMode p
  | 0x0102 => s.opRelease p
  | 0x0103 => s.opFireHev p
  | 0x0200 => s.opSetLoad h p
  | 0x0201 => s.opSetWrite p
  | 0x0202 => s.opSetRead g p
  | 0x0203 => s.opSwapSet p
  | 0x0204 => s.opSwapCancel p
  | 0x0205 => s.opSwapStatus p
  | 0x0206 => s.opSetCopy p
  | _ => s.no stState

/-- Groups 0x03xx to 0x06xx. -/
def State.opDoB (s : State) (h : ReqHdr) (g op : Nat) (p : List Byte) : OpOut :=
  match op with
  | 0x0300 => s.opCoreHalt p
  | 0x0301 => s.opCoreStart p
  | 0x0302 => s.opCoreLoad p
  | 0x0303 => s.opPairMode p
  | 0x0304 => s.opReadmit p
  | 0x0305 => s.opPeLoad p
  | 0x0306 => s.opImageInfo p
  | 0x0400 => s.opReadBlock g p
  | 0x0401 => s.opSubscribe h p
  | 0x0402 => s.opUnsubscribe h p
  | 0x0500 => s.opFlProgram p
  | 0x0501 => s.opFlErase p
  | 0x0502 => s.opFlLogErase p
  | 0x0503 => s.opFlBlank p
  | 0x0504 => s.opFlRead g p
  | 0x0505 => s.opFlProt p
  | 0x0506 => s.opDfHealth p
  | 0x0600 => s.opOtpRead g p
  | 0x0601 => s.opBurnGen p
  | 0x0602 => s.opRevoke p
  | 0x0603 => s.opOtpStatus p
  | _ => s.no stState

/-- Groups 0x07xx to 0x0Bxx. -/
def State.opDoC (s : State) (g op : Nat) (p : List Byte) : OpOut :=
  match op with
  | 0x0700 => s.opStRun p
  | 0x0701 => s.opCalReq p
  | 0x0702 => s.opSpargeReq p
  | 0x0800 => s.opLinkStatus p
  | 0x0801 => s.opLinkRetrain p
  | 0x0802 => s.opLinkUnquarantine p
  | 0x0900 => s.opDiagRead p
  | 0x0901 => s.opDiagClear p
  | 0x0A00 => s.opRegRead p
  | 0x0A01 => s.opRegWrite p
  | 0x0A02 => s.opRegModify p
  | 0x0B00 => s.opDbgHalt p
  | 0x0B01 => s.opDbgResume p
  | 0x0B02 => s.opDbgRead g p
  | 0x0B03 => s.opDbgWrite p
  | 0x0B04 => s.opDbgBreak p
  | 0x0B05 => s.opDbgStep p
  | _ => s.no stState

/-- The block of subscription i is read. -/
def State.opSubRead (s : State) (p : List Byte) : OpOut :=
  match s.oz.subs.find? (fun x => x.id.toNat == u8 p 0) with
  | some x => s.ozRegs p (blockReads x.addr.toNat x.len) wordsBytes
  | none => s.no stState

def State.opDo (s : State) (h : ReqHdr) (g op : Nat) (p : List Byte) : OpOut :=
  if op = opNotify then s.opSubRead p
  else if op < 0x0300 then s.opDoA h g op p else if op < 0x0700 then s.opDoB h g op p else s.opDoC g op p

def State.fresh (s : State) : State := { s with oz := { s.oz with memo := [] } }

/-- One command or sub-command: steps 10 to 14. -/
def State.opRun (s : State) (h : ReqHdr) (op : Nat) (p : List Byte) : OpOut :=
  let x := s.sess h.session
  let g := match x with | some y => y.gen | none => 1
  let auth := match x with | some y => y.auth | none => false
  if op = opNotify then s.fresh.opDo h g op p
  else
    let secret := s.opSecret op p
    match s.opCheck g auth op p with
    | some e => s.no (if secret ∧ (e = stTooLong ∨ e = stState) then stDenied else e)
    | none =>
      if secret then s.no stDenied
      else if s.opForbidden h op p then s.no stState
      else (s.fresh.fire 992).opDo h g op p

/-! ## Notifications (R406) -/

/-- Subscription x sends its words, or skips: the host's buffers and, on SPIH, the slots decide. -/
def State.ozNotify (s : State) (x : Subscription) (pay : Option (List Byte)) : State :=
  let skip := fun (_ : Unit) => { s with oz := { s.oz with subs := s.oz.subs.map (fun (y : Subscription) =>
    if y.id = x.id then { y with skip := min 0xFFFF (y.skip + 1) } else y) } }
  match pay, s.sess x.sess with
  | some ws, some y =>
    if y.unack < y.bufs && (y.via != .spih || decide (s.spihSlots < 16)) then
      let pkt := mkPacket y.gen 4 x.sess (BitVec.ofNat 16 (y.notes + 1)) 0x0401 0 0 ws y.key
      (s.setSess x.sess (some { y with notes := y.notes + 1, unack := y.unack + 1 })).ozSend y.via x.sess false pkt
    else skip ()
  | _, _ => skip ()

/-- SUBSCRIPTION_NOTIFY (R406, Table 79): the block is read at once; one that lies in a remote window, or in a flash bank that works, is
read by the engine in its turn. -/
def State.subNotify (s : State) (id : BitVec 8) : State :=
  match s.oz.subs.find? (fun x => x.id == id) with
  | none => s
  | some x =>
    let as := blockReads x.addr.toNat x.len
    match s.sess x.sess with
    | none => s
    | some y =>
      if as.any (fun a => isRemote a || s.flashWaits a) then
        { s with oz := { s.oz with queue := s.oz.queue ++ [⟨⟨y.via, x.sess, 0⟩, opNotify, [id]⟩] } }
      else
        let memo := s.oz.memo
        let o := s.fresh.ozRegs [] as wordsBytes
        match o with
        | .reply t st ws => { t with oz := { t.oz with memo := memo } }.ozNotify x (if st = stOk then some ws else none)
        | _ => s

def execSubscriptionNotify (id : BitVec 8) (s : State) : Host.Outcome State Fault Refusal := .next (s.subNotify id)

/-! ## Execution (R405, R408) -/

/-- The entry of a sub-command in the reply of a batch. -/
def batchEntry (op st : Nat) (pay : List Byte) : List Byte :=
  natBytes 2 op ++ [BitVec.ofNat 8 st, 0] ++ natBytes 2 pay.length ++ pay

/-- The sub-commands of a batch, from those still to run: n bounds their number. -/
def State.ozBatch (h : ReqHdr) : Nat → List Byte → List Byte → State → State
  | 0, acc, _, s => s.ozAnswer h 4 stOk acc
  | n + 1, acc, rest, s =>
    if rest.isEmpty then s.ozAnswer h 4 stOk acc
    else
      let op := u16 rest 0
      let len := u16 rest 2
      let next := rest.drop (4 + len)
      let o := if op = 0 ∨ op = 1 ∨ op = 4 then s.no stState else s.opRun h op (slice rest 4 len)
      match o with
      | .reply t st pay =>
        let acc1 := acc ++ batchEntry op st pay
        if st = stOk then t.ozBatch h n acc1 next else t.ozAnswer h 4 st acc1
      | .wait t k => { t with oz := { t.oz with wait := some ⟨h, op, some (acc, next), k⟩ } }

/-- BYE: its reply leaves, and the session closes. -/
def State.ozBye (s : State) (h : ReqHdr) : State := ((s.sessDrop h.session).ozAnswer h 1 stOk []).sessEnd h.session

/-- What follows the end of a command: its reply, the rest of its batch, the notification it was for. -/
def State.ozSettle (_s : State) (h : ReqHdr) (op : Nat) (pay0 : List Byte) (batch : Option (List Byte × List Byte)) (o : OpOut) : State :=
  match batch, o with
  | some (acc, rest), .reply t st pay =>
    let acc1 := acc ++ batchEntry op st pay
    if st = stOk then t.ozBatch h rest.length acc1 rest else t.ozAnswer h 4 st acc1
  | none, .reply t st pay =>
    if op = opNotify then
      match t.oz.subs.find? (fun x => x.id.toNat == u8 pay0 0) with
      | some x => t.ozNotify x (if st = stOk then some pay else none)
      | none => t
    else if op = 1 ∧ st = stOk then t.ozBye h
    else t.ozAnswer h op st pay
  | b, .wait t k => { t with oz := { t.oz with wait := some ⟨h, op, b, k⟩ } }

/-- The sub-commands of a batch, if its payload holds whole ones. -/
def batchParse : Nat → List Byte → Option (List (Nat × List Byte))
  | 0, p => if p.isEmpty then some [] else none
  | n + 1, p =>
    if p.isEmpty then some []
    else if p.length < 4 ∨ p.length < 4 + u16 p 2 then none
    else (batchParse n (p.drop (4 + u16 p 2))).map (fun l => (u16 p 0, slice p 4 (u16 p 2)) :: l)

/-- The payload of an OK reply, in bytes (Tables 75 to 86). -/
def replyLen (op : Nat) (p : List Byte) : Nat :=
  match op with
  | 0x0002 => p.length
  | 0x0003 => 18
  | 0x0100 => 9
  | 0x0201 | 0x0202 | 0x0B02 | 0x0B03 => 4 * u16 p 2
  | 0x0A00 | 0x0A01 => 4 * u16 p 0
  | 0x0102 | 0x0200 | 0x0203 | 0x0300 | 0x0301 => 8
  | 0x0205 => 20
  | 0x0306 => 33
  | 0x0400 => u16 p 4
  | 0x0401 => 3
  | 0x0402 | 0x0303 | 0x0500 => 2
  | 0x0502 => 6
  | 0x0504 => 16 * u16 p 8
  | 0x0506 => 40
  | 0x0600 => u16 p 2
  | 0x0700 => 9
  | 0x0800 => 11
  | 0x0900 => if u8 p 0 = 0 then 24 else 4 * (diagRegs (u8 p 0)).length
  | 0x0204 | 0x0206 | 0x0302 | 0x0602 | 0x0603 | 0x0A02 | 0x0B00 => 4
  | 0x0B05 => 5
  | 0x0901 | 0x0B01 => 0
  | _ => 1

/-- HELLO without a session: the session opens, and its reply is the first packet under it. -/
def State.ozHello (s : State) (h : ReqHdr) (p : List Byte) : State :=
  match s.opCheck 1 true 0 p with
  | some e => s.ozReply h 1 0 e [] false
  | none =>
    let r := (s.fire 992).opHello h p
    r.2.1.ozReply { h with session := r.1 } 1 0 r.2.2.1 r.2.2.2 false

/-- BATCH (R408): refused whole where its payload is not made of sub-commands or its replies would not fit. -/
def State.ozBatchRun (s : State) (h : ReqHdr) (p : List Byte) : State :=
  let x := s.sess h.session
  let g := match x with | some y => y.gen | none => 1
  match s.opCheck g true 4 p, batchParse p.length p with
  | some e, _ => s.ozAnswer h 4 e []
  | none, none => s.ozAnswer h 4 stTooLong []
  | none, some l =>
    if 4096 < l.foldl (fun v e => v + 6 + replyLen e.1 e.2) 0 then s.ozAnswer h 4 stTooLong []
    else (s.fire 992).ozBatch h p.length [] p

/-- A request is executed. -/
def State.ozExec (s : State) (r : OzReq) : State :=
  if r.op = 0 ∧ r.h.session = 0 then s.ozHello r.h r.pay
  else if r.op = 4 then s.ozBatchRun r.h r.pay
  else s.ozSettle r.h r.op r.pay none (s.opRun r.h r.op r.pay)

/-- The requests waiting are executed while none is outstanding; n bounds their number. -/
def State.ozQueue : Nat → State → State
  | 0, s => s
  | n + 1, s =>
    if !s.ozOn || s.oz.wait.isSome then s
    else match s.oz.queue with
      | [] => s
      | r :: rest => ({ s with oz := { s.oz with queue := rest } }.ozExec r).ozQueue n

def State.ozPump (s : State) : State := s.ozQueue (s.oz.queue.length + 1)

/-! ## Commands that wait for their end -/

/-- How a waiting command ends, if it can. -/
def State.ozWaitEnd (s : State) (w : OzWait) : Option OpOut :=
  match w.kind with
  | .mode => if s.modeReq.isSome then none else some (s.yes [BitVec.ofNat 8 s.mode])
  | .swap =>
    if s.swapCut then some (.reply { s with swapCut := false } stState (wordBytes s.swapTick ++ wordBytes (s.rg rSwapStat)))
    else if swapState s = 1 then none else some (s.swapReply s.swapTick)
  | .flash b unit left done =>
    if s.flBusy b then none
    else if s.flCode b = 0 then some (s.flStep b (left.length / 16 + 1) unit left (done + 1))
    else some (.reply s (flStatus (s.flCode b)) (natBytes 2 done))
  | .logErase l =>
    if s.flBusy 4 then none
    else if s.flCode 4 = 0 then some (s.yes (natBytes 2 (s.dfMap l.val) ++ wordBytes (s.rg (rDfSeq l.val))))
    else some (s.no (flStatus (s.flCode 4)))
  | .otp =>
    if s.otpBusy then none
    else
      let c := s.fld rOtpRes 4 4
      some (if c = 0 then s.yes (natBytes 4 s.otpRevoke) else s.no (otpStatus c))
  | .halted c step =>
    match (s.core c).run with
    | .halted => some (s.yes ((if step then [BitVec.ofNat 8 (s.fld (rDbg c 4) 1 3)] else []) ++ natBytes 4 ((s.core c).retired % 2 ^ 32)))
    | .lockup => some (s.no stState)
    | _ => if s.domReady c then none else some (s.no stState)
  | .cores m =>
    if (maskCores m.toNat).any (fun c => s.halting c) then none else some (s.yes (coresMask (s.haltedOf m.toNat)))
  | .remote pay =>
    if s.remotes.any (fun r => r.use == .ozgan) || s.stalls.any (fun w => w.use == .ozgan) then none else some (s.opDo w.h (s.genOf w.h) w.op pay)

/-- The engine goes on: a waiting command that has come to its end is answered, then the queue moves. -/
def State.ozGo (s : State) : State :=
  if !s.ozOn then s
  else match s.oz.wait with
    | none => s.ozPump
    | some w =>
      match s.ozWaitEnd w with
      | none => s
      | some o =>
        let pay := match w.kind with | .remote p => p | _ => []
        let t := fun (u : State) => { u with oz := { u.oz with wait := none } }
        let o1 := match o with
          | .reply u st p => OpOut.reply (t u) st p
          | .wait u k => .wait u k
        (s.ozSettle w.h w.op pay w.batch o1).ozPump

/-- A request that has passed step 9 joins the queue (R403, R405). -/
def State.ozAccept (s : State) (h : ReqHdr) (op : Nat) (p : List Byte) : State :=
  let s1 := match s.sessOn h.via h.session with
    | some x => s.setSess h.session (some { x with open_ := x.open_ + 1 })
    | none => s
  ({ s1 with oz := { s1.oz with queue := s1.oz.queue ++ [(⟨h, op, p⟩ : OzReq)] } }).ozPump

/-! ## Receiving a packet (Table 74) -/

/-- A packet dropped at step 1 or 2. -/
def State.ozDrop (s : State) : State := s.ozCount 0

/-- A tag failure (R399). -/
def State.ozForged (s : State) (h : ReqHdr) (gen op : Nat) : State :=
  let s1 := ((s.ozCount 5).fire 995).ozReply h gen op stDenied [] true
  match h.via with
  -- the reply is what its transport's queue has gained
  | .link n => s1.quarantine n 1 ((s1.link n).req.drop (s.link n).req.length)
  | _ => match s1.sessOn h.via h.session with
    | some x =>
      if 7 ≤ x.tagBad then s1.sessClose h.session else s1.setSess h.session (some { x with tagBad := x.tagBad + 1 })
    | none => s1

/-- Steps 8 and 9, of a request in a session. -/
def State.ozSession (s : State) (h : ReqHdr) (x : Session) (op credit : Nat) (p : List Byte) : State :=
  let x0 := { x with tagBad := 0 }
  if !x.fresh h.seq then
    ((s.setSess h.session (some x0)).fire 996).ozReply h x.gen op stReplay [] true
  else
    let x1 := { x0.slide h.seq with unack := 0, bufs := credit, last := s.now }
    let s1 := (s.setSess h.session (some x1)).sessTouch h.session
    if x.limit ≤ x.open_ then s1.hint.2.ozReply h x.gen op stBusy s1.hint.1 true
    else if h.via = .spih ∧ 16 ≤ s1.spihSlots then s1.ozReply h x.gen op stBusy (natBytes 2 100) true
    else s1.ozAccept h op p

/-- PACKET_RECEIVE (R396): steps 2 to 9. -/
def State.ozReceive (s : State) (via : Transport) (pkt : List Byte) : State :=
  if !s.ozOn then s
  else
    let gen := u8 pkt 1
    let flags := u8 pkt 2
    let sess : BitVec 8 := pkt.getD 3 0
    let op := u16 pkt 6
    let len := u16 pkt 8
    let auth := flags.testBit 1
    if pkt.length < 16 ∨ u8 pkt 0 ≠ 0xB7 ∨ (crc16 (pkt.take 12)).toNat ≠ u16 pkt 12 ∨ u16 pkt 14 ≠ 0 ∨ flags.testBit 0 ∨ flags.testBit 2
    then s.ozDrop
    else
      let h : ReqHdr := ⟨via, sess, BitVec.ofNat 16 (u16 pkt 4)⟩
      let x := s.sessOn via sess
      let rg := match x with | some y => y.gen | none => gen
      let hello := op = 0 ∧ sess = 0
      let n := pkt.length - 4
      if maxLen gen < len then s.ozReply h rg op stTooLong [] true
      else if pkt.length ≠ 20 + len + 8 * b2n auth ∨ crc32 (pkt.take n) ≠ leWord (pkt.drop n) then s.ozReply h rg op stBadCrc [] true
      else
        let p := slice pkt 16 len
        match x with
        | none =>
          if ¬ hello then s.ozReply h rg op stNoSession [] true
          else if gen ≠ 1 then s.ozReply h rg op stBadGen [] true
          else if auth then s.ozForged h rg op
          else if via = .spih ∧ 16 ≤ s.spihSlots then s.ozReply h rg op stBusy (natBytes 2 100) true
          else s.ozAccept h op p
        | some y =>
          if gen ≠ y.gen then s.ozReply h rg op stBadGen [] true
          else if auth ≠ y.auth ∨ (y.auth ∧ slice pkt (16 + len) 8 ≠ (hmac y.key (pkt.take (16 + len))).take 8) then s.ozForged h rg op
          else s.ozSession h y op (u8 pkt 10) p

def execPacketReceive (via : Transport) (pkt : List Byte) (s : State) : Host.Outcome State Fault Refusal :=
  .next (s.ozReceive via pkt)

/-! ## SPIH and UDP (R391, R392, R432) -/

/-- A transfer on SPIH begins: source 926, the mode detected, a wake in DORMANT. None where the port is off. -/
def State.spihBegin (s : State) (mode3 : Bool) : State × Bool :=
  if s.mode = 0 then (s.wakeUp .spih, false)
  else if !s.domReady ifDom then (s, false)
  else ((s.setFlag rSpih 10 mode3).fire 926, true)

/-- SPIH_WRITE_TRANSFER (R391, R392): a packet that nCS cuts short is a framing error. -/
def execSpihWriteTransfer (mode3 : Bool) (bytes : List Byte) (s : State) : Host.Outcome State Fault Refusal :=
  let r := s.spihBegin mode3
  let total := 20 + u16 bytes 8 + 8 * b2n ((u8 bytes 2).testBit 1)
  .next (if !r.2 then r.1
    else if bytes.length < 16 ∨ bytes.length < total then
      let t := (r.1.hwFlag rSpih 8).fire 927
      if t.ozOn then t.ozDrop else t
    else r.1.ozReceive .spih bytes)

/-- SPIH_READ_TRANSFER (R391, R392): the refusal slot first, then the oldest reply. -/
def execSpihReadTransfer (mode3 : Bool) (s : State) : Host.Outcome State Fault Refusal :=
  let r := s.spihBegin mode3
  let put := fun (t : State) (pkt : List Byte) => { t with oz := { t.oz with spihOut := natBytes 2 pkt.length ++ pkt } }
  .next (if !r.2 then r.1
    else match r.1.oz.refusal, r.1.oz.spih with
      | some pkt, _ => put { r.1 with oz := { r.1.oz with refusal := none } } pkt
      | none, x :: rest => put { r.1 with oz := { r.1.oz with spih := rest } } x.2
      | none, [] => put r.1 [])

/-- ETH_FRAME_RECEIVE (R426 to R428): for the command engine, for the port itself, or for the ring. -/
def execEthFrameReceive (p : Fin 2) (frame : List Byte) (s : State) : Host.Outcome State Fault Refusal :=
  .next (match s.ethAccept p frame with
    | none => s
    | some f => match s.udpParse p f with
      | some d => if d.frag then (if s.ozOn then s.ozDrop else s) else (s.ethPeer p f d).ozReceive (.udp p d.ip d.port) d.data
      | none => s.ethPlain p f)

/-! ## The opcodes as commands

A row of the table that is an opcode stands for its request past step 9 of Table 74, in the session that its header names. -/

/-- The request is accepted: its number enters the window, and it joins the queue. One that names no open session is refused at
step 5. -/
def State.ozSubmit (s : State) (h : ReqHdr) (op : Nat) (p : List Byte) : State :=
  if !s.ozOn then s
  else match s.sessOn h.via h.session with
    | some x => ((s.setSess h.session (some { x.slide h.seq with unack := 0, last := s.now })).sessTouch h.session).ozAccept h op p
    | none => if op = 0 ∧ h.session = 0 then s.ozAccept h op p else s.ozReply h 1 op stNoSession [] true

def execHello (h : ReqHdr) (p : List Byte) (s : State) : Host.Outcome State Fault Refusal := .next (s.ozSubmit h 0x0000 p)
def execBye (h : ReqHdr) (p : List Byte) (s : State) : Host.Outcome State Fault Refusal := .next (s.ozSubmit h 0x0001 p)
def execPing (h : ReqHdr) (p : List Byte) (s : State) : Host.Outcome State Fault Refusal := .next (s.ozSubmit h 0x0002 p)
def execJob (h : ReqHdr) (p : List Byte) (s : State) : Host.Outcome State Fault Refusal := .next (s.ozSubmit h 0x0003 p)
def execBatch (h : ReqHdr) (p : List Byte) (s : State) : Host.Outcome State Fault Refusal := .next (s.ozSubmit h 0x0004 p)
def execGetMode (h : ReqHdr) (p : List Byte) (s : State) : Host.Outcome State Fault Refusal := .next (s.ozSubmit h 0x0100 p)
def execSetMode (h : ReqHdr) (p : List Byte) (s : State) : Host.Outcome State Fault Refusal := .next (s.ozSubmit h 0x0101 p)
def execRelease (h : ReqHdr) (p : List Byte) (s : State) : Host.Outcome State Fault Refusal := .next (s.ozSubmit h 0x0102 p)
def execFireHev (h : ReqHdr) (p : List Byte) (s : State) : Host.Outcome State Fault Refusal := .next (s.ozSubmit h 0x0103 p)
def execSetLoad (h : ReqHdr) (p : List Byte) (s : State) : Host.Outcome State Fault Refusal := .next (s.ozSubmit h 0x0200 p)
def execSetWrite (h : ReqHdr) (p : List Byte) (s : State) : Host.Outcome State Fault Refusal := .next (s.ozSubmit h 0x0201 p)
def execSetRead (h : ReqHdr) (p : List Byte) (s : State) : Host.Outcome State Fault Refusal := .next (s.ozSubmit h 0x0202 p)
def execSwapSet (h : ReqHdr) (p : List Byte) (s : State) : Host.Outcome State Fault Refusal := .next (s.ozSubmit h 0x0203 p)
def execSwapCancel (h : ReqHdr) (p : List Byte) (s : State) : Host.Outcome State Fault Refusal := .next (s.ozSubmit h 0x0204 p)
def execSwapStatus (h : ReqHdr) (p : List Byte) (s : State) : Host.Outcome State Fault Refusal := .next (s.ozSubmit h 0x0205 p)
def execSetCopy (h : ReqHdr) (p : List Byte) (s : State) : Host.Outcome State Fault Refusal := .next (s.ozSubmit h 0x0206 p)
def execCoreHalt (h : ReqHdr) (p : List Byte) (s : State) : Host.Outcome State Fault Refusal := .next (s.ozSubmit h 0x0300 p)
def execCoreStart (h : ReqHdr) (p : List Byte) (s : State) : Host.Outcome State Fault Refusal := .next (s.ozSubmit h 0x0301 p)
def execCoreLoad (h : ReqHdr) (p : List Byte) (s : State) : Host.Outcome State Fault Refusal := .next (s.ozSubmit h 0x0302 p)
def execPairMode (h : ReqHdr) (p : List Byte) (s : State) : Host.Outcome State Fault Refusal := .next (s.ozSubmit h 0x0303 p)
def execReadmit (h : ReqHdr) (p : List Byte) (s : State) : Host.Outcome State Fault Refusal := .next (s.ozSubmit h 0x0304 p)
def execPeLoad (h : ReqHdr) (p : List Byte) (s : State) : Host.Outcome State Fault Refusal := .next (s.ozSubmit h 0x0305 p)
def execImageInfo (h : ReqHdr) (p : List Byte) (s : State) : Host.Outcome State Fault Refusal := .next (s.ozSubmit h 0x0306 p)
def execReadBlock (h : ReqHdr) (p : List Byte) (s : State) : Host.Outcome State Fault Refusal := .next (s.ozSubmit h 0x0400 p)
def execSubscribe (h : ReqHdr) (p : List Byte) (s : State) : Host.Outcome State Fault Refusal := .next (s.ozSubmit h 0x0401 p)
def execUnsubscribe (h : ReqHdr) (p : List Byte) (s : State) : Host.Outcome State Fault Refusal := .next (s.ozSubmit h 0x0402 p)
def execFlProgram (h : ReqHdr) (p : List Byte) (s : State) : Host.Outcome State Fault Refusal := .next (s.ozSubmit h 0x0500 p)
def execFlErase (h : ReqHdr) (p : List Byte) (s : State) : Host.Outcome State Fault Refusal := .next (s.ozSubmit h 0x0501 p)
def execFlLogErase (h : ReqHdr) (p : List Byte) (s : State) : Host.Outcome State Fault Refusal := .next (s.ozSubmit h 0x0502 p)
def execFlBlank (h : ReqHdr) (p : List Byte) (s : State) : Host.Outcome State Fault Refusal := .next (s.ozSubmit h 0x0503 p)
def execFlRead (h : ReqHdr) (p : List Byte) (s : State) : Host.Outcome State Fault Refusal := .next (s.ozSubmit h 0x0504 p)
def execFlProt (h : ReqHdr) (p : List Byte) (s : State) : Host.Outcome State Fault Refusal := .next (s.ozSubmit h 0x0505 p)
def execDfHealth (h : ReqHdr) (p : List Byte) (s : State) : Host.Outcome State Fault Refusal := .next (s.ozSubmit h 0x0506 p)
def execOtpRead (h : ReqHdr) (p : List Byte) (s : State) : Host.Outcome State Fault Refusal := .next (s.ozSubmit h 0x0600 p)
def execBurnGen (h : ReqHdr) (p : List Byte) (s : State) : Host.Outcome State Fault Refusal := .next (s.ozSubmit h 0x0601 p)
def execRevoke (h : ReqHdr) (p : List Byte) (s : State) : Host.Outcome State Fault Refusal := .next (s.ozSubmit h 0x0602 p)
def execOtpStatus (h : ReqHdr) (p : List Byte) (s : State) : Host.Outcome State Fault Refusal := .next (s.ozSubmit h 0x0603 p)
def execCalReq (h : ReqHdr) (p : List Byte) (s : State) : Host.Outcome State Fault Refusal := .next (s.ozSubmit h 0x0701 p)
def execSpargeReq (h : ReqHdr) (p : List Byte) (s : State) : Host.Outcome State Fault Refusal := .next (s.ozSubmit h 0x0702 p)
def execLinkStatus (h : ReqHdr) (p : List Byte) (s : State) : Host.Outcome State Fault Refusal := .next (s.ozSubmit h 0x0800 p)
def execLinkRetrain (h : ReqHdr) (p : List Byte) (s : State) : Host.Outcome State Fault Refusal := .next (s.ozSubmit h 0x0801 p)
def execLinkUnquarantine (h : ReqHdr) (p : List Byte) (s : State) : Host.Outcome State Fault Refusal := .next (s.ozSubmit h 0x0802 p)
def execDiagRead (h : ReqHdr) (p : List Byte) (s : State) : Host.Outcome State Fault Refusal := .next (s.ozSubmit h 0x0900 p)
def execDiagClear (h : ReqHdr) (p : List Byte) (s : State) : Host.Outcome State Fault Refusal := .next (s.ozSubmit h 0x0901 p)
def execRegRead (h : ReqHdr) (p : List Byte) (s : State) : Host.Outcome State Fault Refusal := .next (s.ozSubmit h 0x0A00 p)
def execRegWrite (h : ReqHdr) (p : List Byte) (s : State) : Host.Outcome State Fault Refusal := .next (s.ozSubmit h 0x0A01 p)
def execRegModify (h : ReqHdr) (p : List Byte) (s : State) : Host.Outcome State Fault Refusal := .next (s.ozSubmit h 0x0A02 p)
def execDbgHalt (h : ReqHdr) (p : List Byte) (s : State) : Host.Outcome State Fault Refusal := .next (s.ozSubmit h 0x0B00 p)
def execDbgResume (h : ReqHdr) (p : List Byte) (s : State) : Host.Outcome State Fault Refusal := .next (s.ozSubmit h 0x0B01 p)
def execDbgRead (h : ReqHdr) (p : List Byte) (s : State) : Host.Outcome State Fault Refusal := .next (s.ozSubmit h 0x0B02 p)
def execDbgWrite (h : ReqHdr) (p : List Byte) (s : State) : Host.Outcome State Fault Refusal := .next (s.ozSubmit h 0x0B03 p)
def execDbgBreak (h : ReqHdr) (p : List Byte) (s : State) : Host.Outcome State Fault Refusal := .next (s.ozSubmit h 0x0B04 p)
def execDbgStep (h : ReqHdr) (p : List Byte) (s : State) : Host.Outcome State Fault Refusal := .next (s.ozSubmit h 0x0B05 p)

/-- ST_RUN of test t on a mask of targets (R410). -/
def State.ozTest (s : State) (h : ReqHdr) (t : Nat) (mask : BitVec 64) : State :=
  s.ozSubmit h 0x0700 ([BitVec.ofNat 8 t, 0, 0, 0] ++ natBytes 8 mask.toNat)

def execSpargeFast (h : ReqHdr) (mask : BitVec 64) (s : State) : Host.Outcome State Fault Refusal := .next (s.ozTest h 0 mask)
def execCal (h : ReqHdr) (mask : BitVec 64) (s : State) : Host.Outcome State Fault Refusal := .next (s.ozTest h 1 mask)
def execFlashMargin (h : ReqHdr) (mask : BitVec 64) (s : State) : Host.Outcome State Fault Refusal := .next (s.ozTest h 2 mask)
def execOtpVerify (h : ReqHdr) (mask : BitVec 64) (s : State) : Host.Outcome State Fault Refusal := .next (s.ozTest h 3 mask)
def execCmpSweep (h : ReqHdr) (mask : BitVec 64) (s : State) : Host.Outcome State Fault Refusal := .next (s.ozTest h 4 mask)
def execCoreBist (h : ReqHdr) (mask : BitVec 64) (s : State) : Host.Outcome State Fault Refusal := .next (s.ozTest h 5 mask)
def execAdcLinearity (h : ReqHdr) (mask : BitVec 64) (s : State) : Host.Outcome State Fault Refusal := .next (s.ozTest h 6 mask)
def execLinkLoopback (h : ReqHdr) (mask : BitVec 64) (s : State) : Host.Outcome State Fault Refusal := .next (s.ozTest h 7 mask)
def execEccPattern (h : ReqHdr) (mask : BitVec 64) (s : State) : Host.Outcome State Fault Refusal := .next (s.ozTest h 8 mask)
def execPwmLoopback (h : ReqHdr) (mask : BitVec 64) (s : State) : Host.Outcome State Fault Refusal := .next (s.ozTest h 9 mask)

end Sys2Proof.Machine
end

