-- ==== Sys2Proof/Machine/Flit.lean ====
section
/-! DEFINITION. Flit.lean: the receiver of a link (R412 to R415, R423, R425): what a flit that arrives does. The command's edge is
the one at which bytes 0 to 15 have arrived: EVMASK and a TICK flit's arrival act then, the rest F − H later, when the whole flit has
been checked. -/

namespace Sys2Proof.Machine

/-- A flit's fields (Table 89). -/
structure FlitIn where
  ev   : Nat
  ty   : Nat
  cred : Nat
  seq  : Nat
  ack  : Nat
  dst  : Fin 8
  src  : Fin 8
  tag  : BitVec 16
  body : List Byte
  head : Bool
  good : Bool
  deriving DecidableEq, Repr

/-- A flit is taken apart and checked. Bytes that are not 32 in number are no good flit. -/
def parseFlit (f : List Byte) : FlitIn where
  ev := leAt f 0 8
  ty := leAt f 8 1 % 16
  cred := leAt f 8 1 / 16
  seq := leAt f 9 1
  ack := leAt f 10 1
  dst := ⟨leAt f 11 1 % 8, Nat.mod_lt _ (by decide)⟩
  src := ⟨leAt f 11 1 / 8 % 8, Nat.mod_lt _ (by decide)⟩
  tag := BitVec.ofNat 16 (leAt f 14 2)
  body := slice f 16 12
  head := decide (f.length = flitWidth) && decide ((crc16 (f.take 12)).toNat = leAt f 12 2)
  good := decide (f.length = flitWidth) && decide (crc32 (f.take 28) = leWord (f.drop 28))

/-- How far a SEQ lies ahead of the one awaited. -/
def seqAhead (l : LinkState) (q : Nat) : Nat := (q + 256 - l.rxSeq) % 256

/-- ACK: the flits up to that SEQ are acknowledged (R413). -/
def ackedBy (q : Nat) : List (List Byte) → Option (List (List Byte))
  | [] => none
  | f :: r => if leAt f 9 1 = q then some r else ackedBy q r

/-- The receiver takes ACK and CRED of an accepted flit; a credit makes a SLOW partner UP (R413, R414, Table 91). -/
def State.flitAck (s : State) (n : Fin 4) (f : FlitIn) : State :=
  let l := s.link n
  let l1 := match ackedBy f.ack l.unack with
    | some r => { l with unack := r, resend := l.resend.filter (fun x => r.contains x), quiet := 0 }
    | none => l
  let s1 := s.setLink n { l1 with credit := min 16 (l1.credit + f.cred) }
  if 0 < f.cred ∧ s1.lkState n = 3 then s1.setLkState n 2 else s1

/-- The flit's window of ERRTHR (Table 91). -/
def State.flitCount (s : State) (n : Fin 4) : State :=
  let l := s.link n
  let w := max 1 (s.fld (rLk n 0x0C) 16 16) * 1024
  s.setLink n (if w ≤ l.flits then { l with flits := 1, errs := 0 } else { l with flits := l.flits + 1 })

/-- A flit is dropped by R413, and the flits up to it come again; an error of its own counts towards the error limit. -/
def State.flitDrop (s : State) (n : Fin 4) (err : Bool) (gap : Nat) : State :=
  let s1 := s.count (rLk n 8) 0 16 1
  let l := s1.link n
  s1.setLink n { l with gap := max l.gap (min 127 gap), errs := l.errs + b2n err }

/-- A marker received as a resent copy: its number and its PERIOD are used, its arrival is not (R413). A frame that is stopped holds
both (R47). -/
def State.markerAgain (s : State) (num : Word) (period lat : Nat) : State :=
  if !s.frameRuns then s else
  let per : Nat := max 1 s.framePeriod
  let pos : Int := (s.fld rFramePos 0 23 : Nat)
  let j : Int := (2 * ((lat : Int) - pos) + per) / (2 * per)
  let s1 := (s.skipTicks (num + BitVec.ofInt 32 j)).setFld rFrameCtl 0 23 (max 1000 (min 8000000 period))
  { s1 with
    markNum := some num, tickOut := false
    lostAt := if 1 ≤ j then some ((s.now : Int) - pos - (j - 1) * per + lat + 64).toNat else none }

/-- The arrival of a TICK flit on the tick link, before it is checked (R412, R415): a locked follower forwards at once. -/
def State.flitTick (s : State) (n : Fin 4) : State :=
  if s.fld rTickCtl 0 2 ≠ 2 ∨ s.fld rTickCtl 2 2 ≠ n.val then s
  else
    let s1 := s.lkFire n 15
    if s1.follows then s1.forwardOwn n s1.expectNum else s1

/-- The body of an accepted TICK flit: of a first copy its arrival counts too; a resent copy gives its number and its PERIOD (R413). -/
def State.flitMark (s : State) (n : Fin 4) (f : FlitIn) (fresh : Bool) : State :=
  let num := leWord f.body
  let period := leAt f.body 4 4 % 2 ^ 23
  let lat := leAt f.body 8 2 % 2 ^ 12
  if s.fld rTickCtl 0 2 ≠ 2 ∨ s.fld rTickCtl 2 2 ≠ n.val then s
  else if fresh then s.tickBody n num period lat (s.lkTail n)
  else s.markerAgain num period (lat + s.lkLat n)

/-- A request or an answer whose destination is another device goes on over its route (R417); a request without a route is
answered with NOROUTE (Table 90, R418). -/
def State.flitForward (s : State) (n : Fin 4) (f : FlitIn) : State :=
  let credited := decide (f.ty = 2) || decide (f.ty = 3)
  let out := match s.routeTo f.dst.val with
    | some m => if s.lkUp m then some m else none
    | none => none
  let s1 := if credited then s.lkFree n else s
  match out with
  | some m =>
    let q : FlitReq := ⟨f.ty, f.dst.val + 8 * f.src.val, f.tag, f.body, s.now⟩
    let l := s1.link m
    s1.setLink m (if credited then { l with req := l.req ++ [q] } else { l with ctl := l.ctl ++ [q] })
  | none => if credited then s1.lkQueue n false 4 f.src.val f.dst.val f.tag (rspBody 0 4) else s1

/-- The request that a MEMRD or MEMWR carries (Table 90). -/
def FlitIn.req (f : FlitIn) : MemReq :=
  let b := leAt f.body 8 1
  { dst := f.dst, src := f.src, tag := f.tag, offset := leWord f.body, data := leWord (f.body.drop 4)
    mask := BitVec.ofNat 4 b, service := b.testBit 4 }

/-- A whole Ozgan packet has arrived: a request goes to the command engine, a reply to SC's buffer (R423). -/
def State.linkPacket (s : State) (n : Fin 4) (pkt : List Byte) : State :=
  if leAt pkt 2 1 % 2 = 0 then s.ozReceive (.link n) pkt
  else if s.flag (rLk n 0x24) 31 then s.setLink n { s.link n with ozWait := (s.link n).ozWait ++ [pkt] }
  else s.lkReplyIn n pkt

/-- An OZGAN flit (R423): the packet is put together from the flit marked first to the one marked last. A packet begun inside
another drops the other, as does one of more than 375 flits (R396). -/
def State.ozFlit (s : State) (n : Fin 4) (f : FlitIn) : State :=
  let b := leAt f.body 0 1
  let bytes := slice f.body 1 (b % 16)
  let s0 := if s.flag (rLk n 0x24) 31 then s.setLink n { s.link n with ozHeld := (s.link n).ozHeld + 1 } else s.lkFree n
  let part := (s0.link n).oz
  let s1 := if part.isSome ∧ b.testBit 4 then s0.ozDrop else s0
  let pkt := if b.testBit 4 then some bytes else part.map (· ++ bytes)
  match pkt with
  | none => s1
  | some p =>
    if 4125 < p.length then (s1.setLink n { s1.link n with oz := none }).ozDrop
    else if b.testBit 5 then (s1.setLink n { s1.link n with oz := none }).linkPacket n p
    else s1.setLink n { s1.link n with oz := some p }

/-- The body of an accepted flit. Numbering acts by the command NUMBER_ANNOUNCE, since its body's layout is not given. -/
def State.flitBody (s : State) (n : Fin 4) (f : FlitIn) : State :=
  let mine := decide (s.devNum = some f.dst.val)
  match f.ty with
  | 2 => if mine then s.memrd n f.req .idle else s.flitForward n f
  | 3 => if mine then s.memwr n f.req .idle else s.flitForward n f
  | 4 => if mine then s.memrsp n f.tag (leWord f.body) (leAt f.body 4 1) else s.flitForward n f
  | 5 => if mine then s.busyIn n f.tag else s.flitForward n f
  | 6 => s.ozFlit n f
  | _ => s

/-- A credited flit takes a receive entry; one sent without a credit is a hostile act (R414, R425). -/
def State.flitEntry (s : State) (n : Fin 4) (f : FlitIn) : State :=
  let l := s.link n
  if f.ty = 2 ∨ f.ty = 3 ∨ f.ty = 6 then
    if 16 ≤ l.held + l.owe then s.quarantine n 3 []
    else (s.setLink n { l with held := l.held + 1 }).flitBody n f
  else s.flitBody n f

/-- The header of a flit arrives on link n (R412, R413). A flit whose header is bad is taken for the next one not yet sent. -/
def State.flitIn (s : State) (n : Fin 4) (bytes : List Byte) : State :=
  if !s.lkUp n then s
  else
    let f := parseFlit bytes
    let s1 := s.flitCount n
    let l := s1.link n
    if !f.head then s1.flitDrop n true (l.gap + 1)
    else
      let ahead := seqAhead l f.seq
      let newEv := decide (ahead < 128) && !l.evSeen.contains f.seq
      let fresh := newEv && decide (l.gap ≤ ahead)
      let m := { l with checks := l.checks ++ [(s.now + s.lkTail n, bytes, fresh)] }
      let s2 := if newEv then (s1.setLink n { m with evSeen := m.evSeen ++ [f.seq] }).tapsIn n f.ev else s1.setLink n m
      if f.ty = 1 ∧ fresh then s2.flitTick n else s2

/-- The whole flit has been checked: the rest of it acts, or it is dropped (R412, R413). -/
def State.flitCheck (s : State) (n : Fin 4) (bytes : List Byte) (fresh : Bool) : State :=
  let f := parseFlit bytes
  let l := s.link n
  let ahead := seqAhead l f.seq
  if !(f.good && decide (f.ty ≤ 8)) then s.flitDrop n true (if ahead < 128 then ahead + 1 else 0)
  else if 128 ≤ ahead then s
  else if ahead ≠ 0 then s.flitDrop n false (ahead + 1)
  else
    let s1 := s.setLink n { l with rxSeq := (l.rxSeq + 1) % 256, gap := l.gap - 1, evSeen := l.evSeen.filter (· != f.seq) }
    let s2 := if f.ty = 1 then s1.flitMark n f fresh else s1
    (s2.flitAck n f).flitEntry n f

/-- The flits of link n whose check falls on this edge, oldest first; k bounds their number. -/
def State.flitChecks (n : Fin 4) : Nat → State → State
  | 0, s => s
  | k + 1, s =>
    match (s.link n).checks with
    | c :: r => if c.1 ≤ s.now then ((s.setLink n { s.link n with checks := r }).flitCheck n c.2.1 c.2.2).flitChecks n k else s
    | [] => s

def State.flitsEdge (s : State) : State := links4.foldl (fun t n => t.flitChecks n (t.link n).checks.length) s

def execFlitReceive (n : Fin 4) (flit : List Byte) (s : State) : Host.Outcome State Fault Refusal := .next (s.flitIn n flit)

end Sys2Proof.Machine
end

