-- ==== Sys2Proof/Machine/Jtag.lean ====
section
/-! DEFINITION. Jtag.lean: the JTAG port (R454 to R457, R486): its instructions, the debug accesses of DBGACC, and the writes of
DBG_CTL. -/

namespace Sys2Proof.Machine

/-! ## Boundary scan (R454)

The order of the chain is not given: the model takes the PWM pins PWM0A, PWM0B to PWM47B, then PIO0 to PIO31, then the other digital
pins but those of the test port, in the order of Table 104 (DESIGN CHOICE, log entry 33). -/

/-- A pin's level as the chain captures it: a high-impedance pin reads a free value. -/
def State.pwmCell (s : State) (i : Fin 48 × Bool) : Bool :=
  let p := if i.2 then (s.pt i.1).pinB else (s.pt i.1).pinA
  p.getD ((Config.freeByte (s.free + 2 * i.1.val + b2n i.2)).getLsbD 0)

def State.pioCell (s : State) (i : Fin 32) : Bool :=
  if s.pio.dir.getLsbD i then s.pio.out.getLsbD i else s.pio.level.getLsbD i

def pwmPins : List (Fin 48 × Bool) := (List.finRange 48).flatMap (fun n => [(n, false), (n, true)])

/-- What the device itself drives on the other digital pins (Table 106), where its state shows it: pins 0 to 23 are those of ETH0 and ETH1
(TXD0 to 3, TX_CTL, TXC, RXD0 to 3, RX_CTL, RXC), then MDC, MDIO, CAN0_TX, CAN0_RX to CAN5_RX, UART0_TX, UART0_RX to UART2_RX, nCS, SCK,
MOSI, MISO, nRST, nFAULT, nWAKE. -/
def State.pinOwn (s : State) (k : Fin 51) : Option Bool :=
  let ethOff := fun (p : Nat) => !s.flag (rEth p 0) 0
  if k.val < 24 then (if k.val % 12 < 6 ∧ ethOff (k.val / 12) then some false else none)
  else if k.val = 24 then (if ethOff 0 && ethOff 1 then some false else none)
  else if 26 ≤ k.val ∧ k.val < 38 then
    (if k.val % 2 = 0 ∧ s.mode ≠ 0 ∧ !s.flag (rCan ((k.val - 26) / 2) 0) 0 then some true else none)
  else if 38 ≤ k.val ∧ k.val < 44 then
    (if k.val % 2 = 0 ∧ s.mode ≠ 0 ∧ !s.flag (rUart ((k.val - 38) / 2) 0) 0 then some true else none)
  else if k.val = 49 then (if s.nFaultReleased then none else some false)
  else none

/-- Such a pin as the chain captures it: a level that the device's state does not hold is a free value. -/
def State.pinCell (s : State) (k : Fin 51) : Bool := (s.pinOwn k).getD ((Config.freeByte (s.free + 96 + k.val)).getLsbD 0)

/-- The chain as captured. -/
def State.scanCells (s : State) : List Bool :=
  pwmPins.map s.pwmCell ++ (List.finRange 32).map s.pioCell ++ (List.finRange 51).map s.pinCell

/-- The chain drives the pins: EXTEST or CLAMP, in DIAGNOSE, and in DORMANT but for the PWM pins. -/
def State.scanDrives (s : State) (pwm : Bool) : Bool := s.jtag.drive && (s.mode == 5 || (s.mode == 0 && !pwm))

/-- What the device shows on PWM pin A or B of timer n: none is high impedance. -/
def State.padPwm (s : State) (n : Fin 48) (b : Bool) : Option Bool :=
  if s.scanDrives true then s.jtag.chain[2 * n.val + b2n b]? else if b then (s.pt n).pinB else (s.pt n).pinA

/-- What the device drives on pin PIOi, if it drives it. -/
def State.padPio (s : State) (i : Fin 32) : Option Bool :=
  if s.scanDrives false then s.jtag.chain[96 + i.val]?
  else if s.pio.dir.getLsbD i then some (s.pio.out.getLsbD i) else none

/-- What the device drives on another digital pin, where it is known. -/
def State.padPin (s : State) (k : Fin 51) : Option Bool :=
  if s.scanDrives false then s.jtag.chain[128 + k.val]? else s.pinOwn k

/-- An instruction is in force: its code, its data register as captured, and whether the chain drives. -/
def State.jtagIr (s : State) (ir : BitVec 4) (dr : List Bool) (drive : Bool) : State :=
  { s with jtag := { s.jtag with ir := ir, dr := dr, drive := drive } }

def State.jtagChain (s : State) (chain : List Bool) : State := { s with jtag := { s.jtag with chain := chain } }

/-- The chain is captured, and then takes what is shifted in. -/
def State.jtagScan (s : State) (ir : BitVec 4) (chain : List Bool) (drive : Bool) : State :=
  let s1 := (s.jtagIr ir s.scanCells drive).jtagChain chain
  { s1 with free := s1.free + 147 }

def execBypass (s : State) : Host.Outcome State Fault Refusal := .next (s.jtagIr 0xF [false] false)

def execIdcode (s : State) : Host.Outcome State Fault Refusal :=
  .next (s.jtagIr 0x1 ((List.range 32).map (fun i => bit 0x18840A5F i)) false)

def execSamplePreload (chain : List Bool) (s : State) : Host.Outcome State Fault Refusal := .next (s.jtagScan 0x2 chain false)

def execExtest (chain : List Bool) (s : State) : Host.Outcome State Fault Refusal := .next (s.jtagScan 0x3 chain true)

def execClamp (s : State) : Host.Outcome State Fault Refusal := .next (s.jtagIr 0x4 [false] true)

/-! ## DBGACC (R455, R456) -/

/-- STATUS of an access that ends with a bus error. -/
def causeStat : BusCause → Nat
  | .timeout => 3
  | _ => 2

/-- Status and data of a DBGACC access; the register selected is DBGACC. -/
def State.dbgEnd (s : State) (stat : Nat) (data : Word) : State :=
  { s with jtag := { s.jtag with ir := 0x8, drive := false, stat := stat, data := data } }

/-- What stops an access before it is made. -/
def State.dbgStop (s : State) (write : Bool) (c : CoreId) (sp : DbgSpace) (a : Nat) : Option Nat :=
  if !s.otpLoaded then some 2
  else if s.prot = 2 then some 5
  else if write ∧ s.mode = 1 then some 2
  else if sp ≠ .reg ∧ a % 4 ≠ 0 then some 2
  else if sp = .mem then none
  else if s.dbgRefused c then some 2
  else if !s.domReady c then some 3
  else match sp with
    | .reg => if (s.core c).run ≠ .halted then some 4 else if 84 < a then some 2 else none
    | .priv => if regionOf a ≠ .priv then some 2 else none
    | _ => none

/-- A remote access of the debug port is outstanding: BUSY, and what is shifted in is ignored. -/
def State.dbgRemote (s : State) (r : Except BusCause State) : State :=
  match r with
  | .ok t => t.dbgEnd 1 t.jtag.data
  | .error e => s.dbgEnd (causeStat e) s.jtag.data

def State.dbgaccRead (s : State) (c : CoreId) (sp : DbgSpace) (a : Nat) : State :=
  if s.jtag.stat = 1 then s
  else match s.dbgStop false c sp a with
    | some st => s.dbgEnd st s.jtag.data
    | none => match sp with
      | .mem =>
        if isRemote a then s.dbgRemote (s.remoteIssue a false 0 15 true .debug)
        else if s.flashWaits a && decide (s.prot.val < 1) then
          -- it waits for a suspend point of its bank, BUSY (R349, R455)
          State.dbgEnd { s with stalls := s.stalls ++ [⟨debugCtx.id, BitVec.ofNat 32 a, .debug⟩] } 1 s.jtag.data
        else match s.busRead debugCtx a with
          | (.ok w, t) => t.dbgEnd 0 w
          | (.error e, t) => t.dbgEnd (causeStat e) t.jtag.data
      | .reg => s.dbgEnd 0 ((s.core c).dbgGet a)
      | .priv => match s.privRead c (s.core c).world true a with
        | .ok w => s.dbgEnd 0 w
        | .error e => s.dbgEnd (causeStat e) s.jtag.data
      | .dbg => s.dbgEnd 0 (s.dbgRegRead c a)

def State.dbgaccWrite (s : State) (c : CoreId) (sp : DbgSpace) (a : Nat) (v : Word) : State :=
  if s.jtag.stat = 1 then s
  else match s.dbgStop true c sp a with
    | some st => s.dbgEnd st s.jtag.data
    | none => match sp with
      | .mem =>
        if isRemote a then s.dbgRemote (s.remoteIssue a true v 15 true .debug)
        else match s.busWrite debugCtx a v 15 with
          | (none, t) => t.dbgEnd 0 t.jtag.data
          | (some e, t) => t.dbgEnd (causeStat e) t.jtag.data
      | _ =>
        let n := match sp with | .reg => 1 | .priv => 2 | _ => 3
        match s.dbgPuts c n a [v] with
        | .ok t => t.dbgEnd 0 t.jtag.data
        | .error _ => s.dbgEnd 2 s.jtag.data

def execDbgaccRead (c : CoreId) (sp : DbgSpace) (addr : Word) (s : State) : Host.Outcome State Fault Refusal :=
  .next (s.dbgaccRead c sp addr.toNat)

def execDbgaccWrite (c : CoreId) (sp : DbgSpace) (addr v : Word) (s : State) : Host.Outcome State Fault Refusal :=
  .next (s.dbgaccWrite c sp addr.toNat v)

/-! ## DBG_CTL (R458, R460) -/

/-- A debugger writes bits of DBG_CTL of core c and repeats STEPMASK. A checker refuses (R298). -/
def State.dbgCtl (s : State) (c : CoreId) (v : Word) : State :=
  if s.debugShut true || s.dbgRefused c || !s.domReady c then s.refuse .denied
  else (s.dbgRegWrite c 0 (setBit v 3 (s.flag (rDbg c 0) 3))).answer 0

def execHalt (c : CoreId) (s : State) : Host.Outcome State Fault Refusal := .next (s.dbgCtl c 1)
def execResume (c : CoreId) (s : State) : Host.Outcome State Fault Refusal := .next (s.dbgCtl c 2)
def execStep (c : CoreId) (s : State) : Host.Outcome State Fault Refusal := .next (s.dbgCtl c 4)

end Sys2Proof.Machine
end

