-- ==== Sys2Proof/Machine/Clock.lean ====
section
/-! DEFINITION. Clock.lean: one edge of the timebase (tb). The block moves from one tb edge to the next when no command waits
(log entry 1): timers, converters, comparators, the fabric, pin engines and the frame move on, and the events whose edge has come
join the queue. -/

namespace Sys2Proof.Machine

/-- The next edge is a tick (R45). -/
def State.tickNext (s : State) : Bool := s.frameRuns && decide (s.framePeriod ≤ s.fld rFramePos 0 23 + 1)

/-- An armed swap takes place at that tick (R57). -/
def State.swapNext (s : State) : Bool :=
  s.tickNext && decide (swapState s = 2) && decide (s.swapTick = s.rg rFrameNum + 1)

/-- The position in the frame moves on. -/
def State.frameEdge (s : State) (tick : Bool) : State :=
  if tick then s.setFld rFramePos 0 23 0
  else if s.frameRuns then s.setFld rFramePos 0 23 (s.fld rFramePos 0 23 + 1)
  else s

/-- Core cycles are counted where a monitor selects them (Table 103). -/
def State.cycleEdge (s : State) : State :=
  if s.pmSel.any (fun e => bit e.2 10 && decide (bits e.2 0 3 = 0)) then
    (List.finRange 37).foldl (fun (t : State) (c : CoreId) => if t.domReady c && t.coreCycle c then t.pmCore c 0 1 else t) s
  else s

/-- Whether consumer m's block is on and enabled, so that a merged activation is recorded (R312, R313). -/
def State.consumerOn (s : State) (m : Nat) : Bool :=
  if m < 48 then s.ptEn m && !bit (s.ptSet m 0) 11 && decide (bits (s.ptSet m 0) 8 3 ≠ 0)
  else if m < 80 then bit (s.gtSet (m - 48) 0) 0 && !s.gtUpper (m - 48) && decide (bits (s.gtSet (m - 48) 0) 2 3 ≠ 0)
  else if m < 208 then s.gtCapOn ((m - 80) / 4) ((m - 80) % 4) 0
  else if m < 224 then s.adcOn (m - 208) && s.adcEn (m - 208)
  else if m < 232 then s.sdOn (m - 224) && bit (s.sdSyncReg (m - 224)) 16
  else if m < 248 then s.dmaActive (fin 16 (m - 232) (by decide))
  else if m < 312 then s.domReady (68 + (m - 248) / 8)
  else if m < 568 then s.slotOn (fin 4 ((m - 312) / 64) (by decide))
  else true

/-- Consumer m acts, where no unit's own edge function does it: converters, decimators, DMA, event slots (Table 59). `idle` names the
timers that a swap at this edge has enabled, which take no sync at it (R125). -/
def State.consume (merged : BitVec 256) (idle : Nat → Bool) (s : State) (m : Nat) : State :=
  let s1 := if s.consumerOn m && !idle m then s.noteMerged merged m else s
  if 208 ≤ m ∧ m < 224 then s1.adcTrig (fin 16 (m - 208) (by decide))
  else if 224 ≤ m ∧ m < 232 then s1.sdSync (fin 8 (m - 224) (by decide))
  else if 232 ≤ m ∧ m < 248 then s1.dmaReq (fin 16 (m - 232) (by decide))
  else if 312 ≤ m ∧ m < 568 then s1.slotIn (fin 4 ((m - 312) / 64) (by decide)) ((m - 312) % 64)
  else s1

/-- The event counters at an edge, with the clears written in the cycle before (R321); a clear that meets its own clear input is
recorded (R313). -/
def State.evcntAll (s : State) (cons : List Nat) : State :=
  let clr := s.fab.evClr
  let s1 := { s with fab := { s.fab with evClr := 0 } }
  if clr = 0 ∧ !cons.any (fun m => decide (568 ≤ m)) then s1
  else (List.range 32).foldl (fun t n =>
    let cnt := cons.contains (568 + 2 * n)
    let t1 := t.evcntEdge n cnt (clr.getLsbD n || cons.contains (569 + 2 * n))
    let t2 := if clr.getLsbD n && cons.contains (569 + 2 * n) then t1.hwFlag (rConsCoinc ((569 + 2 * n) / 32)) ((569 + 2 * n) % 32) else t1
    if cnt && clr.getLsbD n then t2.hwFlag (rConsCoinc ((568 + 2 * n) / 32)) ((568 + 2 * n) % 32) else t2) s1

/-- Cores in a wait go on when their flag stands (R183). -/
def State.wakeAll (s : State) : State :=
  (List.finRange 37).foldl (fun (t : State) (c : CoreId) => match (t.core c).run with
    | .waiting _ _ => t.wakeCore c
    | _ => t) s

/-- Remote accesses whose link carries no traffic any more fail (R419). -/
def State.remoteEdge (s : State) : State :=
  (s.remotes.filter (fun r => !s.lkUp r.link)).foldl (fun t r => t.remoteFail r .timeout) s

/-! ## Events whose edge has come -/

/-- What the transmitter of link n does at this edge (R413, R415, R424). -/
def State.linkEvents (s : State) (n : Fin 4) : List Instr :=
  if !s.lkUp n then []
  else
    (if s.fld (rLk n 0x0C) 0 8 < (s.link n).errs then [.errorLimitBreach n] else []) ++
    (if s.slowDue n then [.partnerSlow n] else []) ++
    (if s.atSlot n && s.resendDue n then [.flitResend n] else []) ++
    (if s.slotBegins n then [.flitTransmit n] else [])

/-- What follows a tick besides TICK itself, by the state before it: pairs that enter or leave a mode or resume, windows that end,
subscriptions whose period is over (R278, R292, R294, Table 79). -/
def State.tickEvents (s : State) : List Instr :=
  .tick :: ((List.finRange 16).flatMap (fun k =>
    let p := s.pair k
    (match p.next with
      | some m => if m = 0 then [.splitReturn k] else if s.pairSt k = 3 then [.pairedModeEntry k] else []
      | none => []) ++
    (if p.recovery && (s.pairSt k == 3 || s.pairSt k == 5) then [.pairResume k] else []) ++
    (if p.twin = 1 then [.transientWindowExpiry k] else [])) ++
   (s.oz.subs.filter (fun x => x.left ≤ 1)).map (fun x => .subscriptionNotify x.id))

/-- The periods of the subscriptions at a tick. -/
def State.subsTick (s : State) : State :=
  { s with oz := { s.oz with subs := s.oz.subs.map (fun x => { x with left := if x.left ≤ 1 then x.period else x.left - 1 }) } }

/-- The comparisons of a pair, which judge what has come by the end of their edge (R283, R284). -/
def pairJudge : Instr → Bool
  | .checkpointCompare _ | .sluiceTimeout _ => true
  | _ => false

/-- The events due at this edge, in the order in which they came to be scheduled. -/
def State.dueNow (s : State) : List Instr :=
  (s.due.filter (fun e => decide (e.1 ≤ s.now) && !pairJudge e.2)).map Prod.snd

/-- The bit errors of the tb cycle that begins come into the units that they name: of shared SRAM, of local memory, of flash. -/
def State.upsetEdge (s : State) : State :=
  (Config.upset s.now).foldl (fun t e =>
    let hit := fun (l : Sparse Bool) (u : Nat) => sinsert u (e.2 || (sfind l u).getD false) (serase l u)
    match t.flLocate e.1 with
    | some (_, f) => { t with flEcc := hit t.flEcc (f / 16 * 16) }
    | none =>
      if t.spargeHolds e.1 then t
      else if isRam e.1 then { t with ecc := hit t.ecc (eccUnit e.1) }
      else t) s

/-! ## The edge -/

/-- The units at an edge, `s0` being the state before it: timers first, then what they drive. -/
def State.unitsEdge (s0 : State) (cons : List Nat) (swapped : List (Fin 32)) (fresh cpl : List Nat) (s : State) : State :=
  let s1 := (List.finRange 48).foldl (fun t n => s0.ptEdge cons (fresh.contains n.val) (cpl.contains n.val) t n) s
  let s2 := (List.finRange 32).foldl (fun t n => s0.gtEdge cons (fresh.contains (48 + (s0.gtGov n).val)) t n) s1
  let s3 := (List.finRange 32).foldl (fun (t : State) (n : Fin 32) =>
    t.cmpEdge (swapped.contains n && bit (t.cmpCfg n) 0) (swapped.contains n && !bit (setWord s0.shadow 8 (16 * n.val + 4)) 0) n) s2
  let idle := fun (m : Nat) => if m < 48 then fresh.contains m
    else if h : m < 80 then fresh.contains (48 + (s0.gtGov ⟨m - 48, by omega⟩).val) else false
  let s4 := cons.foldl (State.consume s0.fab.merged idle) s3.sdSyncTake
  let s5 := (List.finRange 16).foldl State.adcEdge s4
  let s6 := (List.finRange 2).foldl State.reliefEdge s5
  let s7 := (List.finRange 8).foldl State.sdEdge s6
  let s8 := s7.pioEdge
  let s9 := (List.finRange 8).foldl (fun t g => t.pgEdge g s0.pio.lane cons) s8
  (List.finRange 8).foldl s0.sdSyncAct s9

/-- What is judged at the end of a cycle, when every command of its edge has been taken: the results of conversions, the comparisons
of pairs (R283, R284), the final selection of interrupt entries (R268), and whether a follower's marker has come (R67). -/
def State.cycleEnd (s : State) : State :=
  let t00 := (List.finRange 16).foldl State.adcCycleEnd s
  let t0 := (List.finRange 8).foldl (fun u g => (List.finRange 4).foldl (fun v e => v.peFullEnd g e) u) t00
  let t1 := (t0.due.filter (fun e => decide (e.1 ≤ t0.now) && pairJudge e.2)).foldl (fun u e => match e.2 with
    | .checkpointCompare k => u.compareCk k
    | .sluiceTimeout k => u.sluiceOut k
    | _ => u) t0
  let t := if t1.entering.isEmpty then t1 else t1.entryEdge
  match t.lostAt with
  | some e => if e ≤ t.now then t.tickLost else t
  | none => t

/-- A tb edge in a mode other than DORMANT. -/
def State.runEdge (s0 : State) : State :=
  let s := s0.cycleEnd
  let swap := s.swapNext
  let tick := s.tickNext
  let base := State.powerEdge { s with
    modeReq := none, shDue := false
    now := s.now + 1, hwSet := [], wrote := [], collided := none
    holdOvr := s.holdOvr ||| s.holdNew, holdNew := 0
    holdRed := s.holdRed ||| s.holdRedNew, holdRedNew := 0 }
  -- an armed swap exchanges the sets before anything else of the edge (R58)
  let s0 := if swap then s.swapApply (s.now + 1) else s
  let swapped := if swap then s0.cmpSwapped else []
  let fresh := if swap then s.timersStarted s0 else []
  let cpl := if swap then (List.range 48).filter (fun n => bit (s0.ptSet n 0) 4 && !bit (s.ptSet n 0) 4) else []
  let cons := s0.activeConsumers
  let b := if swap then base.swapApply base.now else base
  let b1 := if tick then b.clearChCounts else b
  let b2 := ((b1.rebindEdge).fabricEdge (if swap then s.cellsCleared s0 else [])).frameEdge tick
  let b3 := ((((if swap then b2.fire 980 else b2).stopRefuse).fireWaiting).eccEdge).slotsEdge
  let b4 := (b3.rateEdge.pairsEdge.tsEdge).pmSources s.fab.feed
  let b5 := (s0.unitsEdge cons swapped fresh cpl b4).evcntAll cons
  let b6 := (((((b5.cycleEdge).wakeAll).waitEdge).flitsEdge.remoteEdge).flashEdge.stallEdge).jobsEdge
  let b7 := (b6.modeEdge s.modeNext).ozGo
  let evs := (if tick then s.tickEvents else []) ++
    b7.dueNow ++ b7.spargeDue ++ (List.finRange 4).flatMap b7.linkEvents
  let b8 := if tick then b7.subsTick else b7
  { b8 with due := b8.due.filter (fun e => decide (b8.now < e.1) || pairJudge e.2), pending := b8.pending ++ evs }.upsetEdge

/-- A tb edge (log entry 1). In DORMANT nothing runs: only the wake sources are watched, and they come as commands. -/
def State.edge (s : State) : State :=
  if s.mode = 0 then { s with now := s.now + 1 }
  else if s.cycleEnd.modeNext = some 0 then { s.cycleEnd with now := s.now + 1 }.dormant
  else s.runEdge

end Sys2Proof.Machine
end

