-- ==== Sys2Proof/Machine/Accum.lean ====
section
/-! DEFINITION. Accum.lean: the accumulator instructions (R221). -/

namespace Sys2Proof.Machine

/-- MAC (R221). -/
def execMac (c : CoreId) (cc : CC) (acc : Fin 4) (b r : Reg) (s : State) : Host.Outcome State Fault Refusal :=
  .next (s.runInstr c { len := 3 + accPrefix acc + ccLen cc, ex := 2, cc := cc } (onRegs c (fun k0 k =>
    { k with acc := k.acc.set acc (accAdd k0.acc[acc] ((k0.w b).toInt * (k0.w r).toInt)) })))

/-- MSU (R221). -/
def execMsu (c : CoreId) (cc : CC) (acc : Fin 4) (b r : Reg) (s : State) : Host.Outcome State Fault Refusal :=
  .next (s.runInstr c { len := 3 + accPrefix acc + ccLen cc, ex := 2, cc := cc } (onRegs c (fun k0 k =>
    { k with acc := k.acc.set acc (accAdd k0.acc[acc] (-((k0.w b).toInt * (k0.w r).toInt))) })))

/-- MACQ (R221). -/
def execMacq (c : CoreId) (cc : CC) (acc : Fin 4) (b r : Reg) (s : State) : Host.Outcome State Fault Refusal :=
  .next (s.runInstr c { len := 3 + accPrefix acc + ccLen cc, ex := 2, cc := cc } (onRegs c (fun k0 k =>
    { k with acc := k.acc.set acc (accAdd k0.acc[acc] ((k0.w b).toInt * (k0.w r).toInt * 2)) })))

/-- ACCCLR (R221). -/
def execAccclr (c : CoreId) (cc : CC) (acc : Fin 4) (s : State) : Host.Outcome State Fault Refusal :=
  .next (s.runInstr c { len := 3 + accPrefix acc + ccLen cc, ex := 1, cc := cc } (onRegs c (fun _ k => { k with acc := k.acc.set acc 0 })))

/-- ACCPT (R221): parts 3 to 31 are illegal. -/
def execAccpt (c : CoreId) (cc : CC) (acc : Fin 4) (b : Reg) (part : Fin 32) (s : State) : Host.Outcome State Fault Refusal :=
  .next (s.runInstr c { len := 3 + accPrefix acc + ccLen cc, cc := cc, legal := decide (part.val ≤ 2) }
    (onRegs c (fun k0 k => { k with acc := k.acc.set acc (accPut k0.acc[acc] part (k0.w b)) })))

/-- ACCRD (R219, R221): the shift is field C plus 1. -/
def execAccrd (c : CoreId) (cc : CC) (a : Reg) (acc : Fin 4) (sh : Fin 32) (s : State) : Host.Outcome State Fault Refusal :=
  .next (s.runInstr c { len := 3 + accPrefix acc + ccLen cc, ex := 2, cc := cc } (onRegs c (fun k0 k => k.setSat a (accRead k0.acc[acc] (sh + 1)))))

/-- ACCGT (R221). -/
def execAccgt (c : CoreId) (cc : CC) (a : Reg) (acc : Fin 4) (part : Fin 32) (s : State) : Host.Outcome State Fault Refusal :=
  .next (s.runReg c { len := 3 + accPrefix acc + ccLen cc, cc := cc, legal := decide (part.val ≤ 2) } a
    (fun k => accPart k.acc[acc] part))

end Sys2Proof.Machine
end

