-- ==== Sys2Proof/Machine/Arith.lean ====
section
/-! DEFINITION. Arith.lean: the integer instructions (R207, R219). -/

namespace Sys2Proof.Machine

/-- ADD (R207). -/
def execAdd (c : CoreId) (cc : CC) (a b : Reg) (x : Src) (s : State) : Host.Outcome State Fault Refusal :=
  .next (s.runReg c { len := srcLen x + ccLen cc, cc := cc } a (fun k => k.w b + srcS k x))

/-- SUB (R207). -/
def execSub (c : CoreId) (cc : CC) (a b : Reg) (x : Src) (s : State) : Host.Outcome State Fault Refusal :=
  .next (s.runReg c { len := srcLen x + ccLen cc, cc := cc } a (fun k => k.w b - srcS k x))

/-- AND (R207). -/
def execAnd (c : CoreId) (cc : CC) (a b : Reg) (x : Src) (s : State) : Host.Outcome State Fault Refusal :=
  .next (s.runReg c { len := srcLen x + ccLen cc, cc := cc } a (fun k => k.w b &&& srcZ k x))

/-- OR (R207). -/
def execOr (c : CoreId) (cc : CC) (a b : Reg) (x : Src) (s : State) : Host.Outcome State Fault Refusal :=
  .next (s.runReg c { len := srcLen x + ccLen cc, cc := cc } a (fun k => k.w b ||| srcZ k x))

/-- XOR (R207). -/
def execXor (c : CoreId) (cc : CC) (a b : Reg) (x : Src) (s : State) : Host.Outcome State Fault Refusal :=
  .next (s.runReg c { len := srcLen x + ccLen cc, cc := cc } a (fun k => k.w b ^^^ srcZ k x))

/-- MUL (R207). -/
def execMul (c : CoreId) (cc : CC) (a b : Reg) (x : Src) (s : State) : Host.Outcome State Fault Refusal :=
  .next (s.runReg c { len := srcLen x + ccLen cc, cc := cc } a (fun k => k.w b * srcS k x))

/-- MIN (R207). -/
def execMin (c : CoreId) (cc : CC) (a b : Reg) (x : Src) (s : State) : Host.Outcome State Fault Refusal :=
  .next (s.runReg c { len := srcLen x + ccLen cc, cc := cc } a (fun k => if (k.w b).toInt ≤ (srcS k x).toInt then k.w b else srcS k x))

/-- MAX (R207). -/
def execMax (c : CoreId) (cc : CC) (a b : Reg) (x : Src) (s : State) : Host.Outcome State Fault Refusal :=
  .next (s.runReg c { len := srcLen x + ccLen cc, cc := cc } a (fun k => if (srcS k x).toInt ≤ (k.w b).toInt then k.w b else srcS k x))

/-- SHL (R207). -/
def execShl (c : CoreId) (cc : CC) (a b : Reg) (x : ShAmt) (s : State) : Host.Outcome State Fault Refusal :=
  .next (s.runReg c { len := shLen x + ccLen cc, cc := cc } a (fun k => k.w b <<< shAmt k x))

/-- SHR (R207). -/
def execShr (c : CoreId) (cc : CC) (a b : Reg) (x : ShAmt) (s : State) : Host.Outcome State Fault Refusal :=
  .next (s.runReg c { len := shLen x + ccLen cc, cc := cc } a (fun k => k.w b >>> shAmt k x))

/-- SAR (R207). -/
def execSar (c : CoreId) (cc : CC) (a b : Reg) (x : ShAmt) (s : State) : Host.Outcome State Fault Refusal :=
  .next (s.runReg c { len := shLen x + ccLen cc, cc := cc } a (fun k => (k.w b).sshiftRight (shAmt k x)))

/-- CMP (R198, R207). -/
def execCmp (c : CoreId) (cc : CC) (b : Reg) (x : Src) (s : State) : Host.Outcome State Fault Refusal :=
  .next (s.runInstr c { len := srcLen x + ccLen cc, cc := cc } (onRegs c (fun k0 k => k.putFlags (subFlags (k0.w b) (srcS k0 x)))))

/-- TST (R198, R207). -/
def execTst (c : CoreId) (cc : CC) (b r : Reg) (s : State) : Host.Outcome State Fault Refusal :=
  .next (s.runInstr c { len := 3 + ccLen cc, cc := cc } (onRegs c (fun k0 k => k.putFlags (andFlags (k0.w b) (k0.w r)))))

/-- MULH (R207). -/
def execMulh (c : CoreId) (cc : CC) (a b r : Reg) (s : State) : Host.Outcome State Fault Refusal :=
  .next (s.runReg c { len := 3 + ccLen cc, ex := 2, cc := cc } a (fun k => BitVec.ofInt 32 ((k.w b).toInt * (k.w r).toInt / 2 ^ 32)))

/-- MULHU (R207). -/
def execMulhu (c : CoreId) (cc : CC) (a b r : Reg) (s : State) : Host.Outcome State Fault Refusal :=
  .next (s.runReg c { len := 3 + ccLen cc, ex := 2, cc := cc } a (fun k => BitVec.ofNat 32 ((k.w b).toNat * (k.w r).toNat / 2 ^ 32)))

/-- ROR (R207). -/
def execRor (c : CoreId) (cc : CC) (a b r : Reg) (s : State) : Host.Outcome State Fault Refusal :=
  .next (s.runReg c { len := 3 + ccLen cc, ex := 1, cc := cc } a (fun k => (k.w b).rotateRight ((k.w r).toNat % 32)))

/-- CLZ (R207). -/
def execClz (c : CoreId) (cc : CC) (a b : Reg) (s : State) : Host.Outcome State Fault Refusal :=
  .next (s.runReg c { len := 3 + ccLen cc, ex := 1, cc := cc } a (fun k => BitVec.ofNat 32 (leadZeros (k.w b))))

/-- MOV (R207). -/
def execMov (c : CoreId) (cc : CC) (a b : Reg) (s : State) : Host.Outcome State Fault Refusal :=
  .next (s.runReg c { len := 3 + ccLen cc, ex := 1, cc := cc } a (fun k => k.w b))

/-- DIV (R219). -/
def execDiv (c : CoreId) (cc : CC) (a b r : Reg) (s : State) : Host.Outcome State Fault Refusal :=
  .next (s.runInstr c { len := 3 + ccLen cc, ex := 34, cc := cc } (onRegs c (fun k0 k => let q := divS (k0.w b) (k0.w r); k.setSat a (q.1, q.2.2))))

/-- DIVU (R219). -/
def execDivu (c : CoreId) (cc : CC) (a b r : Reg) (s : State) : Host.Outcome State Fault Refusal :=
  .next (s.runInstr c { len := 3 + ccLen cc, ex := 34, cc := cc } (onRegs c (fun k0 k => let q := divU (k0.w b) (k0.w r); k.setSat a (q.1, q.2.2))))

/-- REM (R219). -/
def execRem (c : CoreId) (cc : CC) (a b r : Reg) (s : State) : Host.Outcome State Fault Refusal :=
  .next (s.runInstr c { len := 3 + ccLen cc, ex := 34, cc := cc } (onRegs c (fun k0 k => let q := divS (k0.w b) (k0.w r); k.setSat a (q.2.1, q.2.2))))

/-- REMU (R219). -/
def execRemu (c : CoreId) (cc : CC) (a b r : Reg) (s : State) : Host.Outcome State Fault Refusal :=
  .next (s.runInstr c { len := 3 + ccLen cc, ex := 34, cc := cc } (onRegs c (fun k0 k => let q := divU (k0.w b) (k0.w r); k.setSat a (q.2.1, q.2.2))))

/-- ADDS (R219). -/
def execAdds (c : CoreId) (cc : CC) (a b r : Reg) (s : State) : Host.Outcome State Fault Refusal :=
  .next (s.runInstr c { len := 3 + ccLen cc, ex := 1, cc := cc } (onRegs c (fun k0 k => k.setSat a (sat32 ((k0.w b).toInt + (k0.w r).toInt)))))

/-- SUBS (R219). -/
def execSubs (c : CoreId) (cc : CC) (a b r : Reg) (s : State) : Host.Outcome State Fault Refusal :=
  .next (s.runInstr c { len := 3 + ccLen cc, ex := 1, cc := cc } (onRegs c (fun k0 k => k.setSat a (sat32 ((k0.w b).toInt - (k0.w r).toInt)))))

/-- MULQ (R219). -/
def execMulq (c : CoreId) (cc : CC) (a b r : Reg) (s : State) : Host.Outcome State Fault Refusal :=
  .next (s.runInstr c { len := 3 + ccLen cc, ex := 2, cc := cc } (onRegs c (fun k0 k => k.setSat a (mulQ (k0.w b) (k0.w r)))))

/-- ABS (R219). -/
def execAbs (c : CoreId) (cc : CC) (a b : Reg) (s : State) : Host.Outcome State Fault Refusal :=
  .next (s.runInstr c { len := 3 + ccLen cc, ex := 1, cc := cc } (onRegs c (fun k0 k => k.setSat a (sat32 ((k0.w b).toInt.natAbs : Int)))))

/-- SAT (R219). -/
def execSat (c : CoreId) (cc : CC) (a b : Reg) (n : Fin 32) (s : State) : Host.Outcome State Fault Refusal :=
  .next (s.runInstr c { len := 3 + ccLen cc, ex := 1, cc := cc } (onRegs c (fun k0 k => k.setSat a (satTo (k0.w b) n))))

/-- ADDP (R207): both pointers are read before either is written; with A = B the increment of wB stands. -/
def execAddp (c : CoreId) (cc : CC) (a b : Reg) (ia ib : Byte) (s : State) : Host.Outcome State Fault Refusal :=
  .next (s.runInstr c { len := 5 + ccLen cc, cc := cc } (onRegs c (fun k0 k =>
    (k.setW a (k0.w a + ia.signExtend 32)).setW b (k0.w b + ib.signExtend 32))))

/-- MOVI (R207). -/
def execMovi (c : CoreId) (cc : CC) (a : Reg) (i : Imm) (s : State) : Host.Outcome State Fault Refusal :=
  .next (s.runReg c { len := 2 + ImmSize.len i.size + ccLen cc, cc := cc } a (fun _ => immS i))

end Sys2Proof.Machine
end

