-- ==== Sys2Proof/Machine/Data.lean ====
section
/-! DEFINITION. Data.lean: loads, stores, the stack forms PUSH and POP, and the bank-atomic forms (R207 to R210). -/

namespace Sys2Proof.Machine

/-- The encoding of a load or store: legal sizes of 0xF5 and 0xF0 (Table 40, R209), and the prefix count. -/
def dataEnc (cc : CC) (x : Src) (sz : MemSize) (una narrow : Bool) : Enc :=
  { len := srcLen x + dataPrefix sz una + ccLen cc, data := 1 + b2n una, cc := cc
    legal := !(una && sz == .byte) && !(narrow && sz == .word) && prefixOk (dataPrefix sz una) cc }

/-- LD (R203, R208, R209). -/
def execLd (c : CoreId) (cc : CC) (a b : Reg) (x : Src) (sz : MemSize) (una : Bool) (s : State) :
    Host.Outcome State Fault Refusal :=
  let e := dataEnc cc x sz una false
  .next (s.runInstr c e (fun k0 t => t.load c ⟨a, sz, false, una, false, k0.w b + srcS k0 x, e.len⟩ []))

/-- LDS (R208): the narrow value sign-extended; the narrow prefix is required. -/
def execLds (c : CoreId) (cc : CC) (a b : Reg) (x : Src) (sz : MemSize) (una : Bool) (s : State) :
    Host.Outcome State Fault Refusal :=
  let e := dataEnc cc x sz una true
  .next (s.runInstr c e (fun k0 t => t.load c ⟨a, sz, true, una, false, k0.w b + srcS k0 x, e.len⟩ []))

/-- ST (R208, R209). -/
def execSt (c : CoreId) (cc : CC) (a b : Reg) (x : Src) (sz : MemSize) (una : Bool) (s : State) :
    Host.Outcome State Fault Refusal :=
  let e := dataEnc cc x sz una false
  .next (s.runInstr c e (fun k0 t => t.store c ⟨a, sz, false, una, false, k0.w b + srcS k0 x, e.len⟩ (k0.w a) false))

/-- PUSH (R207, Table 48). -/
def execPush (c : CoreId) (cc : CC) (a : Reg) (s : State) : Host.Outcome State Fault Refusal :=
  let e : Enc := { len := 2 + ccLen cc, data := 1, cc := cc }
  .next (s.runInstr c e (fun k0 t =>
    let sp := k0.curSp - 4
    if sp.toNat % 4 ≠ 0 then .fault t (faultMisaligned sp)
    else if t.areaBad c sp.toNat 4 then .fault t (faultStack sp)
    else match t.store c ⟨a, .word, false, false, false, sp, e.len⟩ (k0.w a) false with
      | .done u r => .done (u.setCore c ((u.core c).setW 31 sp)) r
      | p => p))

/-- POP (R203, R207); A = 31 is illegal. -/
def execPop (c : CoreId) (cc : CC) (a : Reg) (s : State) : Host.Outcome State Fault Refusal :=
  let e : Enc := { len := 2 + ccLen cc, data := 1, cc := cc, legal := a != 31 }
  .next (s.runInstr c e (fun k0 t => t.load c ⟨a, .word, false, false, true, k0.curSp, e.len⟩ []))

/-- A bank-atomic access (R210): the bank reads the word at ea, writes `f` of it, and returns the old word. The checker of a pair
receives the old word of its main. In LOOSE-OUTPUT the store is an output like any other (R284): the main reads the word, from the
sluice where a held store covers it, and the new one waits in the sluice (log entry 31). -/
def State.atomic (s : State) (c : CoreId) (a : Reg) (ea : Word) (f : Word → Word) : Pass :=
  let k := s.core c
  let n := ea.toNat
  let done := fun (t : State) (w : Word) =>
    let u := t.recStore c ea 4 (f w)
    Pass.done (u.setCore c { u.core c with shadow := some (a, w) }) { mem := 2, acc := [(ea, false), (ea, true)] }
  if n % 4 ≠ 0 then .fault s (faultMisaligned ea)
  else if !isSram n || !s.rgnAllows c k.world k.lvl .read n || !s.rgnAllows c k.world k.lvl .write n then
    .fault s (faultBus .denied ea)
  else
    let bank := fun (_ : Unit) =>
      match s.busIn c n with
      | (.error e, t) => Pass.fault (t.agreePush c 0 (some e)) (faultBus e ea)
      | (.ok w, t) => match t.busOut c n (f w) 15 with
        | (none, u) => done (u.agreePush c w none) w
        | (some e, u) => .fault (u.agreePush c 0 (some e)) (faultBus e ea)
    match s.role c with
    | .checker p =>
      if s.checking p then
        match s.agreeTake p with
        | some (x, t) => match x.cause with
          | some e => .fault t (faultBus (causeOf e) ea)
          | none => match t.checkOut p (t.storeOf c n 4 (f x.value)) with
            | .stop u => .stay u
            | .ok _ u => done u x.value
            | _ => .later
        | none => .stay (s.mismatch p 3)
      else .later
    | _ => match s.sluiced c with
      | some p => match s.busIn c n with
        | (.error e, t) => .fault (t.agreePush c 0 (some e)) (faultBus e ea)
        | (.ok w0, t) =>
          let w := sluiceWord (s.pair p).sluice n w0
          let u := t.agreePush c w none
          done (u.holdOut p (u.storeOf c n 4 (f w))) w
      | none => bank ()

/-- ATADD (R210). -/
def execAtadd (c : CoreId) (cc : CC) (a b r : Reg) (i : Imm) (s : State) : Host.Outcome State Fault Refusal :=
  .next (s.runInstr c { len := 4 + ImmSize.len i.size + ccLen cc, data := 1, cc := cc }
    (fun k0 t => t.atomic c a (k0.w b + immS i) (fun w => w + k0.w r)))

/-- ATSWP (R210). -/
def execAtswp (c : CoreId) (cc : CC) (a b r : Reg) (i : Imm) (s : State) : Host.Outcome State Fault Refusal :=
  .next (s.runInstr c { len := 4 + ImmSize.len i.size + ccLen cc, data := 1, cc := cc }
    (fun k0 t => t.atomic c a (k0.w b + immS i) (fun _ => k0.w r)))

end Sys2Proof.Machine
end

