-- ==== Sys2Proof/Machine/Float.lean ====
section
/-! DEFINITION. Float.lean: binary32 arithmetic as R220 has it: round to nearest even, subnormal inputs read as zero,
subnormal results flushed to zero, every NaN result 0x7FC0_0000. Each operation returns the word and whether FE sets. -/

namespace Sys2Proof.Machine

/-- A float read: (−1)^neg × m × 2^e, with m from 2^23 to 2^24 − 1 where it is not zero. -/
inductive FVal where
  | nan (signalling : Bool)
  | inf (neg : Bool)
  | fin (neg : Bool) (m : Nat) (e : Int)
  deriving DecidableEq, Repr

/-- Reads a word; a subnormal counts as zero of its sign. -/
def fdecode (w : Word) : FVal :=
  let neg := bit w 31
  let ex := bits w 23 8
  let mant := bits w 0 23
  if ex = 255 then (if mant = 0 then .inf neg else .nan (!bit w 22))
  else if ex = 0 then .fin neg 0 0
  else .fin neg (2 ^ 23 + mant) ((ex : Int) - 150)

def fNaN : Word := 0x7FC00000
def fInf (neg : Bool) : Word := if neg then 0xFF800000 else 0x7F800000
def fZero (neg : Bool) : Word := if neg then 0x80000000 else 0

/-- m / 2^k to nearest, ties to even; `sticky` says that more lies below. -/
def rneShift (m k : Nat) (sticky : Bool) : Nat :=
  let q := m >>> k
  let r := m % 2 ^ k
  let twice := 2 * r
  if twice > 2 ^ k ∨ (twice = 2 ^ k ∧ (sticky ∨ q % 2 = 1)) then q + 1 else q

/-- The word nearest to num / den × 2^e (num and den positive), and whether it overflowed; `rem` says that the exact value
lies a little above. -/
def fround (neg : Bool) (num den : Nat) (e : Int) (rem : Bool) : Word × Bool :=
  -- scale so that the quotient has at least 30 bits
  let up := 30 + (Nat.log2 den + 1) - min (30 + Nat.log2 den + 1) (Nat.log2 num)
  let q := (num <<< up) / den
  let sticky := decide ((num <<< up) % den ≠ 0) || rem
  let eq := e - up
  let top : Int := (Nat.log2 q : Int) + eq
  let ulp : Int := max (top - 23) (-149)
  let m := rneShift q (ulp - eq).toNat sticky
  let mu : Nat × Int := if m = 2 ^ 24 then (2 ^ 23, ulp + 1) else (m, ulp)
  if mu.1 < 2 ^ 23 then (fZero neg, false)
  else if 254 < mu.2 + 150 then (fInf neg, true)
  else (BitVec.ofNat 32 ((b2n neg) <<< 31 + (mu.2 + 150).toNat <<< 23 + (mu.1 - 2 ^ 23)), false)

/-- A signed integer times 2^e, rounded; a zero takes the given sign. -/
def froundInt (zneg : Bool) (v : Int) (e : Int) : Word × Bool :=
  if v = 0 then (fZero zneg, false) else fround (decide (v < 0)) v.natAbs 1 e false

/-- An invalid operand: a signalling NaN. -/
def FVal.sig : FVal → Bool
  | .nan s => s
  | _ => false

def FVal.isNan : FVal → Bool
  | .nan _ => true
  | _ => false

def FVal.neg : FVal → FVal
  | .nan s => .nan s
  | .inf n => .inf (!n)
  | .fin n m e => .fin (!n) m e

def signed (neg : Bool) (m : Nat) : Int := if neg then -(m : Int) else m

/-- The exact sum of two finite values, at the smaller exponent. -/
def alignAdd (n1 : Bool) (m1 : Nat) (e1 : Int) (n2 : Bool) (m2 : Nat) (e2 : Int) : Int × Int :=
  let e := min e1 e2
  (signed n1 m1 * 2 ^ (e1 - e).toNat + signed n2 m2 * 2 ^ (e2 - e).toNat, e)

/-- Sum of two values. -/
def faddV (a b : FVal) : Word × Bool :=
  match a, b with
  | .nan s, y => (fNaN, s || y.sig)
  | x, .nan s => (fNaN, s || x.sig)
  | .inf n, .inf m => if n = m then (fInf n, false) else (fNaN, true)
  | .inf n, .fin _ _ _ => (fInf n, false)
  | .fin _ _ _, .inf m => (fInf m, false)
  | .fin n1 m1 e1, .fin n2 m2 e2 =>
    if m1 = 0 ∧ m2 = 0 then (fZero (n1 && n2), false)
    else if m1 = 0 then froundInt false (signed n2 m2) e2
    else if m2 = 0 then froundInt false (signed n1 m1) e1
    else
      let r := alignAdd n1 m1 e1 n2 m2 e2
      froundInt false r.1 r.2

def fadd (a b : Word) : Word × Bool := faddV (fdecode a) (fdecode b)
def fsub (a b : Word) : Word × Bool := faddV (fdecode a) (fdecode b).neg

/-- The product of two values that are not NaN: none for an invalid one (0 × infinity). -/
def fmulV (a b : FVal) : Option FVal :=
  match a, b with
  | .inf n, .inf m => some (.inf (n != m))
  | .inf n, .fin m v _ => if v = 0 then none else some (.inf (n != m))
  | .fin n v _, .inf m => if v = 0 then none else some (.inf (n != m))
  | .fin n v e, .fin m w f => some (.fin (n != m) (v * w) (e + f))
  | _, _ => none

def fmul (a b : Word) : Word × Bool :=
  let x := fdecode a
  let y := fdecode b
  if x.isNan || y.isNan then (fNaN, x.sig || y.sig)
  else match fmulV x y with
  | none => (fNaN, true)
  | some (.fin n m e) => if m = 0 then (fZero n, false) else fround n m 1 e false
  | some (.inf n) => (fInf n, false)
  | some (.nan _) => (fNaN, true)

/-- c + a × b with one rounding. -/
def fmadd (c a b : Word) : Word × Bool :=
  let x := fdecode a
  let y := fdecode b
  let z := fdecode c
  if x.isNan || y.isNan || z.isNan then
    (fNaN, x.sig || y.sig || z.sig || (!x.isNan && !y.isNan && (fmulV x y).isNone))
  else match fmulV x y with
  | none => (fNaN, true)
  | some p => faddV z p

def fdiv (a b : Word) : Word × Bool :=
  match fdecode a, fdecode b with
  | .nan s, y => (fNaN, s || y.sig)
  | x, .nan s => (fNaN, s || x.sig)
  | .inf _, .inf _ => (fNaN, true)
  | .inf n, .fin m _ _ => (fInf (n != m), false)
  | .fin n _ _, .inf m => (fZero (n != m), false)
  | .fin n v e, .fin m w f =>
    if w = 0 then (if v = 0 then (fNaN, true) else (fInf (n != m), true))
    else if v = 0 then (fZero (n != m), false)
    else fround (n != m) v w (e - f) false

def fsqrt (a : Word) : Word × Bool :=
  match fdecode a with
  | .nan s => (fNaN, s)
  | .inf n => if n then (fNaN, true) else (fInf false, false)
  | .fin n m e =>
    if m = 0 then (fZero n, false)
    else if n then (fNaN, true)
    else
      -- an even exponent, and enough bits for the root
      let odd := decide (e % 2 ≠ 0)
      let x := (if odd then 2 * m else m) <<< 60
      let e2 := (if odd then e - 1 else e) - 60
      let r := sqrtNat x
      fround false r 1 (e2 / 2) (decide (r * r ≠ x))

/-- How two finite or infinite values compare, on a common scale. -/
def fkey (v : FVal) : Int :=
  match v with
  | .nan _ => 0
  | .inf n => if n then -(2 ^ 300) else 2 ^ 300
  | .fin n m e => if m = 0 then 0 else signed n (m * 2 ^ (e + 150).toNat)

/-- N, Z, C, V of FCMP, and FE: a quiet NaN is taken for no invalid operation, a signalling one for one (R220 does not say: DESIGN CHOICE,
log entry 43). -/
def fcmp (a b : Word) : (Bool × Bool × Bool × Bool) × Bool :=
  let x := fdecode a
  let y := fdecode b
  if x.isNan || y.isNan then ((false, false, true, true), x.sig || y.sig)
  else if fkey x < fkey y then ((true, false, false, false), false)
  else if fkey x = fkey y then ((false, true, true, false), false)
  else ((false, false, true, false), false)

/-- v × 2^e as an integer, to nearest with ties to even. -/
def fToInt (m : Nat) (e : Int) : Nat := if 0 ≤ e then m * 2 ^ e.toNat else rneShift m (-e).toNat false

/-- A float to a signed integer scaled by 2^k, saturated; a NaN gives 0 and FE. -/
def fcvt (k : Int) (a : Word) : Word × Bool :=
  match fdecode a with
  | .nan _ => (0, true)
  | .inf n => (if n then 0x80000000 else 0x7FFFFFFF, false)
  | .fin n m e =>
    -- far beyond the range the exponent alone decides
    if 40 < e + k then (if m = 0 then 0 else if n then 0x80000000 else 0x7FFFFFFF, false)
    else if e + k < -60 then (0, false)
    else ((sat32 (signed n (fToInt m (e + k)))).1, false)

/-- A word as it enters a minimum: a subnormal as zero of its sign, a NaN as the NaN. -/
def fquiet (w : Word) : Word :=
  match fdecode w with
  | .nan _ => fNaN
  | .inf _ => w
  | .fin n m _ => if m = 0 then fZero n else w

/-- FMIN (less = true) and FMAX; where R220 states no order (a NaN, zeros of both signs) the choice is free. -/
def fminmax (less : Bool) (a b : Word) : Word × Bool :=
  let x := fdecode a
  let y := fdecode b
  let free := if Config.fminChoice a b then fquiet a else fquiet b
  if x.isNan || y.isNan then (free, x.sig || y.sig)
  else if fkey x = fkey y then ((if fquiet a = fquiet b then fquiet a else free), false)
  else if decide (fkey x < fkey y) = less then (fquiet a, false)
  else (fquiet b, false)

/-- A sign operation: FABS and FNEG. A subnormal counts as zero, a NaN result is the one NaN, and no operation on the sign alone is
invalid (R220). -/
def fsign (op : Word → Word) (a : Word) : Word × Bool :=
  match fdecode a with
  | .nan _ => (fNaN, false)
  | _ => (if bits a 23 8 = 0 then op (a &&& 0x80000000) else op a, false)

end Sys2Proof.Machine
end

