-- ==== Sys2Proof/Machine/FloatInstr.lean ====
section
/-! DEFINITION. FloatInstr.lean: the float instructions (R220). -/

namespace Sys2Proof.Machine

/-- FADD (R220). -/
def execFadd (c : CoreId) (cc : CC) (a b r : Reg) (s : State) : Host.Outcome State Fault Refusal :=
  .next (s.runInstr c { len := 3 + ccLen cc, ex := 2, cc := cc } (onRegs c (fun k0 k => k.setFloat a (fadd (k0.w b) (k0.w r)))))

/-- FSUB (R220). -/
def execFsub (c : CoreId) (cc : CC) (a b r : Reg) (s : State) : Host.Outcome State Fault Refusal :=
  .next (s.runInstr c { len := 3 + ccLen cc, ex := 2, cc := cc } (onRegs c (fun k0 k => k.setFloat a (fsub (k0.w b) (k0.w r)))))

/-- FMUL (R220). -/
def execFmul (c : CoreId) (cc : CC) (a b r : Reg) (s : State) : Host.Outcome State Fault Refusal :=
  .next (s.runInstr c { len := 3 + ccLen cc, ex := 2, cc := cc } (onRegs c (fun k0 k => k.setFloat a (fmul (k0.w b) (k0.w r)))))

/-- FMADD (R220). -/
def execFmadd (c : CoreId) (cc : CC) (a b r : Reg) (s : State) : Host.Outcome State Fault Refusal :=
  .next (s.runInstr c { len := 3 + ccLen cc, ex := 3, cc := cc } (onRegs c (fun k0 k => k.setFloat a (fmadd (k0.w a) (k0.w b) (k0.w r)))))

/-- FDIV (R220). -/
def execFdiv (c : CoreId) (cc : CC) (a b r : Reg) (s : State) : Host.Outcome State Fault Refusal :=
  .next (s.runInstr c { len := 3 + ccLen cc, ex := 14, cc := cc } (onRegs c (fun k0 k => k.setFloat a (fdiv (k0.w b) (k0.w r)))))

/-- FMIN (R220). -/
def execFmin (c : CoreId) (cc : CC) (a b r : Reg) (s : State) : Host.Outcome State Fault Refusal :=
  .next (s.runInstr c { len := 3 + ccLen cc, ex := 1, cc := cc } (onRegs c (fun k0 k => k.setFloat a (fminmax true (k0.w b) (k0.w r)))))

/-- FMAX (R220). -/
def execFmax (c : CoreId) (cc : CC) (a b r : Reg) (s : State) : Host.Outcome State Fault Refusal :=
  .next (s.runInstr c { len := 3 + ccLen cc, ex := 1, cc := cc } (onRegs c (fun k0 k => k.setFloat a (fminmax false (k0.w b) (k0.w r)))))

/-- FSQRT (R220). -/
def execFsqrt (c : CoreId) (cc : CC) (a b : Reg) (s : State) : Host.Outcome State Fault Refusal :=
  .next (s.runInstr c { len := 3 + ccLen cc, ex := 16, cc := cc } (onRegs c (fun k0 k => k.setFloat a (fsqrt (k0.w b)))))

/-- FCVTF (R220). -/
def execFcvtf (c : CoreId) (cc : CC) (a b : Reg) (s : State) : Host.Outcome State Fault Refusal :=
  .next (s.runInstr c { len := 3 + ccLen cc, ex := 1, cc := cc } (onRegs c (fun k0 k => k.setFloat a (froundInt false (k0.w b).toInt 0))))

/-- FCVTI (R220). -/
def execFcvti (c : CoreId) (cc : CC) (a b : Reg) (s : State) : Host.Outcome State Fault Refusal :=
  .next (s.runInstr c { len := 3 + ccLen cc, ex := 1, cc := cc } (onRegs c (fun k0 k => k.setFloat a (fcvt 0 (k0.w b)))))

/-- FCVTQ (R220). -/
def execFcvtq (c : CoreId) (cc : CC) (a b : Reg) (s : State) : Host.Outcome State Fault Refusal :=
  .next (s.runInstr c { len := 3 + ccLen cc, ex := 1, cc := cc } (onRegs c (fun k0 k => k.setFloat a (fcvt 31 (k0.w b)))))

/-- FCVTFQ (R220). -/
def execFcvtfq (c : CoreId) (cc : CC) (a b : Reg) (s : State) : Host.Outcome State Fault Refusal :=
  .next (s.runInstr c { len := 3 + ccLen cc, ex := 1, cc := cc } (onRegs c (fun k0 k => k.setFloat a (froundInt false (k0.w b).toInt (-31)))))

/-- FABS (R220). -/
def execFabs (c : CoreId) (cc : CC) (a b : Reg) (s : State) : Host.Outcome State Fault Refusal :=
  .next (s.runInstr c { len := 3 + ccLen cc, ex := 1, cc := cc } (onRegs c (fun k0 k => k.setFloat a (fsign (fun w => w &&& 0x7FFFFFFF) (k0.w b)))))

/-- FNEG (R220). -/
def execFneg (c : CoreId) (cc : CC) (a b : Reg) (s : State) : Host.Outcome State Fault Refusal :=
  .next (s.runInstr c { len := 3 + ccLen cc, ex := 1, cc := cc } (onRegs c (fun k0 k => k.setFloat a (fsign (fun w => w ^^^ 0x80000000) (k0.w b)))))

/-- FCMP (R220). -/
def execFcmp (c : CoreId) (cc : CC) (b r : Reg) (s : State) : Host.Outcome State Fault Refusal :=
  .next (s.runInstr c { len := 3 + ccLen cc, ex := 1, cc := cc } (onRegs c (fun k0 k =>
    let f := fcmp (k0.w b) (k0.w r)
    (k.sticky stFE f.2).putFlags f.1)))

end Sys2Proof.Machine
end

