-- ==== Sys2Proof/Machine/Dispatch.lean ====
section
/-! DEFINITION. Dispatch.lean: the meaning of every command of spec/opcode_table.json, one direct call an arm. -/

namespace Sys2Proof.Machine

/-- What a command does to the block (everything but the queue of waiting commands). -/
def exec (i : Instr) (s : State) : Host.Outcome State Fault Refusal :=
  match i with
  | .nop c cc => Sys2Proof.Machine.execNop c cc s
  | .fdone c cc => Sys2Proof.Machine.execFdone c cc s
  | .chkpt c cc => Sys2Proof.Machine.execChkpt c cc s
  | .lbflush c cc => Sys2Proof.Machine.execLbflush c cc s
  | .ret c => Sys2Proof.Machine.execRet c s
  | .retx c => Sys2Proof.Machine.execRetx c s
  | .rspush c => Sys2Proof.Machine.execRspush c s
  | .rspop c => Sys2Proof.Machine.execRspop c s
  | .setlvl c l im => Sys2Proof.Machine.execSetlvl c l im s
  | .gate c n => Sys2Proof.Machine.execGate c n s
  | .waits c n final => Sys2Proof.Machine.execWaits c n final s
  | .push c cc a => Sys2Proof.Machine.execPush c cc a s
  | .pop c cc a => Sys2Proof.Machine.execPop c cc a s
  | .jr c cc a => Sys2Proof.Machine.execJr c cc a s
  | .add c cc a b x => Sys2Proof.Machine.execAdd c cc a b x s
  | .sub c cc a b x => Sys2Proof.Machine.execSub c cc a b x s
  | .and c cc a b x => Sys2Proof.Machine.execAnd c cc a b x s
  | .or c cc a b x => Sys2Proof.Machine.execOr c cc a b x s
  | .xor c cc a b x => Sys2Proof.Machine.execXor c cc a b x s
  | .shl c cc a b x => Sys2Proof.Machine.execShl c cc a b x s
  | .shr c cc a b x => Sys2Proof.Machine.execShr c cc a b x s
  | .sar c cc a b x => Sys2Proof.Machine.execSar c cc a b x s
  | .mul c cc a b x => Sys2Proof.Machine.execMul c cc a b x s
  | .min c cc a b x => Sys2Proof.Machine.execMin c cc a b x s
  | .max c cc a b x => Sys2Proof.Machine.execMax c cc a b x s
  | .cmp c cc b x => Sys2Proof.Machine.execCmp c cc b x s
  | .mulh c cc a b r => Sys2Proof.Machine.execMulh c cc a b r s
  | .mulhu c cc a b r => Sys2Proof.Machine.execMulhu c cc a b r s
  | .div c cc a b r => Sys2Proof.Machine.execDiv c cc a b r s
  | .divu c cc a b r => Sys2Proof.Machine.execDivu c cc a b r s
  | .rem c cc a b r => Sys2Proof.Machine.execRem c cc a b r s
  | .remu c cc a b r => Sys2Proof.Machine.execRemu c cc a b r s
  | .adds c cc a b r => Sys2Proof.Machine.execAdds c cc a b r s
  | .subs c cc a b r => Sys2Proof.Machine.execSubs c cc a b r s
  | .mulq c cc a b r => Sys2Proof.Machine.execMulq c cc a b r s
  | .abs c cc a b => Sys2Proof.Machine.execAbs c cc a b s
  | .clz c cc a b => Sys2Proof.Machine.execClz c cc a b s
  | .sat c cc a b n => Sys2Proof.Machine.execSat c cc a b n s
  | .ror c cc a b r => Sys2Proof.Machine.execRor c cc a b r s
  | .mov c cc a b => Sys2Proof.Machine.execMov c cc a b s
  | .tst c cc b r => Sys2Proof.Machine.execTst c cc b r s
  | .mfs c cc a sr => Sys2Proof.Machine.execMfs c cc a sr s
  | .mts c cc a sr => Sys2Proof.Machine.execMts c cc a sr s
  | .rds c cc a n => Sys2Proof.Machine.execRds c cc a n s
  | .addp c cc a b ia ib => Sys2Proof.Machine.execAddp c cc a b ia ib s
  | .movi c cc a imm => Sys2Proof.Machine.execMovi c cc a imm s
  | .ld c cc a b x sz una => Sys2Proof.Machine.execLd c cc a b x sz una s
  | .st c cc a b x sz una => Sys2Proof.Machine.execSt c cc a b x sz una s
  | .lds c cc a b x sz una => Sys2Proof.Machine.execLds c cc a b x sz una s
  | .atadd c cc a b r imm => Sys2Proof.Machine.execAtadd c cc a b r imm s
  | .atswp c cc a b r imm => Sys2Proof.Machine.execAtswp c cc a b r imm s
  | .j c cc disp => Sys2Proof.Machine.execJ c cc disp s
  | .callr c cc b mask => Sys2Proof.Machine.execCallr c cc b mask s
  | .call c cc disp mask => Sys2Proof.Machine.execCall c cc disp mask s
  | .loop c level len count => Sys2Proof.Machine.execLoop c level len count s
  | .mac c cc acc b r => Sys2Proof.Machine.execMac c cc acc b r s
  | .msu c cc acc b r => Sys2Proof.Machine.execMsu c cc acc b r s
  | .macq c cc acc b r => Sys2Proof.Machine.execMacq c cc acc b r s
  | .accclr c cc acc => Sys2Proof.Machine.execAccclr c cc acc s
  | .accpt c cc acc b part => Sys2Proof.Machine.execAccpt c cc acc b part s
  | .accrd c cc a acc sh => Sys2Proof.Machine.execAccrd c cc a acc sh s
  | .accgt c cc a acc part => Sys2Proof.Machine.execAccgt c cc a acc part s
  | .fadd c cc a b r => Sys2Proof.Machine.execFadd c cc a b r s
  | .fsub c cc a b r => Sys2Proof.Machine.execFsub c cc a b r s
  | .fmul c cc a b r => Sys2Proof.Machine.execFmul c cc a b r s
  | .fmadd c cc a b r => Sys2Proof.Machine.execFmadd c cc a b r s
  | .fdiv c cc a b r => Sys2Proof.Machine.execFdiv c cc a b r s
  | .fsqrt c cc a b => Sys2Proof.Machine.execFsqrt c cc a b s
  | .fcmp c cc b r => Sys2Proof.Machine.execFcmp c cc b r s
  | .fcvtf c cc a b => Sys2Proof.Machine.execFcvtf c cc a b s
  | .fcvti c cc a b => Sys2Proof.Machine.execFcvti c cc a b s
  | .fcvtq c cc a b => Sys2Proof.Machine.execFcvtq c cc a b s
  | .fcvtfq c cc a b => Sys2Proof.Machine.execFcvtfq c cc a b s
  | .fmin c cc a b r => Sys2Proof.Machine.execFmin c cc a b r s
  | .fmax c cc a b r => Sys2Proof.Machine.execFmax c cc a b r s
  | .fabs c cc a b => Sys2Proof.Machine.execFabs c cc a b s
  | .fneg c cc a b => Sys2Proof.Machine.execFneg c cc a b s
  | .lawpi c cc a b r lc => Sys2Proof.Machine.execLawpi c cc a b r lc s
  | .lawpid c cc a b r lc => Sys2Proof.Machine.execLawpid c cc a b r lc s
  | .clarke c cc a b r lc => Sys2Proof.Machine.execClarke c cc a b r lc s
  | .park c cc a b r lc => Sys2Proof.Machine.execPark c cc a b r lc s
  | .ipark c cc a b r lc => Sys2Proof.Machine.execIpark c cc a b r lc s
  | .sincos c cc a b r lc => Sys2Proof.Machine.execSincos c cc a b r lc s
  | .svpwm c cc a b r lc => Sys2Proof.Machine.execSvpwm c cc a b r lc s
  | .lawfoc c cc a b r lc => Sys2Proof.Machine.execLawfoc c cc a b r lc s
  | .settle c cc a b r lc => Sys2Proof.Machine.execSettle c cc a b r lc s
  | .duty c cc d r => Sys2Proof.Machine.execDuty c cc d r s
  | .dutyc c cc d b r => Sys2Proof.Machine.execDutyc c cc d b r s
  | .adcTrigger n => Sys2Proof.Machine.execAdcTrigger n s
  | .holdEdge n => Sys2Proof.Machine.execHoldEdge n s
  | .gapMarkerWrite n => Sys2Proof.Machine.execGapMarkerWrite n s
  | .calibrationDue n => Sys2Proof.Machine.execCalibrationDue n s
  | .calibrationServiceStart g => Sys2Proof.Machine.execCalibrationServiceStart g s
  | .crossCheckComplete g => Sys2Proof.Machine.execCrossCheckComplete g s
  | .calibrationEnd g => Sys2Proof.Machine.execCalibrationEnd g s
  | .reliefSelfCalibrationEnd g => Sys2Proof.Machine.execReliefSelfCalibrationEnd g s
  | .inPlaceCalibrationEnd n => Sys2Proof.Machine.execInPlaceCalibrationEnd n s
  | .decimatorOutput g => Sys2Proof.Machine.execDecimatorOutput g s
  | .sdSync g => Sys2Proof.Machine.execSdSync g s
  | .decimatorStall g => Sys2Proof.Machine.execDecimatorStall g s
  | .decimatorStuck g => Sys2Proof.Machine.execDecimatorStuck g s
  | .armPointReached n => Sys2Proof.Machine.execArmPointReached n s
  | .holdOffEnd n => Sys2Proof.Machine.execHoldOffEnd n s
  | .zeroEvent n => Sys2Proof.Machine.execZeroEvent n s
  | .compareMatch n cmpB => Sys2Proof.Machine.execCompareMatch n cmpB s
  | .tripEntry n => Sys2Proof.Machine.execTripEntry n s
  | .deadTimeExpiry n pinB => Sys2Proof.Machine.execDeadTimeExpiry n pinB s
  | .syncEvent t => Sys2Proof.Machine.execSyncEvent t s
  | .gtZero n => Sys2Proof.Machine.execGtZero n s
  | .gtCompareMatch n imm => Sys2Proof.Machine.execGtCompareMatch n imm s
  | .gtCapture n imm => Sys2Proof.Machine.execGtCapture n imm s
  | .ts64Wrap => Sys2Proof.Machine.execTs64Wrap s
  | .tick => Sys2Proof.Machine.execTick s
  | .pllLock => Sys2Proof.Machine.execPllLock s
  | .referenceFail => Sys2Proof.Machine.execReferenceFail s
  | .swapCheckComplete => Sys2Proof.Machine.execSwapCheckComplete s
  | .swapExchange => Sys2Proof.Machine.execSwapExchange s
  | .tickLost => Sys2Proof.Machine.execTickLost s
  | .stateCopyEnd k => Sys2Proof.Machine.execStateCopyEnd k s
  | .pairedModeEntry k => Sys2Proof.Machine.execPairedModeEntry k s
  | .splitReturn k => Sys2Proof.Machine.execSplitReturn k s
  | .checkpointCompare k => Sys2Proof.Machine.execCheckpointCompare k s
  | .sluiceTimeout k => Sys2Proof.Machine.execSluiceTimeout k s
  | .pairResume k => Sys2Proof.Machine.execPairResume k s
  | .transientWindowExpiry k => Sys2Proof.Machine.execTransientWindowExpiry k s
  | .cellOutputChange n => Sys2Proof.Machine.execCellOutputChange n s
  | .dmaRequest n => Sys2Proof.Machine.execDmaRequest n s
  | .dmaElement n => Sys2Proof.Machine.execDmaElement n s
  | .dmaStarve n bank => Sys2Proof.Machine.execDmaStarve n bank s
  | .writeBackForced bank => Sys2Proof.Machine.execWriteBackForced bank s
  | .spargeRegionStart t => Sys2Proof.Machine.execSpargeRegionStart t s
  | .flashResume b => Sys2Proof.Machine.execFlashResume b s
  | .backgroundEraseStart => Sys2Proof.Machine.execBackgroundEraseStart s
  | .peSet g e => Sys2Proof.Machine.execPeSet g e s
  | .peOut g e => Sys2Proof.Machine.execPeOut g e s
  | .peIn g e => Sys2Proof.Machine.execPeIn g e s
  | .pePush g e => Sys2Proof.Machine.execPePush g e s
  | .pePull g e => Sys2Proof.Machine.execPePull g e s
  | .peMov g e => Sys2Proof.Machine.execPeMov g e s
  | .peWait g e => Sys2Proof.Machine.execPeWait g e s
  | .peJmp g e => Sys2Proof.Machine.execPeJmp g e s
  | .peFlag g e => Sys2Proof.Machine.execPeFlag g e s
  | .peEvt g e => Sys2Proof.Machine.execPeEvt g e s
  | .hello h p => Sys2Proof.Machine.execHello h p s
  | .bye h p => Sys2Proof.Machine.execBye h p s
  | .ping h p => Sys2Proof.Machine.execPing h p s
  | .job h p => Sys2Proof.Machine.execJob h p s
  | .batch h p => Sys2Proof.Machine.execBatch h p s
  | .getMode h p => Sys2Proof.Machine.execGetMode h p s
  | .setMode h p => Sys2Proof.Machine.execSetMode h p s
  | .release h p => Sys2Proof.Machine.execRelease h p s
  | .fireHev h p => Sys2Proof.Machine.execFireHev h p s
  | .setLoad h p => Sys2Proof.Machine.execSetLoad h p s
  | .setWrite h p => Sys2Proof.Machine.execSetWrite h p s
  | .setRead h p => Sys2Proof.Machine.execSetRead h p s
  | .swapSet h p => Sys2Proof.Machine.execSwapSet h p s
  | .swapCancel h p => Sys2Proof.Machine.execSwapCancel h p s
  | .swapStatus h p => Sys2Proof.Machine.execSwapStatus h p s
  | .setCopy h p => Sys2Proof.Machine.execSetCopy h p s
  | .coreHalt h p => Sys2Proof.Machine.execCoreHalt h p s
  | .coreStart h p => Sys2Proof.Machine.execCoreStart h p s
  | .coreLoad h p => Sys2Proof.Machine.execCoreLoad h p s
  | .pairMode h p => Sys2Proof.Machine.execPairMode h p s
  | .readmit h p => Sys2Proof.Machine.execReadmit h p s
  | .peLoad h p => Sys2Proof.Machine.execPeLoad h p s
  | .imageInfo h p => Sys2Proof.Machine.execImageInfo h p s
  | .readBlock h p => Sys2Proof.Machine.execReadBlock h p s
  | .subscribe h p => Sys2Proof.Machine.execSubscribe h p s
  | .unsubscribe h p => Sys2Proof.Machine.execUnsubscribe h p s
  | .flProgram h p => Sys2Proof.Machine.execFlProgram h p s
  | .flErase h p => Sys2Proof.Machine.execFlErase h p s
  | .flLogErase h p => Sys2Proof.Machine.execFlLogErase h p s
  | .flBlank h p => Sys2Proof.Machine.execFlBlank h p s
  | .flRead h p => Sys2Proof.Machine.execFlRead h p s
  | .flProt h p => Sys2Proof.Machine.execFlProt h p s
  | .dfHealth h p => Sys2Proof.Machine.execDfHealth h p s
  | .otpRead h p => Sys2Proof.Machine.execOtpRead h p s
  | .burnGen h p => Sys2Proof.Machine.execBurnGen h p s
  | .revoke h p => Sys2Proof.Machine.execRevoke h p s
  | .otpStatus h p => Sys2Proof.Machine.execOtpStatus h p s
  | .calReq h p => Sys2Proof.Machine.execCalReq h p s
  | .spargeReq h p => Sys2Proof.Machine.execSpargeReq h p s
  | .linkStatus h p => Sys2Proof.Machine.execLinkStatus h p s
  | .linkRetrain h p => Sys2Proof.Machine.execLinkRetrain h p s
  | .linkUnquarantine h p => Sys2Proof.Machine.execLinkUnquarantine h p s
  | .diagRead h p => Sys2Proof.Machine.execDiagRead h p s
  | .diagClear h p => Sys2Proof.Machine.execDiagClear h p s
  | .regRead h p => Sys2Proof.Machine.execRegRead h p s
  | .regWrite h p => Sys2Proof.Machine.execRegWrite h p s
  | .regModify h p => Sys2Proof.Machine.execRegModify h p s
  | .dbgHalt h p => Sys2Proof.Machine.execDbgHalt h p s
  | .dbgResume h p => Sys2Proof.Machine.execDbgResume h p s
  | .dbgRead h p => Sys2Proof.Machine.execDbgRead h p s
  | .dbgWrite h p => Sys2Proof.Machine.execDbgWrite h p s
  | .dbgBreak h p => Sys2Proof.Machine.execDbgBreak h p s
  | .dbgStep h p => Sys2Proof.Machine.execDbgStep h p s
  | .spargeFast h mask => Sys2Proof.Machine.execSpargeFast h mask s
  | .cal h mask => Sys2Proof.Machine.execCal h mask s
  | .flashMargin h mask => Sys2Proof.Machine.execFlashMargin h mask s
  | .otpVerify h mask => Sys2Proof.Machine.execOtpVerify h mask s
  | .cmpSweep h mask => Sys2Proof.Machine.execCmpSweep h mask s
  | .coreBist h mask => Sys2Proof.Machine.execCoreBist h mask s
  | .adcLinearity h mask => Sys2Proof.Machine.execAdcLinearity h mask s
  | .linkLoopback h mask => Sys2Proof.Machine.execLinkLoopback h mask s
  | .eccPattern h mask => Sys2Proof.Machine.execEccPattern h mask s
  | .pwmLoopback h mask => Sys2Proof.Machine.execPwmLoopback h mask s
  | .sessionTimeout n => Sys2Proof.Machine.execSessionTimeout n s
  | .assemblyTimeout => Sys2Proof.Machine.execAssemblyTimeout s
  | .subscriptionNotify id => Sys2Proof.Machine.execSubscriptionNotify id s
  | .flitTransmit n => Sys2Proof.Machine.execFlitTransmit n s
  | .flitResend n => Sys2Proof.Machine.execFlitResend n s
  | .trainingTimeout n => Sys2Proof.Machine.execTrainingTimeout n s
  | .trainingRetry n => Sys2Proof.Machine.execTrainingRetry n s
  | .memrd n r side => Sys2Proof.Machine.execMemrd n r side s
  | .memwr n r side => Sys2Proof.Machine.execMemwr n r side s
  | .memrsp n tag data status => Sys2Proof.Machine.execMemrsp n tag data status s
  | .busy n tag => Sys2Proof.Machine.execBusy n tag s
  | .remoteAccessTimeout tag => Sys2Proof.Machine.execRemoteAccessTimeout tag s
  | .partnerSlow n => Sys2Proof.Machine.execPartnerSlow n s
  | .errorLimitBreach n => Sys2Proof.Machine.execErrorLimitBreach n s
  | .frameTransmitComplete r => Sys2Proof.Machine.execFrameTransmitComplete r s
  | .busOffRecovery c => Sys2Proof.Machine.execBusOffRecovery c s
  | .uartRxTimeout u => Sys2Proof.Machine.execUartRxTimeout u s
  | .domainReady d => Sys2Proof.Machine.execDomainReady d s
  | .powerOnReset => Sys2Proof.Machine.execPowerOnReset s
  | .alwaysOnSupplyReset => Sys2Proof.Machine.execAlwaysOnSupplyReset s
  | .pinReset => Sys2Proof.Machine.execPinReset s
  | .bootEnd => Sys2Proof.Machine.execBootEnd s
  | .sharedSupplyLow => Sys2Proof.Machine.execSharedSupplyLow s
  | .bypass => Sys2Proof.Machine.execBypass s
  | .idcode => Sys2Proof.Machine.execIdcode s
  | .clamp => Sys2Proof.Machine.execClamp s
  | .protectionLoweringReset => Sys2Proof.Machine.execProtectionLoweringReset s
  | .sharedSupplyRestored => Sys2Proof.Machine.execSharedSupplyRestored s
  | .uartByteSent u => Sys2Proof.Machine.execUartByteSent u s
  | .waitsWake c => Sys2Proof.Machine.execWaitsWake c s
  | .interruptEntry c abandon => Sys2Proof.Machine.execInterruptEntry c abandon s
  | .setpend c m v => Sys2Proof.Machine.execSetpend c m v s
  | .clrpend c m v => Sys2Proof.Machine.execClrpend c m v s
  | .wcLock c service => Sys2Proof.Machine.execWcLock c service s
  | .lbCtlFlush c => Sys2Proof.Machine.execLbCtlFlush c s
  | .lbCtlEn c en => Sys2Proof.Machine.execLbCtlEn c en s
  | .sbindWrite m n k v => Sys2Proof.Machine.execSbindWrite m n k v s
  | .dbindWrite m n j v => Sys2Proof.Machine.execDbindWrite m n j v s
  | .earlyResult n v => Sys2Proof.Machine.execEarlyResult n v s
  | .finalResult n v relief => Sys2Proof.Machine.execFinalResult n v relief s
  | .adcQDataRead m n => Sys2Proof.Machine.execAdcQDataRead m n s
  | .adcQFlush m n => Sys2Proof.Machine.execAdcQFlush m n s
  | .adcCtlWrite m n v => Sys2Proof.Machine.execAdcCtlWrite m n v s
  | .calReqAdc m n => Sys2Proof.Machine.execCalReqAdc m n s
  | .calReqRla m => Sys2Proof.Machine.execCalReqRla m s
  | .calReqRlb m => Sys2Proof.Machine.execCalReqRlb m s
  | .latchSet n out => Sys2Proof.Machine.execLatchSet n out s
  | .latchClear m n => Sys2Proof.Machine.execLatchClear m n s
  | .latchSumClear m v => Sys2Proof.Machine.execLatchSumClear m v s
  | .reloadWrite m n v => Sys2Proof.Machine.execReloadWrite m n v s
  | .shadowWrite m n cmpB v => Sys2Proof.Machine.execShadowWrite m n cmpB v s
  | .holdWrite m n hold => Sys2Proof.Machine.execHoldWrite m n hold s
  | .loadph m n => Sys2Proof.Machine.execLoadph m n s
  | .untrip m n => Sys2Proof.Machine.execUntrip m n s
  | .gtCcrRead m n imm => Sys2Proof.Machine.execGtCcrRead m n imm s
  | .lowWordRead m w => Sys2Proof.Machine.execLowWordRead m w s
  | .cascadeLowWrite m w v => Sys2Proof.Machine.execCascadeLowWrite m w v s
  | .gtLoadph m n => Sys2Proof.Machine.execGtLoadph m n s
  | .frameCtlWrite m v => Sys2Proof.Machine.execFrameCtlWrite m v s
  | .referenceSwitch m v => Sys2Proof.Machine.execReferenceSwitch m v s
  | .swapArm m => Sys2Proof.Machine.execSwapArm m s
  | .swapCtlCancel m => Sys2Proof.Machine.execSwapCtlCancel m s
  | .tickMarker link num period lat => Sys2Proof.Machine.execTickMarker link num period lat s
  | .pairModeWrite m k v => Sys2Proof.Machine.execPairModeWrite m k v s
  | .triageEnd k mainPass chkPass => Sys2Proof.Machine.execTriageEnd k mainPass chkPass s
  | .rmReadmitGo m n => Sys2Proof.Machine.execRmReadmitGo m n s
  | .chFire m ch => Sys2Proof.Machine.execChFire m ch s
  | .chRearm m ch => Sys2Proof.Machine.execChRearm m ch s
  | .evcntClear m n => Sys2Proof.Machine.execEvcntClear m n s
  | .softwareFire m t => Sys2Proof.Machine.execSoftwareFire m t s
  | .dmaGo m n start => Sys2Proof.Machine.execDmaGo m n start s
  | .dmaStop m n => Sys2Proof.Machine.execDmaStop m n s
  | .eccWriteBack bank persists => Sys2Proof.Machine.execEccWriteBack bank persists s
  | .spargeRegionEnd t failing => Sys2Proof.Machine.execSpargeRegionEnd t failing s
  | .spgReqGo m v => Sys2Proof.Machine.execSpgReqGo m v s
  | .program m b => Sys2Proof.Machine.execProgram m b s
  | .eraseSector m b => Sys2Proof.Machine.execEraseSector m b s
  | .blankCheck m b => Sys2Proof.Machine.execBlankCheck m b s
  | .logErase m b => Sys2Proof.Machine.execLogErase m b s
  | .flashOperationComplete b r => Sys2Proof.Machine.execFlashOperationComplete b r s
  | .suspendPoint b readsWaiting => Sys2Proof.Machine.execSuspendPoint b readsWaiting s
  | .backgroundEraseComplete r => Sys2Proof.Machine.execBackgroundEraseComplete r s
  | .flProtSet m level => Sys2Proof.Machine.execFlProtSet m level s
  | .otpCmdBurnGen m keyArea => Sys2Proof.Machine.execOtpCmdBurnGen m keyArea s
  | .otpCmdRevoke m keyArea gen => Sys2Proof.Machine.execOtpCmdRevoke m keyArea gen s
  | .otpCommandComplete verified => Sys2Proof.Machine.execOtpCommandComplete verified s
  | .pgGo m g mask => Sys2Proof.Machine.execPgGo m g mask s
  | .pgStop m g mask => Sys2Proof.Machine.execPgStop m g mask s
  | .pgClear m g mask => Sys2Proof.Machine.execPgClear m g mask s
  | .pgRestart m g mask => Sys2Proof.Machine.execPgRestart m g mask s
  | .flagSetWrite m g mask => Sys2Proof.Machine.execFlagSetWrite m g mask s
  | .flagClrWrite m g mask => Sys2Proof.Machine.execFlagClrWrite m g mask s
  | .engTxWrite m g e v => Sys2Proof.Machine.execEngTxWrite m g e v s
  | .engRxRead m g e => Sys2Proof.Machine.execEngRxRead m g e s
  | .programStoreWrite m g t v => Sys2Proof.Machine.execProgramStoreWrite m g t v s
  | .packetReceive via pkt => Sys2Proof.Machine.execPacketReceive via pkt s
  | .selfTestComplete job passed failed => Sys2Proof.Machine.execSelfTestComplete job passed failed s
  | .jobComplete job status result => Sys2Proof.Machine.execJobComplete job status result s
  | .flitReceive n flit => Sys2Proof.Machine.execFlitReceive n flit s
  | .trainingComplete n gen lat => Sys2Proof.Machine.execTrainingComplete n gen lat s
  | .laneLockLost n => Sys2Proof.Machine.execLaneLockLost n s
  | .numberAnnounce n msg => Sys2Proof.Machine.execNumberAnnounce n msg s
  | .retrain m n => Sys2Proof.Machine.execRetrain m n s
  | .oztxGo m n addr len => Sys2Proof.Machine.execOztxGo m n addr len s
  | .ethFrameReceive p frame => Sys2Proof.Machine.execEthFrameReceive p frame s
  | .txgo m r => Sys2Proof.Machine.execTxgo m r s
  | .canFrameReceive c f => Sys2Proof.Machine.execCanFrameReceive c f s
  | .recover m c => Sys2Proof.Machine.execRecover m c s
  | .uartReceive u b perr ferr => Sys2Proof.Machine.execUartReceive u b perr ferr s
  | .uartTxWrite m u b => Sys2Proof.Machine.execUartTxWrite m u b s
  | .uartDataRead m u => Sys2Proof.Machine.execUartDataRead m u s
  | .spihWriteTransfer mode3 bytes => Sys2Proof.Machine.execSpihWriteTransfer mode3 bytes s
  | .spihReadTransfer mode3 => Sys2Proof.Machine.execSpihReadTransfer mode3 s
  | .modeRequest m req => Sys2Proof.Machine.execModeRequest m req s
  | .temperatureMeasurement t => Sys2Proof.Machine.execTemperatureMeasurement t s
  | .scRestartComplete selfTestPass digestOk => Sys2Proof.Machine.execScRestartComplete selfTestPass digestOk s
  | .powerDomainOn m d => Sys2Proof.Machine.execPowerDomainOn m d s
  | .powerDomainOff m d => Sys2Proof.Machine.execPowerDomainOff m d s
  | .switchFault d => Sys2Proof.Machine.execSwitchFault d s
  | .startupSelfTestComplete n pass => Sys2Proof.Machine.execStartupSelfTestComplete n pass s
  | .softwareReset m key => Sys2Proof.Machine.execSoftwareReset m key s
  | .powerGood f => Sys2Proof.Machine.execPowerGood f s
  | .wake w => Sys2Proof.Machine.execWake w s
  | .droopStepDown k half => Sys2Proof.Machine.execDroopStepDown k half s
  | .droopRestore k => Sys2Proof.Machine.execDroopRestore k s
  | .halt c => Sys2Proof.Machine.execHalt c s
  | .resume c => Sys2Proof.Machine.execResume c s
  | .step c => Sys2Proof.Machine.execStep c s
  | .dbgaccRead c sp addr => Sys2Proof.Machine.execDbgaccRead c sp addr s
  | .dbgaccWrite c sp addr v => Sys2Proof.Machine.execDbgaccWrite c sp addr v s
  | .samplePreload chain => Sys2Proof.Machine.execSamplePreload chain s
  | .extest chain => Sys2Proof.Machine.execExtest chain s
  | .registerWrite m addr v => Sys2Proof.Machine.execRegisterWrite m addr v s
  | .canProtocolError c e transmitting => Sys2Proof.Machine.execCanProtocolError c e transmitting s
  | .pioPinChange p high => Sys2Proof.Machine.execPioPinChange p high s

end Sys2Proof.Machine
end

