-- ==== Sys2Proof/Safety.lean ====
section
/-! DEFINITION. Safety.lean: the terms in which claims speak of safe runs: a step that answers a next state, the canonical forms of
what State stores, what a one-time memory may never lose, when a core executes an instruction undisturbed, and what it then keeps. -/

namespace Sys2Proof.Machine

/-- The step goes on: neither a fault nor a refusal. -/
def State.goesOn (s : State) : Prop := ∃ t, step s = .next t

/-- Everything stored sparsely is in its canonical form, so that equal contents are equal data. -/
def State.canonical (s : State) : Bool :=
  Memory.wf s.mem && swf resetOf s.regs && swf (fun _ => 0) s.hwSet && swf setReset s.active && swf setReset s.shadow &&
  swf (fun _ => 0xFF) s.flash && swf (fun _ => 0) s.otp

/-- Every OTP bit of s is also programmed in t (R368: OTP bits go from 0 to 1 only). -/
def State.otpKept (s t : State) : Prop := ∀ a b, (sget 0 s.otp a).getLsbD b = true → (sget 0 t.otp a).getLsbD b = true

/-- What the outside sees of a PWM pin that the safe-hold condition of R145 commands. -/
def State.pinsHeld (s : State) : Prop := ∀ p, p < 96 → s.pinSafe p = true

/-! ## A core that executes -/

/-- Core c executes the next instruction, of len bytes, with nothing else in its way: its domain is on, it runs, it belongs to no
pair in a paired mode, no debugger stops it, no performance counter is enabled, no ECC error stands, its loop buffer captures nothing,
and the fetch words lie in executable local memory (R179, R251), so that no fault stands from a prefetch. -/
structure State.runs (s : State) (c : CoreId) (len : Nat) : Prop where
  on : s.domReady c = true
  run : (s.core c).run = .running
  solo : s.role c = .solo
  stepping : (s.core c).stepping = false
  halt : (s.core c).haltReq = false
  bp : s.bpHits c (s.core c).pc = 0
  pm : s.pmSel = []
  ecc : s.ecc = []
  lb : (s.core c).lbBase = none
  pre : (s.core c).prefetched = false ∨ (s.core c).preFault = none
  fetch : ∀ w ∈ fetchWords (s.core c).pc.toNat len, max (s.core c).pc.toNat w < localSize ∧
    s.rgnAllows c (s.core c).world (s.core c).lvl .exec (max (s.core c).pc.toNat w) = true

/-- The registers as instructions see them once the load shadow has been written (R203). -/
def State.regsOf (s : State) (c : CoreId) : CoreState := (s.core c).commitShadow

/-- A core has no loop level active, so that execution is in sequence. -/
def CoreState.noLoop (k : CoreState) : Prop := k.lc[0] = 0 ∧ k.lc[1] = 0

/-- What no register-only instruction of a core touches: the stack pointers of other worlds and levels, the bounds of the loops,
samples, staged duties, the return stack, the crossing records, the wait and halt state (R197, R212, R227, R233, R264). -/
def CoreState.keeps (k K : CoreState) : Prop :=
  (∀ i, i ≠ spIdx k.world k.lvl → K.sp[i] = k.sp[i]) ∧ K.ls = k.ls ∧ K.le = k.le ∧ K.susp = k.susp ∧ K.smp = k.smp ∧ K.newE = k.newE ∧ K.newF = k.newF ∧ K.duty = k.duty ∧ K.rstack = k.rstack ∧ K.cross = k.cross ∧
  K.run = k.run ∧ K.haltReq = k.haltReq ∧ K.stepping = k.stepping ∧ K.vecs = k.vecs

/-- Core K differs from k in register a, which holds v (writes to w0 are discarded, R197); every other general register, every
stack pointer that a does not name, the accumulators and ST are as in k, and so is all that `keeps` names. In a core without an
active loop the pc is the address of the next instruction, n. -/
def CoreState.wrote (k K : CoreState) (a : Reg) (v n : Word) : Prop :=
  (∀ r, K.w r = if r = a ∧ a ≠ 0 then v else k.w r) ∧ K.st = k.st ∧ K.acc = k.acc ∧ k.keeps K ∧ (k.noLoop → K.pc = n)

/-- As `wrote`, with a sticky flag of ST (Q or FE) set where b holds and every other bit of ST unchanged. -/
def CoreState.wroteFlag (k K : CoreState) (a : Reg) (v : Word) (flag : Nat) (b : Bool) (n : Word) : Prop :=
  (∀ r, K.w r = if r = a ∧ a ≠ 0 then v else k.w r) ∧ K.st = (if b then setBit k.st flag true else k.st) ∧ K.acc = k.acc ∧
  k.keeps K ∧ (k.noLoop → K.pc = n)

/-- Core K has the general registers of k, and the accumulators but for number i, which holds v. -/
def CoreState.wroteAcc (k K : CoreState) (i : Fin 4) (v : BitVec 72) (n : Word) : Prop :=
  (∀ r, K.w r = k.w r) ∧ K.st = k.st ∧ K.acc = k.acc.set i v ∧ k.keeps K ∧ (k.noLoop → K.pc = n)

/-- Core K has the registers and accumulators of k, and the status word st. -/
def CoreState.wroteSt (k K : CoreState) (st n : Word) : Prop :=
  (∀ r, K.w r = k.w r) ∧ K.st = st ∧ K.acc = k.acc ∧ k.keeps K ∧ (k.noLoop → K.pc = n)

/-- Running i on s, core c alone changes: it becomes a core of which P holds. -/
def OnlyCore (i : Instr) (s : State) (c : CoreId) (P : CoreState → Prop) : Prop :=
  ∃ K, exec i s = .next (s.setCore c K) ∧ P K

/-! ## Commands in general -/

/-- Command i completes on s, in a state of which P holds. -/
def Does (i : Instr) (s : State) (P : State → Prop) : Prop := ∃ t, exec i s = .next t ∧ P t

/-- Master m makes an access of registers as x: it is one that reaches them (R37), its core is not fenced (R296) and belongs to no pair
in a paired mode, where it is the debug port, the port is open (R366, R486), it is the first to write in its cycle (R9), and the region
descriptors of a core and of SC grant it the registers at the addresses `as` (R250, R251). -/
def State.enters (s : State) (m : Master) (write : Bool) (x : Ctx) (as : List Nat) : Prop :=
  s.ctxMaster m = some x ∧ s.fenced x.id = false ∧ (m = .debug → s.debugShut write = false) ∧
  (x.id < 36 → s.role (coreId x.id) = .solo) ∧ s.wrote = [] ∧
  ∀ a ∈ as, s.ownGrants x (if write then .write else .read) a = true

/-- t keeps every register of s but those listed. -/
def State.regsBut (s t : State) (l : List Nat) : Prop := ∀ k, k ∉ l → t.rg k = s.rg k

/-- An access changed registers only, beside its answer and the record of the writes of the cycle (R9). -/
def State.regsOnly (s t : State) : Prop := t = { s with regs := t.regs, wrote := t.wrote, resp := t.resp }

/-! ## The command engine (chapter 15) -/

/-- The engine serves and is idle (R393, R405), the session that h names is open on h's transport as y, and a request with opcode op
and payload p passes those of steps 10 to 13 of Table 74 that the opcode's row alone decides. -/
structure State.serves (s : State) (h : ReqHdr) (y : Session) (op : Nat) (p : List Byte) : Prop where
  on : s.ozOn = true
  idle : s.oz.wait = none
  none_ : s.oz.queue = []
  level : s.oz.lower = none
  sess : s.sessOn h.via h.session = some y
  check : s.opCheck y.gen y.auth op p = none

/-- The reply to the request h in session y has been handed to its transport: opcode, status and payload, the credits left, and the
session's tag (R396, R403). -/
def State.replied (t : State) (h : ReqHdr) (y : Session) (op st : Nat) (pay : List Byte) : Prop :=
  let pkt := mkPacket y.gen 1 h.session h.seq op st (y.limit - y.open_) pay y.key
  match h.via with
  | .spih => (h.session, pkt) ∈ t.oz.spih
  | _ => (h.via, pkt) ∈ t.oz.sent

end Sys2Proof.Machine
end

