-- ==== Sys2Proof/Certificates/Slice0/Obligations.lean ====
section
/-! DEFINITION. Obligations.lean: the statements of this model, for the provers. A statement about one core's instruction is made of a
core that executes undisturbed (State.runs); the words `wrote`, `wroteFlag`, `wroteAcc`, `wroteSt` and `OnlyCore` of Safety.lean say
what it may change. -/

open Sys2Proof Sys2Proof.Machine

/-! ## Step and reset -/

/-- A step takes the command at the front of the queue and runs it with the rest of the queue in place; with an empty queue it is one
edge of the timebase, the model's own choice (log entry 1). -/
def Obligations.StepRunsTheFrontCommand : Prop :=
  (∀ (c : Instr) (rest : List Instr) (s : State), step { s with pending := c :: rest } = exec c { s with pending := rest }) ∧
  (∀ s : State, s.pending = [] → step s = .next s.edge) ∧
  (∀ s : State, s.pending = [] → s.mode = 0 → step s = .next { s with now := s.now + 1 })

/-- R197, R443, R486 and the reset columns of the register tables: what reset leaves. -/
def Obligations.ResetLeavesTheStatedValues : Prop :=
  State.reset.mode = 1 ∧
  (∀ c : CoreId, (State.reset.core c).run = .halted) ∧
  (∀ c : CoreId, (State.reset.core c).st = if c = 36 then 0x00003F00 else 0x00001F00) ∧
  (∀ (c : CoreId) (r : Reg), r ≠ 31 → (State.reset.core c).w r = 0) ∧
  (∀ (c : CoreId) (i : Fin 4), (State.reset.core c).sp[i] = 0x0002FF80 ∧ (State.reset.core c).acc[i] = 0) ∧
  (∀ c : CoreId, (State.reset.core c).rstack = []) ∧
  (∀ (d : Nat), d < 85 → State.reset.domReady d = true) ∧
  (∀ (c : CoreId) (l : Fin 2), (State.reset.core c).lc[l] = 0 ∧ (State.reset.core c).susp = 0) ∧
  (∀ k, State.reset.rg k = resetOf k) ∧ State.reset.ts64 = 0 ∧
  State.reset.fld rFrameCtl 0 23 = 40000 ∧ State.reset.pending = [] ∧ State.reset.canonical = true

/-! ## Integer, float and accumulator instructions (chapter 7) -/

/-- R207 (Tables 37 to 40): the integer and move instructions complete, write their result to register a and nothing else. Operands
are read before the load shadow is written (R203), a write to w0 is discarded and w31 is the current stack pointer (R197). -/
def Obligations.IntegerResultIsWritten : Prop :=
  ∀ (s : State) (c : CoreId) (cc : CC) (a b r : Reg) (x : Src) (y : ShAmt) (i : Imm) (sr : Fin 32),
    ccHolds (s.core c) cc = true →
    let k := s.core c
    let R := fun (j : Instr) (len : Nat) (v : Word) =>
      s.runs c len → OnlyCore j s c (fun K => (s.regsOf c).wrote K a v (k.pc + BitVec.ofNat 32 len))
    let n := srcLen x + ccLen cc
    let m := shLen y + ccLen cc
    let l := 3 + ccLen cc
    R (.add c cc a b x) n (k.w b + srcS k x) ∧
    R (.sub c cc a b x) n (k.w b - srcS k x) ∧
    R (.and c cc a b x) n (k.w b &&& srcZ k x) ∧
    R (.or c cc a b x) n (k.w b ||| srcZ k x) ∧
    R (.xor c cc a b x) n (k.w b ^^^ srcZ k x) ∧
    R (.mul c cc a b x) n (k.w b * srcS k x) ∧
    R (.min c cc a b x) n (if (k.w b).toInt ≤ (srcS k x).toInt then k.w b else srcS k x) ∧
    R (.max c cc a b x) n (if (srcS k x).toInt ≤ (k.w b).toInt then k.w b else srcS k x) ∧
    R (.shl c cc a b y) m (k.w b <<< shAmt k y) ∧
    R (.shr c cc a b y) m (k.w b >>> shAmt k y) ∧
    R (.sar c cc a b y) m ((k.w b).sshiftRight (shAmt k y)) ∧
    R (.ror c cc a b r) l ((k.w b).rotateRight ((k.w r).toNat % 32)) ∧
    R (.mulh c cc a b r) l (BitVec.ofInt 32 ((k.w b).toInt * (k.w r).toInt / 2 ^ 32)) ∧
    R (.mulhu c cc a b r) l (BitVec.ofNat 32 ((k.w b).toNat * (k.w r).toNat / 2 ^ 32)) ∧
    R (.clz c cc a b) l (BitVec.ofNat 32 (leadZeros (k.w b))) ∧
    R (.mov c cc a b) l (k.w b) ∧
    R (.movi c cc a i) (2 + ImmSize.len i.size + ccLen cc) (immS i) ∧
    (sr.val ≤ 8 → R (.mfs c cc a sr) l (k.sysGet sr))

/-- R207 (ADDP): both pointers are read before either is written, each by its own increment; with a = b the increment of b stands
(log entry 17). -/
def Obligations.AddpAdvancesTwoPointers : Prop :=
  ∀ (s : State) (c : CoreId) (cc : CC) (a b : Reg) (ia ib : Byte),
    ccHolds (s.core c) cc = true → s.runs c (5 + ccLen cc) →
    OnlyCore (.addp c cc a b ia ib) s c (fun K =>
      (∀ r, K.w r = if r = 0 then 0 else if r = b then (s.core c).w b + ib.signExtend 32
        else if r = a then (s.core c).w a + ia.signExtend 32 else (s.regsOf c).w r) ∧
      K.st = (s.regsOf c).st ∧ K.acc = (s.regsOf c).acc ∧ (s.regsOf c).keeps K)

/-- R219: the saturating and dividing instructions complete; the result goes to a, and Q is set where it was saturated or the division
met one of its corners. Every other flag is unchanged (R198). -/
def Obligations.SaturatingResultSetsQ : Prop :=
  ∀ (s : State) (c : CoreId) (cc : CC) (a b r : Reg) (n : Fin 32),
    ccHolds (s.core c) cc = true → s.runs c (3 + ccLen cc) →
    let k := s.core c
    let R := fun (j : Instr) (v : Word) (q : Bool) =>
      OnlyCore j s c (fun K => (s.regsOf c).wroteFlag K a v stQ q (k.pc + BitVec.ofNat 32 (3 + ccLen cc)))
    let sat := fun (v : Int) => BitVec.ofInt 32 (if v < -2 ^ 31 then -2 ^ 31 else if 2 ^ 31 - 1 < v then 2 ^ 31 - 1 else v)
    let out := fun (v : Int) => decide (v < -2 ^ 31 ∨ 2 ^ 31 - 1 < v)
    let sum := (k.w b).toInt + (k.w r).toInt
    let diff := (k.w b).toInt - (k.w r).toInt
    R (.adds c cc a b r) (sat sum) (out sum) ∧
    R (.subs c cc a b r) (sat diff) (out diff) ∧
    R (.mulq c cc a b r) (mulQ (k.w b) (k.w r)).1 (mulQ (k.w b) (k.w r)).2 ∧
    R (.abs c cc a b) (if k.w b = 0x80000000 then 0x7FFFFFFF else BitVec.ofInt 32 (k.w b).toInt.natAbs) (decide (k.w b = 0x80000000)) ∧
    R (.sat c cc a b n) (satTo (k.w b) n).1 (satTo (k.w b) n).2 ∧
    R (.div c cc a b r) (divS (k.w b) (k.w r)).1 (divS (k.w b) (k.w r)).2.2 ∧
    R (.rem c cc a b r) (divS (k.w b) (k.w r)).2.1 (divS (k.w b) (k.w r)).2.2 ∧
    R (.divu c cc a b r) (divU (k.w b) (k.w r)).1 (divU (k.w b) (k.w r)).2.2 ∧
    R (.remu c cc a b r) (divU (k.w b) (k.w r)).2.1 (divU (k.w b) (k.w r)).2.2

/-- R198: CMP, TST and FCMP complete and write N, Z, C and V; FCMP also sets FE where an operand is invalid. No register changes. -/
def Obligations.ComparisonsWriteTheFlags : Prop :=
  ∀ (s : State) (c : CoreId) (cc : CC) (b r : Reg) (x : Src),
    ccHolds (s.core c) cc = true →
    let k := s.core c
    let F := fun (st : Word) (n z cy v : Bool) => setBit (setBit (setBit (setBit st stN n) stZ z) stC cy) stV v
    let st0 := (s.regsOf c).st
    (s.runs c (srcLen x + ccLen cc) → OnlyCore (.cmp c cc b x) s c (fun K =>
      let d := k.w b - srcS k x
      (s.regsOf c).wroteSt K (F st0 d.msb (d == 0) (decide ((srcS k x).toNat ≤ (k.w b).toNat))
        (decide (d.toInt ≠ (k.w b).toInt - (srcS k x).toInt))) (k.pc + BitVec.ofNat 32 (srcLen x + ccLen cc)))) ∧
    (s.runs c (3 + ccLen cc) → OnlyCore (.tst c cc b r) s c (fun K =>
      let d := k.w b &&& k.w r
      (s.regsOf c).wroteSt K (F st0 d.msb (d == 0) false false) (k.pc + BitVec.ofNat 32 (3 + ccLen cc)))) ∧
    (s.runs c (3 + ccLen cc) → OnlyCore (.fcmp c cc b r) s c (fun K =>
      let f := fcmp (k.w b) (k.w r)
      (s.regsOf c).wroteSt K (F (if f.2 then setBit st0 stFE true else st0) f.1.1 f.1.2.1 f.1.2.2.1 f.1.2.2.2)
        (k.pc + BitVec.ofNat 32 (3 + ccLen cc))))

/-- R220: the float instructions complete; the result goes to a, and FE is set where the operation was invalid, divided by zero or
overflowed. FMIN and FMAX with NaN or zeros of both signs follow log entry 3. -/
def Obligations.FloatResultSetsFe : Prop :=
  ∀ (s : State) (c : CoreId) (cc : CC) (a b r : Reg),
    ccHolds (s.core c) cc = true → s.runs c (3 + ccLen cc) →
    let k := s.core c
    let R := fun (j : Instr) (v : Word × Bool) =>
      OnlyCore j s c (fun K => (s.regsOf c).wroteFlag K a v.1 stFE v.2 (k.pc + BitVec.ofNat 32 (3 + ccLen cc)))
    R (.fadd c cc a b r) (fadd (k.w b) (k.w r)) ∧ R (.fsub c cc a b r) (fsub (k.w b) (k.w r)) ∧
    R (.fmul c cc a b r) (fmul (k.w b) (k.w r)) ∧ R (.fmadd c cc a b r) (fmadd (k.w a) (k.w b) (k.w r)) ∧
    R (.fdiv c cc a b r) (fdiv (k.w b) (k.w r)) ∧ R (.fsqrt c cc a b) (fsqrt (k.w b)) ∧
    R (.fcvtf c cc a b) (froundInt false (k.w b).toInt 0) ∧ R (.fcvtfq c cc a b) (froundInt false (k.w b).toInt (-31)) ∧
    R (.fcvti c cc a b) (fcvt 0 (k.w b)) ∧ R (.fcvtq c cc a b) (fcvt 31 (k.w b)) ∧
    R (.fmin c cc a b r) (fminmax true (k.w b) (k.w r)) ∧ R (.fmax c cc a b r) (fminmax false (k.w b) (k.w r)) ∧
    R (.fabs c cc a b) (fsign (fun w => w &&& 0x7FFFFFFF) (k.w b)) ∧ R (.fneg c cc a b) (fsign (fun w => w ^^^ 0x80000000) (k.w b))

/-- R221: the accumulator instructions complete. MAC, MSU and MACQ add to 72 bits, which wrap; ACCCLR and ACCPT write the
accumulator; ACCRD and ACCGT read it into a register. -/
def Obligations.AccumulatorsTakeSums : Prop :=
  ∀ (s : State) (c : CoreId) (cc : CC) (i : Fin 4) (a b r : Reg) (n : Fin 32),
    let len := 3 + (if 2 ≤ i.val then 1 else 0) + ccLen cc
    ccHolds (s.core c) cc = true → s.runs c len →
    let k := s.core c
    let pc := k.pc + BitVec.ofNat 32 len
    let p := (k.w b).toInt * (k.w r).toInt
    let A := fun (j : Instr) (v : BitVec 72) => OnlyCore j s c (fun K => (s.regsOf c).wroteAcc K i v pc)
    A (.mac c cc i b r) (k.acc[i] + BitVec.ofInt 72 p) ∧
    A (.msu c cc i b r) (k.acc[i] + BitVec.ofInt 72 (-p)) ∧
    A (.macq c cc i b r) (k.acc[i] + BitVec.ofInt 72 (p * 2)) ∧
    A (.accclr c cc i) 0 ∧
    (n.val ≤ 2 → A (.accpt c cc i b n) (accPut k.acc[i] n (k.w b))) ∧
    (n.val ≤ 2 → OnlyCore (.accgt c cc a i n) s c (fun K => (s.regsOf c).wrote K a (accPart k.acc[i] n) pc)) ∧
    OnlyCore (.accrd c cc a i n) s c (fun K =>
      (s.regsOf c).wroteFlag K a (accRead k.acc[i] (n + 1)).1 stQ (accRead k.acc[i] (n + 1)).2 pc)

/-- R201: an encoding that R200, R213, R221 or R226 does not define takes ILLEGAL_OPCODE at its own address: the part field of ACCPT
and ACCGT above 2, a system register above 8 for MFS and above 6 for MTS, POP of w31, RDS of a sample register above 15. -/
def Obligations.UndefinedFieldsTakeIllegalOpcode : Prop :=
  ∀ (s : State) (c : CoreId) (cc : CC) (i : Fin 4) (a b : Reg) (n : Fin 32),
    let I := fun (j : Instr) (len : Nat) => s.runs c len → ∃ cyc, exec j s = .next (s.instrFault c cyc (faultIllegal (s.core c).pc))
    (2 < n.val → I (.accpt c cc i b n) (3 + (if 2 ≤ i.val then 1 else 0) + ccLen cc)) ∧
    (2 < n.val → I (.accgt c cc a i n) (3 + (if 2 ≤ i.val then 1 else 0) + ccLen cc)) ∧
    (8 < n.val → I (.mfs c cc a n) (3 + ccLen cc)) ∧
    (6 < n.val → I (.mts c cc a n) (3 + ccLen cc)) ∧
    (15 < n.val → I (.rds c cc a n) (3 + ccLen cc)) ∧
    I (.pop c cc 31) (2 + ccLen cc)

/-- R204: a conditional instruction whose condition does not hold completes without any effect but its retirement: no register, flag
or accumulator changes, nor does anything outside the core. -/
def Obligations.FalseConditionHasNoEffect : Prop :=
  ∀ (s : State) (c : CoreId) (cc : CC) (a b r : Reg) (x : Src) (disp : Imm) (sz : MemSize),
    ccHolds (s.core c) cc = false →
    let k := s.core c
    let N := fun (j : Instr) (len : Nat) =>
      s.runs c len → OnlyCore j s c (fun K => (∀ q, K.w q = (s.regsOf c).w q) ∧ K.st = k.st ∧ K.acc = k.acc ∧ (s.regsOf c).keeps K ∧
        ((s.regsOf c).noLoop → K.pc = k.pc + BitVec.ofNat 32 len))
    N (.nop c cc) (1 + ccLen cc) ∧ N (.fdone c cc) (1 + ccLen cc) ∧ N (.add c cc a b x) (srcLen x + ccLen cc) ∧
    N (.cmp c cc b x) (srcLen x + ccLen cc) ∧ N (.div c cc a b r) (3 + ccLen cc) ∧ N (.fadd c cc a b r) (3 + ccLen cc) ∧
    N (.j c cc disp) (1 + ImmSize.len disp.size + ccLen cc) ∧ N (.jr c cc a) (2 + ccLen cc) ∧
    N (.push c cc a) (2 + ccLen cc) ∧
    (dataPrefix sz false + ccLen cc ≤ 3 → N (.st c cc a b x sz false) (srcLen x + dataPrefix sz false + ccLen cc))

/-! ## Loads, stores, atomics (chapter 7) -/

/-- R203, R208, R209: LD, LDS and POP from a core's own local memory complete. The datum, little-endian, goes into the load shadow
(and from there into register a when the next instruction has read its operands); no register but the stack pointer of POP changes,
nor does anything outside the core. LDS sign-extends; the 0xF5 form takes any address. -/
def Obligations.LoadsFillTheShadow : Prop :=
  ∀ (s : State) (c : CoreId) (cc : CC) (a b : Reg) (x : Src) (sz : MemSize) (una : Bool),
    ccHolds (s.core c) cc = true → s.collided = none → (∀ l, s.wpHits c l = 0) →
    let k := s.core c
    let n := sizeBytes sz
    let readable := fun (ea : Nat) => ea + n ≤ localSize ∧ (una = true ∨ ea % n = 0) ∧
      ∀ p ∈ dataParts ea n una, s.rgnAllows c k.world k.lvl .read p.1 = true
    let datum := fun (ea : Nat) => leNat (s.memBytes (locAddr c ea) n)
    let same := fun (K : CoreState) => (∀ q, q ≠ 31 → K.w q = (s.regsOf c).w q) ∧ K.st = k.st ∧ K.acc = k.acc ∧ (s.regsOf c).keeps K
    let ea := (k.w b + srcS k x).toNat
    let len := srcLen x + dataPrefix sz una + ccLen cc
    (dataPrefix sz una + ccLen cc ≤ 3 → ¬(una = true ∧ sz = .byte) → s.runs c len → readable ea →
      OnlyCore (.ld c cc a b x sz una) s c (fun K =>
        K.shadow = some (a, BitVec.ofNat 32 (datum ea)) ∧ K.w 31 = (s.regsOf c).w 31 ∧ same K)) ∧
    (dataPrefix sz una + ccLen cc ≤ 3 → ¬(una = true ∧ sz = .byte) → sz ≠ .word → s.runs c len → readable ea →
      OnlyCore (.lds c cc a b x sz una) s c (fun K =>
        K.shadow = some (a, if (datum ea).testBit (8 * n - 1) then BitVec.ofNat 32 (datum ea + 2 ^ 32 - 2 ^ (8 * n))
          else BitVec.ofNat 32 (datum ea)) ∧ K.w 31 = (s.regsOf c).w 31 ∧ same K)) ∧
    (sz = .word → una = false → a ≠ 31 → s.runs c (2 + ccLen cc) → readable k.curSp.toNat →
      OnlyCore (.pop c cc a) s c (fun K =>
        K.shadow = some (a, BitVec.ofNat 32 (datum k.curSp.toNat)) ∧ K.w 31 = k.curSp + 4 ∧ same K))

/-- R208, R209: ST and PUSH to a core's own local memory complete. The low bytes of the register go to the effective address in
little-endian order; every other byte of memory, every register but the stack pointer of PUSH, and everything outside the core is
unchanged. -/
def Obligations.StoresWriteTheirBytesOnly : Prop :=
  ∀ (s : State) (c : CoreId) (cc : CC) (a b : Reg) (x : Src) (sz : MemSize) (una : Bool),
    ccHolds (s.core c) cc = true → (∀ l, s.wpHits c l = 0) → s.poison = [] →
    let k := s.core c
    let n := sizeBytes sz
    let writable := fun (ea : Nat) => ea + n ≤ localSize ∧ (una = true ∨ ea % n = 0) ∧
      ∀ p ∈ dataParts ea n una, s.rgnAllows c k.world k.lvl .write p.1 = true
    let Stored := fun (j : Instr) (ea : Nat) (sp : Word) => ∃ t, exec j s = .next t ∧
      (∀ d, t.memByte d = if locAddr c ea ≤ d ∧ d < locAddr c ea + n then (k.w a).extractLsb' (8 * (d - locAddr c ea)) 8 else s.memByte d) ∧
      t = { s.setCore c (t.core c) with mem := t.mem, poison := t.poison } ∧
      (∀ q, (t.core c).w q = if q = 31 then sp else (s.regsOf c).w q) ∧ (t.core c).st = k.st ∧ (t.core c).acc = k.acc ∧
      (s.regsOf c).keeps (t.core c)
    let ea := (k.w b + srcS k x).toNat
    (dataPrefix sz una + ccLen cc ≤ 3 → ¬(una = true ∧ sz = .byte) → s.runs c (srcLen x + dataPrefix sz una + ccLen cc) →
      writable ea → Stored (.st c cc a b x sz una) ea ((s.regsOf c).w 31)) ∧
    (sz = .word → una = false → s.runs c (2 + ccLen cc) → writable (k.curSp - 4).toNat →
      (s.rg (rSplim c k.world k.lvl)).toNat ≤ (k.curSp - 4).toNat →
      Stored (.push c cc a) (k.curSp - 4).toNat (k.curSp - 4))

/-- R208, Table 48: a load or store that is not aligned to its size and has no 0xF5 prefix takes MISALIGNED with its address, and
accesses nothing. -/
def Obligations.MisalignedDataTakesItsFault : Prop :=
  ∀ (s : State) (c : CoreId) (cc : CC) (a b : Reg) (x : Src) (sz : MemSize),
    ccHolds (s.core c) cc = true → dataPrefix sz false + ccLen cc ≤ 3 →
    s.runs c (srcLen x + dataPrefix sz false + ccLen cc) →
    let ea := (s.core c).w b + srcS (s.core c) x
    ea.toNat % sizeBytes sz ≠ 0 → regionOf ea.toNat ≠ .periph → regionOf ea.toNat ≠ .priv →
    let taken := fun (j : Instr) => ∃ cyc, exec j s = .next ((s.setCore c (s.regsOf c)).instrFault c cyc (faultMisaligned ea))
    taken (.ld c cc a b x sz false) ∧ taken (.st c cc a b x sz false)

/-- R210: ATADD and ATSWP on a word of shared SRAM complete: the old word goes into the load shadow of a, and the word becomes the sum
with register r, or register r itself. Every other byte of memory is unchanged. -/
def Obligations.AtomicsReplaceOneSramWord : Prop :=
  ∀ (s : State) (c : CoreId) (cc : CC) (a b r : Reg) (i : Imm),
    ccHolds (s.core c) cc = true → (∀ l, s.wpHits c l = 0) → s.collided = none → s.poison = [] → s.wbq = [] →
    s.runs c (4 + ImmSize.len i.size + ccLen cc) →
    let k := s.core c
    let ea := (k.w b + immS i).toNat
    ea % 4 = 0 → isSram ea = true → s.sramBad ea = false → s.bankRefuses k.world ea = false → s.fenced c = false →
    s.rgnAllows c k.world k.lvl .read ea = true → s.rgnAllows c k.world k.lvl .write ea = true →
    let Done := fun (j : Instr) (v : Word) => ∃ t, exec j s = .next t ∧
      t.memWord ea = v ∧ (∀ d, (d < ea ∨ ea + 4 ≤ d) → t.memByte d = s.memByte d) ∧
      (t.core c).shadow = some (a, s.memWord ea) ∧ (∀ q, (t.core c).w q = (s.regsOf c).w q) ∧
      (t.core c).st = k.st ∧ (t.core c).acc = k.acc ∧ (s.regsOf c).keeps (t.core c) ∧ t.regs = s.regs
    Done (.atadd c cc a b r i) (s.memWord ea + k.w r) ∧ Done (.atswp c cc a b r i) (k.w r)

/-! ## Control flow, loops, levels, samples (chapters 6, 7, 9) -/

/-- R180, R205, R207, R212, R283: J and JR complete with the pc at their target, and outside active loops change no loop register.
NOP, and CHKPT of a core in no pair, complete in sequence and do nothing; LBFLUSH releases the loop buffer's capture, whatever it has
captured and inside a loop too (R192). Registers, ST, accumulators and all that is outside the core stay as they are. -/
def Obligations.BranchesGoToTheirTarget : Prop :=
  ∀ (s : State) (c : CoreId) (cc : CC) (a : Reg) (disp : Imm),
    ccHolds (s.core c) cc = true →
    let k := s.core c
    let P := fun (K : CoreState) (pc : Word) => K.pc = pc ∧ (∀ q, K.w q = (s.regsOf c).w q) ∧ K.st = k.st ∧ K.acc = k.acc ∧
      (s.regsOf c).keeps K ∧ ((s.regsOf c).noLoop → K.lc = k.lc ∧ K.lbBase = none)
    (s.runs c (1 + ImmSize.len disp.size + ccLen cc) → OnlyCore (.j c cc disp) s c (fun K => P K (k.pc + immS disp))) ∧
    (s.runs c (2 + ccLen cc) → OnlyCore (.jr c cc a) s c (fun K => P K (k.w a))) ∧
    (let n := k.pc + BitVec.ofNat 32 (1 + ccLen cc)
     let Q := fun (K : CoreState) => (∀ q, K.w q = (s.regsOf c).w q) ∧ K.st = k.st ∧ K.acc = k.acc ∧ (s.regsOf c).keeps K ∧
      ((s.regsOf c).noLoop → K.pc = n ∧ K.lc = k.lc)
     (s.runs c (1 + ccLen cc) → OnlyCore (.nop c cc) s c Q ∧ OnlyCore (.chkpt c cc) s c Q) ∧
     ((s.setCore c k.lbRelease).runs c (1 + ccLen cc) → OnlyCore (.lbflush c cc) s c (fun K =>
      Q K ∧ K.lbBase = none ∧ K.lbLen = 0 ∧ K.lbCap = 0)))

/-- R214 to R216: CALL and CALLR complete with the pc at the target, and push an entry of the address after the call, the mask and the
world. The registers of the mask go to the words below sp in ascending order, and sp to the lowest of them.
The order of the checks follows log entry 17. -/
def Obligations.CallsPushAReturnEntry : Prop :=
  ∀ (s : State) (c : CoreId) (cc : CC) (b : Reg) (disp : Imm) (mask : BitVec 16),
    ccHolds (s.core c) cc = true → maskOk mask = true → (∀ l, s.wpHits c l = 0) →
    let k := s.core c
    let regs := maskRegs mask
    let base := k.curSp - BitVec.ofNat 32 (4 * regs.length)
    s.rsFull c = false → (regs ≠ [] → k.curSp.toNat % 4 = 0) →
    (regs ≠ [] → base.toNat + 4 * regs.length ≤ localSize ∧ (s.rg (rSplim c k.world k.lvl)).toNat ≤ base.toNat ∧
      ∀ i, i < regs.length → s.rgnAllows c k.world k.lvl .write (base.toNat + 4 * i) = true) →
    let stack := (List.range regs.length).map (fun i => base.toNat + 4 * i)
    let stored := (stack.zip (regs.map k.w)).foldl (fun t p => t.memPutWord (locAddr c p.1) p.2) s
    let C := fun (j : Instr) (len : Nat) (target : Word) => s.runs c len → ∃ K, exec j s = .next (stored.setCore c K) ∧
      K.pc = target ∧ K.rstack = (⟨k.pc + BitVec.ofNat 32 len, mask, k.world⟩ :: k.rstack).take 16 ∧
      (∀ q, K.w q = if q = 31 ∧ regs ≠ [] then base else (s.regsOf c).w q) ∧ K.st = k.st ∧ K.acc = k.acc
    C (.call c cc disp mask) (3 + ImmSize.len disp.size + ccLen cc) (k.pc + immS disp) ∧
    C (.callr c cc b mask) (4 + ccLen cc) (k.w b)

/-- R217: RET pops the entry of the current world: the pc is its address, the registers of its mask are read back from the stack in
ascending order, and sp rises past them. -/
def Obligations.RetRestoresWhatTheCallSaved : Prop :=
  ∀ (s : State) (c : CoreId) (e : RetEntry) (rest : List RetEntry),
    s.runs c 1 → s.collided = none → (∀ l, s.wpHits c l = 0) →
    let k := s.core c
    let regs := maskRegs e.mask
    k.rstack = e :: rest → e.world = k.world → (regs ≠ [] → k.curSp.toNat % 4 = 0) →
    (∀ i, i < regs.length → k.curSp.toNat + 4 * i < localSize ∧ s.rgnAllows c k.world k.lvl .read (k.curSp.toNat + 4 * i) = true) →
    let words := (List.range regs.length).map (fun i => s.memWord (locAddr c (k.curSp.toNat + 4 * i) / 4 * 4))
    let restored := (regs.zip words).foldl (fun k p => k.setW p.1 p.2) (s.regsOf c)
    OnlyCore (.ret c) s c (fun K => K.pc = e.addr ∧ K.rstack = rest ∧
      (∀ q, K.w q = if q = 31 ∧ regs ≠ [] then k.curSp + BitVec.ofNat 32 (4 * regs.length) else restored.w q) ∧
      K.st = k.st ∧ K.acc = k.acc)

/-- R218: RSPUSH moves the top entry of the return stack to memory, its address at sp − 8 and its mask above it; RSPOP brings it
back. -/
def Obligations.ReturnEntriesMoveToMemoryAndBack : Prop :=
  ∀ (s : State) (c : CoreId), s.runs c 1 → (∀ l, s.wpHits c l = 0) → s.collided = none →
    let k := s.core c
    let area := fun (base : Word) (p : Perm) => base.toNat % 4 = 0 ∧ base.toNat + 8 ≤ localSize ∧
      (s.rg (rSplim c k.world k.lvl)).toNat ≤ base.toNat ∧
      s.rgnAllows c k.world k.lvl p base.toNat = true ∧ s.rgnAllows c k.world k.lvl p (base.toNat + 4) = true
    (∀ (e : RetEntry) (rest : List RetEntry), k.rstack = e :: rest → e.world = k.world → area (k.curSp - 8) .write →
      ∃ K, exec (.rspush c) s = .next (((s.memPutWord (locAddr c (k.curSp - 8).toNat) e.addr).memPutWord
          (locAddr c ((k.curSp - 8).toNat + 4)) (e.mask.setWidth 32)).setCore c K) ∧
        K.rstack = rest ∧ (∀ q, K.w q = if q = 31 then k.curSp - 8 else (s.regsOf c).w q) ∧ K.st = k.st) ∧
    (s.rsFull c = false → area k.curSp .read →
      maskOk ((s.memWord (locAddr c (k.curSp.toNat + 4) / 4 * 4)).extractLsb' 0 16) = true →
      OnlyCore (.rspop c) s c (fun K =>
        K.rstack = (⟨s.memWord (locAddr c k.curSp.toNat / 4 * 4),
          (s.memWord (locAddr c (k.curSp.toNat + 4) / 4 * 4)).extractLsb' 0 16, k.world⟩ :: k.rstack).take 16 ∧
        (∀ q, K.w q = if q = 31 then k.curSp + 8 else (s.regsOf c).w q) ∧ K.st = k.st))

/-- R211, R212: LOOP sets the bounds and the count of its level and lifts its suspension; execution goes on in sequence, or past the
body when the count is 0. MTS writes the status flags, the loop bounds and the loop counts (R213). The count 0 follows log entry 19.
-/
def Obligations.LoopAndMtsSetLoopRegisters : Prop :=
  ∀ (s : State) (c : CoreId) (cc : CC) (l : Fin 2) (len : BitVec 16) (count : LoopCount) (a : Reg),
    let k := s.core c
    let n := match count with | .reg _ => 4 | .imm _ => 6
    let cnt : Word := match count with | .reg b => k.w b | .imm v => v.setWidth 32
    let ls := k.pc + BitVec.ofNat 32 n
    let le := ls + len.setWidth 32
    (s.runs c n → len ≠ 0 → (s.regsOf c).noLoop → ls ≠ le → OnlyCore (.loop c l len count) s c (fun K =>
      K.ls = k.ls.set l ls ∧ K.le = k.le.set l le ∧ K.susp = k.susp &&& ~~~ BitVec.ofNat 2 (2 ^ l.val) ∧
      K.lc = k.lc.set l cnt ∧ K.pc = (if cnt = 0 then le else ls) ∧ (∀ q, K.w q = (s.regsOf c).w q) ∧ K.st = k.st)) ∧
    (ccHolds k cc = true → s.runs c (3 + ccLen cc) → (s.regsOf c).noLoop →
      OnlyCore (.mts c cc a 0) s c (fun K => (s.regsOf c).wroteSt K (setBits k.st 0 7 (k.w a).toNat) (k.pc + BitVec.ofNat 32 (3 + ccLen cc))) ∧
      OnlyCore (.mts c cc a 2) s c (fun K => K.ls = k.ls.set 0 (k.w a) ∧ K.le = k.le ∧ K.lc = k.lc ∧ K.st = k.st) ∧
      OnlyCore (.mts c cc a 3) s c (fun K => K.le = k.le.set 0 (k.w a) ∧ K.ls = k.ls ∧ K.lc = k.lc ∧ K.st = k.st) ∧
      OnlyCore (.mts c cc a 5) s c (fun K => K.ls = k.ls.set 1 (k.w a) ∧ K.le = k.le ∧ K.lc = k.lc ∧ K.st = k.st) ∧
      OnlyCore (.mts c cc a 6) s c (fun K => K.le = k.le.set 1 (k.w a) ∧ K.ls = k.ls ∧ K.lc = k.lc ∧ K.st = k.st) ∧
      ((∀ i : Fin 2, k.le[i] ≠ k.pc + BitVec.ofNat 32 (3 + ccLen cc)) →
        OnlyCore (.mts c cc a 1) s c (fun K => K.lc = k.lc.set 0 (k.w a) ∧ K.ls = k.ls ∧ K.le = k.le ∧ K.st = k.st) ∧
        OnlyCore (.mts c cc a 4) s c (fun K => K.lc = k.lc.set 1 (k.w a) ∧ K.ls = k.ls ∧ K.le = k.le ∧ K.st = k.st)))

/-- R206, R252, R254: SETLVL at supervisor level sets L and IM, and at user level takes ILLEGAL_OPCODE; GATE enters the other world
through an enabled gate at its address and level, and a disabled gate takes BUS_ERROR with cause DENIED. No interrupt follows either
of the two (R206). -/
def Obligations.LevelsAndWorldsChangeByTheirInstructions : Prop :=
  ∀ (s : State) (c : CoreId) (l : Bool) (im : BitVec 4) (n : Fin 16), s.runs c 2 →
    let k := s.core c
    let g := s.rg (rWc c (!k.world) (0x040 + 4 * n))
    let P := fun (K : CoreState) => K.gpr = (s.regsOf c).gpr ∧ K.sp = (s.regsOf c).sp ∧ K.acc = k.acc ∧ K.rstack = k.rstack ∧
      K.noInt = true
    let taken := fun (j : Instr) (f : FaultRec) => ∃ cyc, exec j s = .next ((s.setCore c (s.regsOf c)).instrFault c cyc f)
    (k.lvl = true → OnlyCore (.setlvl c l im) s c (fun K => P K ∧ K.st = setBits (setBit k.st 12 l) 8 4 im.toNat)) ∧
    (k.lvl = false → taken (.setlvl c l im) (faultIllegal k.pc)) ∧
    (c ≠ 36 → bit g 31 = true → OnlyCore (.gate c n) s c (fun K =>
      P K ∧ K.st = setBit (setBit k.st 13 (!k.world)) 12 (bit g 30) ∧ K.pc = BitVec.ofNat 32 (bits g 0 18))) ∧
    (c = 36 ∨ bit g 31 = false → taken (.gate c n) (faultBus .denied (BitVec.ofNat 32 n)))

/-- R48, R50, R182 to R184, R226: FDONE of an owner core that is not SC sets its bit in FDONE_STAT (in a cycle without a tick, R49)
and its source, which activates at the next edge (R38); SC takes no part. WAITS completes when its fresh flag stands and otherwise
waits at its own address; WAITS_WAKE ends a wait whose flag has come, at the instruction after the WAITS; RDS reads a sample
register and clears both of its fresh flags. -/
def Obligations.SamplesAndFdoneFollowTheFrame : Prop :=
  (
    ∀ (s : State) (c : CoreId) (cc : CC), ccHolds (s.core c) cc = true → s.runs c (1 + ccLen cc) →
      (c.val < 36 → s.fab.feed.contains 979 = false → ∃ t, exec (.fdone c cc) s = .next t ∧
        t.bitOf (rFdone 0) c = true ∧ (449 + 2 * c.val) ∈ t.fab.coreFires ∧
        (∀ j, j ≠ rFdone 0 + 4 * (c.val / 32) → t.rg j = s.rg j) ∧ (∀ q, (t.core c).w q = (s.regsOf c).w q)) ∧
      (c = 36 → OnlyCore (.fdone c cc) s c (fun K => ∀ q, K.w q = (s.regsOf c).w q))) ∧
  (
    ∀ (s : State) (c : CoreId) (cc : CC) (a : Reg) (n : Fin 16) (final : Bool), c ≠ 36 →
      let k := s.core c
      let flag := s.smpFresh c n final
      (s.runs c 2 → (flag = true → OnlyCore (.waits c n final) s c (fun K => K.run = .running ∧ (∀ q, K.w q = (s.regsOf c).w q) ∧
          ((s.regsOf c).noLoop → K.pc = k.pc + 2))) ∧
        (flag = false → OnlyCore (.waits c n final) s c (fun K => K.run = .waiting n final ∧ K.waitPc = k.pc ∧
          (∀ q, K.w q = (s.regsOf c).w q)))) ∧
      (k.run = .waiting n final → flag = true → s.domReady c = true → s.role c = .solo → s.pmSel = [] → k.stepping = false →
        k.haltReq = false → k.noLoop →
        OnlyCore (.waitsWake c) s c (fun K => K.run = .running ∧ K.pc = k.waitPc + 2 ∧ (∀ q, K.w q = k.w q))) ∧
      (ccHolds k cc = true → s.runs c (3 + ccLen cc) → OnlyCore (.rds c cc a ⟨n.val, by omega⟩) s c (fun K =>
        (∀ q, K.w q = if q = a ∧ a ≠ 0 then (if s.smpBound c n then k.smp[n] else 0) else (s.regsOf c).w q) ∧
        K.newF = k.newF &&& ~~~ BitVec.ofNat 16 (2 ^ n.val) ∧ K.newE = k.newE &&& ~~~ BitVec.ofNat 16 (2 ^ n.val) ∧
        K.smp = k.smp ∧ K.st = k.st)))
/-! ## Control-law instructions and duty writes (chapter 8) -/

/-- R236, R237: the laws without a descriptor complete on values of w registers (law-control byte 0, field B 0): their two results go
to wA and w(A + 1), and Q is set where a value saturated. SINCOS, PARK and IPARK follow log entry 3. -/
def Obligations.PlainLawsWriteTwoResults : Prop :=
  ∀ (s : State) (c : CoreId) (cc : CC) (a r : Reg),
    ccHolds (s.core c) cc = true → c ≠ 36 → a.val + 2 ≤ 32 → s.runs c (5 + ccLen cc) →
    let k := s.core c
    let x := fun (j : Nat) => k.w (fin 32 (r.val + j) (by decide))
    let L := fun (j : Instr) (p : Q × Q) => OnlyCore j s c (fun K =>
      (∀ q, K.w q = if q.val = a.val + 1 then wordOf p.2.1 else if q = a ∧ a ≠ 0 then wordOf p.1.1 else (s.regsOf c).w q) ∧
      K.st = (if p.1.2 || p.2.2 then setBit k.st stQ true else k.st) ∧ K.acc = k.acc ∧ (s.regsOf c).keeps K)
    (r.val + 2 ≤ 32 → L (.clarke c cc a 0 r 0) (clarkeLaw (qof (x 0)) (qof (x 1)))) ∧
    (r.val + 3 ≤ 32 → L (.park c cc a 0 r 0) (parkLaw (x 0) (x 1) (x 2))) ∧
    (r.val + 3 ≤ 32 → L (.ipark c cc a 0 r 0) (iparkLaw (x 0) (x 1) (x 2))) ∧
    L (.sincos c cc a 0 r 0) (((sincos (x 0)).1, false), ((sincos (x 0)).2, false))

/-- R222, R236, R238 to R245: the laws with a descriptor complete on an aligned descriptor in the core's own memory (law-control byte
0): the results go to wA onward, the descriptor fields that the law writes take their new values, and no byte outside the descriptor
changes; Q is set where a value saturated, and SF is written by SETTLE. Corners follow log entry 23. -/
def Obligations.DescriptorLawsWriteFieldsAndResults : Prop :=
  ∀ (s : State) (c : CoreId) (cc : CC) (a b r : Reg),
    ccHolds (s.core c) cc = true → c ≠ 36 → s.runs c (5 + ccLen cc) → s.collided = none → s.poison = [] → (∀ l, s.wpHits c l = 0) →
    let k := s.core c
    let p := (k.w b).toNat
    p % 64 = 0 → p < localSize →
    (∀ i, i < 16 → s.rgnAllows c k.world k.lvl .read (p + 4 * i) = true ∧ s.rgnAllows c k.world k.lvl .write (p + 4 * i) = true) →
    let x := fun (j : Nat) => k.w (fin 32 (r.val + j) (by decide))
    let word := fun (i : Nat) => s.memWord (locAddr c (p + 4 * i))
    let D := fun (reads : List Nat) => (List.range 16).map (fun i => if reads.contains i then word i else 0)
    let L := fun (j : Instr) (fields : List Nat) (o : LawOut) => ∃ t, exec j s = .next t ∧
      (∀ i ∈ fields, ∀ d, o.desc = some d → t.memWord (locAddr c (p + 4 * i)) = d.getD i 0) ∧
      (∀ m, (m < locAddr c p ∨ locAddr c p + 64 ≤ m) → t.memByte m = s.memByte m) ∧
      (o.desc = none → ∀ m, t.memByte m = s.memByte m) ∧
      (∀ q, (t.core c).w q = ((s.regsOf c).lawOutputs false a.val o.outs).w q) ∧
      (t.core c).st = (let st := if o.q then setBit k.st stQ true else k.st
        match o.sf with | some f => setBit st stSF f | none => st)
    (a.val + 1 ≤ 32 → r.val + 1 ≤ 32 →
      L (.lawpi c cc a b r 0) (piFields false) (piLaw false false (x 0) (D (piReads false))) ∧
      L (.lawpid c cc a b r 0) (piFields true) (piLaw true false (x 0) (D (piReads true)))) ∧
    (a.val + 3 ≤ 32 → r.val + 2 ≤ 32 →
      L (.svpwm c cc a b r 0) [] (svpwmLaw (x 0) (x 1) (D [7])) ∧
      L (.lawfoc c cc a b r 0) focFields (focLaw false (x 0) (x 1) (D (List.range 8)))) ∧
    (∀ n m, settleShape (word 15) a r 0 = some (n, m) →
      L (.settle c cc a b r 0) (settleFields (bits (word 15) 12 2)) (settleLaw ((List.range n).map x) (D (List.range 16))))

/-- R229 to R234: a DUTY or DUTYC to a register that is bound, with a pin of its timer claimed in the core's world, completes and
discards the register's staged value: DUTY writes the compare buffer of the register's mode, for CENTRE both by R231, and DUTYC
both; while the timer holds they are staged in it. One without EN or claim takes BUS_ERROR with cause DENIED at the address it would
have reached. A release sends every staged value and clears every staging, or is refused with RELDENY. Corners follow log entry 23.
-/
def Obligations.DutyWritesReachTheBoundTimer : Prop :=
  ∀ (s : State) (c : CoreId) (cc : CC) (d b r : Reg) (j : Fin 8),
    ccHolds (s.core c) cc = true → c ≠ 36 → d.val = j.val → s.runs c (4 + ccLen cc) → s.fenced c = false →
    let k := s.core c
    let w := fun (i : Fin 8) => s.rg (rDbind c i)
    let mode := fun (i : Fin 8) => bits (w i) 8 2
    let n : Fin 48 := fin 48 (bits (w j) 0 6) (by decide)
    let claimed := fun (i : Fin 8) => bits (w i) 0 6 < 48 ∧
      (s.claimIn c k.world (2 * bits (w i) 0 6) = true ∨ s.claimIn c k.world (2 * bits (w i) 0 6 + 1) = true)
    let may := fun (i : Fin 8) => bit (w i) 15 = true ∧ claimed i
    let same := fun (t : State) => t = { s.setCore c (t.core c) with regs := t.regs, pts := t.pts } ∧
      (∀ q, (t.core c).w q = (s.regsOf c).w q) ∧ (t.core c).st = k.st ∧ (t.core c).acc = k.acc ∧ (t.core c).smp = k.smp ∧
      (∀ m : Fin 48, m ≠ n → t.pt m = s.pt m)
    let sent := fun (t : State) (A B : Option Word) => (t.core c).duty = k.duty.set j none ∧
      t.rg (rPtShA n) = A.getD (s.rg (rPtShA n)) ∧ t.rg (rPtShB n) = B.getD (s.rg (rPtShB n)) ∧
      t.pt n = { s.pt n with immA := (s.pt n).immA || A.isSome, immB := (s.pt n).immB || B.isSome } ∧
      (∀ q, q ≠ rPtShA n → q ≠ rPtShB n → t.rg q = s.rg q)
    let centre := centrePair (k.w r) (s.rg (rDctr c j)) (s.rg (rDhalf c j))
    let denied := fun (i : Instr) (t : State) (at_ : Nat) => ∃ cyc, exec i s = .next (t.instrFault c cyc (faultBus .denied (BitVec.ofNat 32 at_)))
    let seen := s.setCore c (s.regsOf c)
    (mode j ≠ 3 → may j → s.flag (rPtCtl n) 0 = false →
      Does (.duty c cc d r) s (fun t => same t ∧ sent t (if mode j = 0 then some (k.w r) else if mode j = 2 then some centre.1 else none)
        (if mode j = 1 then some (k.w r) else if mode j = 2 then some centre.2 else none)) ∧
      Does (.dutyc c cc d b r) s (fun t => same t ∧ sent t (some (k.w b)) (some (k.w r)))) ∧
    (mode j ≠ 3 → may j → s.flag (rPtCtl n) 0 = true →
      Does (.dutyc c cc d b r) s (fun t => same t ∧ t.regs = s.regs ∧ (t.pt n).stShA = some (k.w b) ∧ (t.pt n).stShB = some (k.w r))) ∧
    (mode j ≠ 3 → ¬ may j →
      denied (.duty c cc d r) seen (if bit (w j) 15 then (if mode j = 1 then rPtShB (bits (w j) 0 6) else rPtShA (bits (w j) 0 6)) else rDbind c j) ∧
      denied (.dutyc c cc d b r) seen (if bit (w j) 15 then rPtShA (bits (w j) 0 6) else rDbind c j)) ∧
    (mode j = 3 → bit (w j) 15 = true → (∀ i : Fin 8, k.duty[i] ≠ none → mode i ≠ 3 → may i) →
      let released := (List.finRange 8).foldl (fun (u : State) (i : Fin 8) => if mode i = 3 then u
        else match k.duty[i] with | some v => u.dutyPut c i v | none => u) s
      ∀ e ∈ [Instr.duty c cc d r, .dutyc c cc d b r], Does e s (fun t => t.regs = released.regs ∧ t.pts = released.pts ∧
        (∀ i : Fin 8, (t.core c).duty[i] = none) ∧ (∀ q, (t.core c).w q = (s.regsOf c).w q))) ∧
    (∀ i : Fin 8, mode j = 3 → bit (w j) 15 = true → k.duty[i] ≠ none → mode i ≠ 3 → ¬ may i →
      (∀ h : Fin 8, h < i → k.duty[h] ≠ none → mode h ≠ 3 → may h) →
      ∀ e ∈ [Instr.duty c cc d r, .dutyc c cc d b r], denied e (seen.hwFlag (rCpStage c) 8)
        (if bit (w i) 15 then (if mode i = 1 then rPtShB (bits (w i) 0 6) else rPtShA (bits (w i) 0 6)) else rDbind c i))

/-! ## Faults and interrupts (chapter 9) -/

/-- R255, R257, R259, R263, R265 (Tables 48 to 50, 55): a fault taken at a mask level below 15 pushes the frame of four words on
SP_S of the world, sets IM to 14 (or, at 14, to 15, at vector 7 with the escalated vector in ORIG), L to 1, the fault registers, and
the pc to the vector; no general register changes. At mask level 15 the core locks up, and source 543 activates at the next edge.
Corners follow log entry 18. -/
def Obligations.FaultEntrySavesAndVectors : Prop :=
  ∀ (s : State) (c : CoreId) (cyc : Nat) (f : FaultRec),
    let k := s.core c
    let w := k.world
    let base := k.spOf w true - 16
    let t := s.instrFault c cyc f
    k.shadow = none → k.run = .running → k.stepping = false → k.haltReq = false → s.role c = .solo → 1 ≤ f.vec → f.vec ≤ 6 →
    f.bcause < 16 → s.ecc = [] → s.poison = [] →
    (k.im < 15 → base.toNat % 4 = 0 → (s.rg (rSplim c w true)).toNat ≤ base.toNat → base.toNat + 15 ≤ 0x2FF7F →
      (∀ i, i < 4 → s.rgnAllows c w true .write (base.toNat + 4 * i) = true) →
      let v := if k.im = 14 then 7 else f.vec
      let cause := BitVec.ofNat 32 (v + 0x1000 * f.bcause + 0x10000 * b2n f.part + 0x20000 * b2n f.fetch +
        0x100000 * (if k.im = 14 then f.vec else 0))
      let word := fun (a : Nat) => t.memWord (locAddr c a)
      let K := t.core c
      word (base.toNat + 12) = k.pc ∧ word (base.toNat + 8) = k.st ∧ word (base.toNat + 4) = k.susp.setWidth 32 ∧ word base.toNat = cause ∧
      K.st = setBits (setBit k.st 12 true) 8 4 (if k.im = 14 then 15 else 14) ∧ K.spOf w true = base ∧ K.gpr = k.gpr ∧ K.acc = k.acc ∧
      K.pc = word (((s.rg (rWc c w 4)).toNat + 4 * v) % localSize) ∧
      (∀ l : Fin 2, K.susp.getLsbD l = (k.susp.getLsbD l || k.lc[l] != 0)) ∧ K.lc = k.lc ∧
      t.rg (rWc c w 0x10) = cause ∧ t.rg (rWc c w 0x14) = f.addr ∧ t.rg (rWc c w 0x18) = k.pc ∧
      (∀ j, j ≠ rWc c w 0x10 → j ≠ rWc c w 0x14 → j ≠ rWc c w 0x18 → t.rg j = s.rg j)) ∧
    (k.im = 15 → c ≠ 36 → (t.core c).run = .lockup ∧ 543 ∈ t.fab.coreFires ∧ (t.core c).pc = k.pc ∧ t.regs = s.regs ∧ t.mem = s.mem)

/-- R184, R259, R266, R267: INTERRUPT_ENTRY takes the highest of the pending, enabled interrupts above IM: the frame goes on SP_S of
its world, with the pc of the next instruction (or of the WAITS); IM becomes its priority, W its world, L 1; its pending bit clears;
the pc is its vector; every other register but LB_ABN is unchanged. With none above IM, nothing happens. -/
def Obligations.InterruptEntryTakesTheHighest : Prop :=
  ∀ (s : State) (c : CoreId) (abandon : Option Abandonable) (i : Irq),
    let k := s.core c
    let base := k.spOf i.world true - 16
    let at_ := k.resumePc
    k.shadow = none → (k.run = .running ∨ ∃ n f, k.run = .waiting n f) → k.stepping = false → k.haltReq = false → k.noInt = false →
    s.domReady c = true → s.role c = .solo → s.ecc = [] → s.poison = [] → s.pmSel = [] → s.entryOf c = none →
    (bestIrq (s.irqs c) k.im = none → exec (.interruptEntry c abandon) s = .next s) ∧
    (bestIrq (s.irqs c) k.im = some i → 16 ≤ i.vec → base.toNat % 4 = 0 →
      (s.rg (rSplim c i.world true)).toNat ≤ base.toNat → base.toNat + 15 ≤ 0x2FF7F →
      (∀ j, j < 4 → s.rgnAllows c i.world true .write (base.toNat + 4 * j) = true) →
      Does (.interruptEntry c abandon) s (fun t =>
        let word := fun (a : Nat) => t.memWord (locAddr c a)
        let K := t.core c
        word (base.toNat + 12) = at_ ∧ word (base.toNat + 8) = k.st ∧ word (base.toNat + 4) = k.susp.setWidth 32 ∧
        word base.toNat = BitVec.ofNat 32 i.vec ∧
        K.st = setBits (setBit (setBit k.st 13 i.world) 12 true) 8 4 i.prio ∧ K.spOf i.world true = base ∧ K.gpr = k.gpr ∧
        K.acc = k.acc ∧ K.run = .running ∧ K.pc = word (((s.rg (rWc c i.world 4)).toNat + 4 * i.vec) % localSize) ∧
        t.bitOf (rIcPend c 0) (i.vec - 16) = false ∧
        (∀ q, q ≠ rIcPend c 0 + 4 * ((i.vec - 16) / 32) → q ≠ rLbAbn c → t.rg q = s.rg q)))

/-- R264: RETX at supervisor level reads ST, pc and the loop word back from the frame at sp and moves sp past it, when the frame
restores the same world and no pending interrupt chains; at user level it takes ILLEGAL_OPCODE, and with a misaligned sp MISALIGNED.
-/
def Obligations.RetxRestoresTheFrame : Prop :=
  ∀ (s : State) (c : CoreId), s.runs c 1 → s.collided = none → (∀ l, s.wpHits c l = 0) →
    let k := s.core c
    let sp := k.curSp
    let word := fun (o : Nat) => s.memWord (locAddr c (sp.toNat + o) / 4 * 4)
    let st := word 8 &&& 0x3F7F
    let taken := fun (f : FaultRec) => ∃ cyc, exec (.retx c) s = .next ((s.setCore c (s.regsOf c)).instrFault c cyc f)
    (k.lvl = false → taken (faultIllegal k.pc)) ∧
    (k.lvl = true → sp.toNat % 4 ≠ 0 → taken (faultMisaligned sp)) ∧
    (k.lvl = true → sp.toNat % 4 = 0 → (∀ o ∈ [4, 8, 12], sp.toNat + o < localSize ∧ s.rgnAllows c k.world true .read (sp.toNat + o) = true) →
      bit st 13 = k.world → bestIrq ((s.irqs c).filter (fun i => i.world == k.world)) (bits st 8 4) = none →
      OnlyCore (.retx c) s c (fun K => K.st = st ∧ K.pc = word 12 ∧ K.susp = (word 4).extractLsb' 0 2 ∧
        K.spOf k.world true = sp + 16 ∧ K.gpr = (s.regsOf c).gpr ∧ K.acc = k.acc ∧ K.lc = k.lc))

/-! ## Private space (R180, R266, R273) -/

/-- R180, R266, R273: the commands on a core's private space complete: SETPEND and CLRPEND act on the bits that the route gives to
this core and the writer's world (a bit that hardware sets in the same cycle stays), WC_LOCK locks the bank of the writer's world,
LB_CTL writes EN and releases the capture on FLUSH or when EN falls. A user-level write, or one of the other world's bank, is
DENIED. -/
def Obligations.PrivateSpaceWritesFollowWorldAndLevel : Prop :=
  ∀ (s : State) (c : CoreId) (x : Ctx) (m : Fin 32) (v : Word) (service en : Bool),
    s.enters (masterOf c) true x [0xE0001080 + 4 * m.val, 0xE0001100 + 4 * m.val, 0xE0006000 + 0x400 * b2n service, 0xE0005000] →
    (x.level = true →
      Does (.setpend c m v) s (fun t => t.rg (rIcPend c m) = s.rg (rIcPend c m) ||| (v &&& s.pendMask c x.world m) ∧
        s.regsBut t [rIcPend c m] ∧ t.resp = ⟨none, 0⟩ ∧ t = { s with regs := t.regs, wrote := t.wrote, resp := t.resp }) ∧
      Does (.clrpend c m v) s (fun t =>
        t.rg (rIcPend c m) = s.rg (rIcPend c m) &&& ~~~ (v &&& s.pendMask c x.world m &&& ~~~ sget 0 s.hwSet (rIcPend c m)) ∧
        s.regsBut t [rIcPend c m] ∧ t.resp = ⟨none, 0⟩ ∧ t = { s with regs := t.regs, wrote := t.wrote, resp := t.resp }) ∧
      (service = x.world → Does (.wcLock c service) s (fun t => t.locked c service = true ∧ s.regsBut t [rWc c service 0] ∧
        t.resp = ⟨none, 0⟩ ∧ t = { s with regs := t.regs, wrote := t.wrote, resp := t.resp })) ∧
      (service ≠ x.world → exec (.wcLock c service) s = .next (s.refuse .denied)) ∧
      Does (.lbCtlFlush c) s (fun t => (t.core c).lbBase = none ∧ s.regsBut t [] ∧ t.resp = ⟨none, 0⟩) ∧
      Does (.lbCtlEn c en) s (fun t => t.flag (rLbCtl c) 0 = en ∧ (t.core c).lbBase = (if en then (s.core c).lbBase else none) ∧
        s.regsBut t [rLbCtl c] ∧ t.resp = ⟨none, 0⟩)) ∧
    (x.level = false →
      exec (.setpend c m v) s = .next (s.refuse .denied) ∧ exec (.clrpend c m v) s = .next (s.refuse .denied) ∧
      exec (.wcLock c service) s = .next (s.refuse .denied) ∧ exec (.lbCtlFlush c) s = .next (s.refuse .denied) ∧
      exec (.lbCtlEn c en) s = .next (s.refuse .denied))

/-! ## Timebase, frame and configuration sets (chapter 2) -/

/-- R46, R47, R57, R69, R225, R248, R482: writes of the bindings, of FRAME_CTL, TB_CTL and SWAP_CTL. SC's and the debug port's
complete; each field takes the legal value nearest to what is written (R10), and a change of reference takes the PLL into holdover.
A write of a binding clears the sample register and its flags at the next edge, and until then results go by the old one (R225). A
frame that is stopped refuses a swap that is CHECKING or ARMED with STATE, at the next edge (R57). Any other master's are DENIED,
and nothing changes. -/
def Obligations.TimebaseWritesComeFromScAndDebug : Prop :=
  ∀ (s : State) (m : Master) (x : Ctx) (n : Fin 36) (k : Fin 16) (j : Fin 8) (v : Word),
    s.enters m true x [rSbind n k, rDbind n j, rFrameCtl, rTbCtl, rSwapCtl] →
    (x.free = true →
      (let c := coreId (s.holder n)
       Does (.sbindWrite m n k v) s (fun t =>
        bits (t.rg (rSbind n k)) 0 6 = min 23 (bits v 0 6) ∧ bits (t.rg (rSbind n k)) 8 5 = bits v 8 5 ∧
        bit (t.rg (rSbind n k)) 15 = bit v 15 ∧ s.regsBut t [rSbind n k] ∧ t.resp = ⟨none, 0⟩ ∧
        t = { s with regs := t.regs, wrote := t.wrote, resp := t.resp, rebind := t.rebind } ∧
        (s.rebind = [] → t.binding n k = s.binding n k ∧
          t.rebindEdge.binding n k = t.rg (rSbind n k) ∧ (t.rebindEdge.core c).smp = (s.core c).smp.set k 0 ∧
          (t.rebindEdge.core c).newE = (s.core c).newE &&& ~~~ BitVec.ofNat 16 (2 ^ k.val) ∧
          (t.rebindEdge.core c).newF = (s.core c).newF &&& ~~~ BitVec.ofNat 16 (2 ^ k.val))) ∧
       Does (.dbindWrite m n j v) s (fun t =>
        bits (t.rg (rDbind n j)) 0 6 = min 47 (bits v 0 6) ∧ bits (t.rg (rDbind n j)) 8 2 = bits v 8 2 ∧
        bit (t.rg (rDbind n j)) 15 = bit v 15 ∧ (t.core c).duty = (s.core c).duty.set j none ∧ s.regsBut t [rDbind n j] ∧
        t.resp = ⟨none, 0⟩ ∧ (s.setCore c (t.core c)).regsOnly t)) ∧
      (let p := if s.follows then s.fld rFrameCtl 0 23 else bits v 0 23
       let pending := swapState s = 1 ∨ swapState s = 2
       Does (.frameCtlWrite m v) s (fun t => t.fld rFrameCtl 0 23 = max 1000 (min 8000000 p) ∧ t.flag rFrameCtl 24 = bit v 24 ∧
        s.regsBut t [rFrameCtl] ∧ s.regsOnly t ∧ t.resp = ⟨none, 0⟩ ∧
        (bit v 24 = false ∧ pending → swapState t.stopRefuse = 4 ∧ t.stopRefuse.fld rSwapStat 4 4 = 5 ∧ 981 ∈ t.stopRefuse.fab.feed) ∧
        (bit v 24 = true ∨ ¬ pending → t.stopRefuse = t))) ∧
      (let ref := if bits v 0 2 < 2 then bits v 0 2 else 0
       let same := ref = s.fld rTbCtl 0 2 ∧ bits v 2 2 = s.fld rTbCtl 2 2
       (same → Does (.referenceSwitch m v) s (fun t => s.regsBut t [] ∧ s.regsOnly t ∧ t.resp = ⟨none, 0⟩)) ∧
       (¬ same → Does (.referenceSwitch m v) s (fun t => t.fld rTbCtl 0 2 = ref ∧ t.fld rTbCtl 2 2 = bits v 2 2 ∧
        t.flag rTbStat 0 = false ∧ t.flag rTbStat 1 = true ∧ s.regsBut t [rTbCtl, rTbStat] ∧
        s.regsOnly t ∧ t.resp = ⟨none, 0⟩)))) ∧
    (x.free = false →
      exec (.sbindWrite m n k v) s = .next (s.refuse .denied) ∧ exec (.dbindWrite m n j v) s = .next (s.refuse .denied) ∧
      exec (.frameCtlWrite m v) s = .next (s.refuse .denied) ∧ exec (.referenceSwitch m v) s = .next (s.refuse .denied) ∧
      exec (.swapArm m) s = .next (s.refuse .denied) ∧ exec (.swapCtlCancel m) s = .next (s.refuse .denied))

/-- R56 to R59: a swap is armed for a tick up to 2^31 − 1 ahead while the frame runs, and refused with STATE otherwise; a request
while one is being checked or armed sets DUP. The check, which is over 16,000 cycles after the request (the longest that R56 allows,
log entry 9), arms it or refuses it with its first failure; a cancel ends it; at the exchange the two sets and their identifiers
change places. -/
def Obligations.SwapsAreArmedCheckedAndExchanged : Prop :=
  ∀ (s : State) (m : Master) (x : Ctx), s.enters m true x [rSwapCtl] → x.free = true →
    let busy := swapState s = 1 ∨ swapState s = 2
    let ahead := (s.rg rSwapTarget - s.rg rFrameNum).toNat
    let stat := fun (t : State) (st code sec item : Nat) =>
      swapState t = st ∧ t.fld rSwapStat 4 4 = code ∧ t.fld rSwapStat 8 4 = sec ∧ t.fld rSwapStat 16 12 = item
    (busy → Does (.swapArm m) s (fun t => t.flag rSwapStat 3 = true ∧ swapState t = swapState s ∧ t.swapTick = s.swapTick ∧ t.due = s.due)) ∧
    (¬ busy → s.flag rFrameCtl 24 = true → 0 < ahead → ahead < 2 ^ 31 → Does (.swapArm m) s (fun t =>
      stat t 1 0 0 0 ∧ t.swapTick = s.rg rSwapTarget ∧ t.due = s.due ++ [(s.now + 16000, .swapCheckComplete)] ∧ s.regsBut t [rSwapStat])) ∧
    (¬ busy → (s.flag rFrameCtl 24 = false ∨ ahead = 0 ∨ 2 ^ 31 ≤ ahead) → Does (.swapArm m) s (fun t => stat t 4 5 0 0 ∧ 981 ∈ t.fab.feed)) ∧
    (busy → Does (.swapCtlCancel m) s (fun t => stat t 5 0 0 0 ∧ (∀ e ∈ t.due, e.2 ≠ .swapCheckComplete) ∧ s.regsBut t [rSwapStat])) ∧
    (¬ busy → Does (.swapCtlCancel m) s (fun t => s.regsBut t [] ∧ s.regsOnly t ∧ t.resp = ⟨none, 0⟩)) ∧
    (swapState s = 1 → s.swapCheck = none → Does .swapCheckComplete s (fun t => stat t 2 0 0 0 ∧ s.regsBut t [rSwapStat])) ∧
    (∀ code sec item, code < 16 → sec < 16 → item < 4096 → swapState s = 1 → s.swapCheck = some (code, sec, item) →
      Does .swapCheckComplete s (fun t => stat t 4 code sec item ∧ 981 ∈ t.fab.feed)) ∧
    (swapState s ≠ 1 → exec .swapCheckComplete s = .next s) ∧
    (swapState s = 2 → Does .swapExchange s (fun t => t.active = s.shadow ∧ t.shadow = s.active ∧ t.rg rSetId = s.rg rShadowId ∧
      t.rg rShadowId = s.rg rSetId ∧ swapState t = 3 ∧ 980 ∈ t.fab.feed)) ∧
    (swapState s ≠ 2 → exec .swapExchange s = .next s)

/-- R45, R47 to R51: at a tick of a frame that runs FRAME_NUM counts, FRAME_POS is 0, source 979 activates, every judged core whose
done flag is clear overruns, and all done flags clear. A frame that is stopped has no tick. -/
def Obligations.TicksJudgeTheDoneFlags : Prop :=
  ∀ s : State, (s.frameRuns = false → exec .tick s = .next s) ∧ (s.frameRuns = true → Does .tick s (fun t =>
    t.rg rFrameNum = s.rg rFrameNum + 1 ∧ t.rg rFramePos = 0 ∧ 979 ∈ t.fab.feed ∧ t.rg (rFdone 0) = 0 ∧ t.rg (rFdone 1) = 0 ∧
    (∀ n, n < 36 → t.bitOf (rOvrStat 0) n = (s.bitOf (rOvrStat 0) n || (s.judged n && !s.bitOf (rFdone 0) n))) ∧
    (∀ n, n < 36 → s.judged n = true → s.bitOf (rFdone 0) n = false →
      982 ∈ t.fab.feed ∧ t.fld (rOvrCnt n) 0 16 = min 0xFFFF (s.fld (rOvrCnt n) 0 16 + 1) ∧
      (s.ovrPolicy n = 2 → t.holdNew.getLsbD n = true))))

/-- R44, R47, R65, R67, R68, R154, R482: the PLL loses and gains its reference; a follower loses its tick, with a safe-hold request
for every core of TLOSS_POLICY, and where SH_EN allows it the device goes to SAFE-HOLD at the next edge; it takes a marker of its
tick link while its frame runs, and holds FRAME_NUM where it does not; TS64 wraps. -/
def Obligations.ReferenceAndMarkersSteerTheFrame : Prop :=
  ∀ (s : State) (n : Fin 4) (num : Word) (period : BitVec 23) (lat : BitVec 12),
    Does .referenceFail s (fun t =>
      t.flag rTbStat 0 = false ∧ t.flag rTbStat 1 = true ∧ t.flag rTbStat 2 = true ∧ s.regsBut t [rTbStat]) ∧
    (2 ≤ s.mode → s.boot.wait = none → Does .pllLock s (fun t =>
      t.flag rTbStat 0 = true ∧ t.flag rTbStat 1 = false ∧ s.regsBut t [rTbStat] ∧ t = { s with regs := t.regs })) ∧
    (s.fld rTickCtl 0 2 = 2 → Does .tickLost s (fun t =>
      t.flag rTickStat 1 = true ∧ t.flag rTickStat 0 = false ∧ t.flag rTickStat 2 = false ∧ 983 ∈ t.fab.feed ∧ t.flag rShCause 5 = true ∧
      (∀ i, i < 36 → t.holdNew.getLsbD i = (s.holdNew.getLsbD i || s.bitOf (rTloss 0) i)) ∧ t.mode = s.mode ∧
      (s.shEnabled 5 = true → 2 ≤ s.mode → t.modeNext = some 4))) ∧
    (s.fld rTickCtl 0 2 ≠ 2 → exec .tickLost s = .next s ∧ exec (.tickMarker n num period lat) s = .next s) ∧
    (s.fld rTickCtl 0 2 = 2 → s.fld rTickCtl 2 2 = n → s.lkUp n = true → s.frameRuns = false → Does (.tickMarker n num period lat) s (fun t =>
      t.rg rFrameNum = s.rg rFrameNum ∧ t.rg rFramePos = s.rg rFramePos ∧ t.rg rTickStat = s.rg rTickStat)) ∧
    (s.fld rTickCtl 0 2 = 2 → s.fld rTickCtl 2 2 = n → s.lkUp n = true → s.frameRuns = true → Does (.tickMarker n num period lat) s (fun t =>
      t.flag rTickStat 0 = true ∧ t.markNum = some num ∧ t.fld rFrameCtl 0 23 = max 1000 (min 8000000 period.toNat) ∧
      t.tickOut = false)) ∧
    (s.fld rTickCtl 0 2 = 2 → s.fld rTickCtl 2 2 ≠ n ∨ s.lkUp n = false → exec (.tickMarker n num period lat) s = .next s) ∧
    (2 ≤ s.mode → Does .ts64Wrap s (fun t => t.ts64 = 0 ∧ 989 ∈ t.fab.feed))

/-! ## Converters and decimators (chapter 3) -/

/-- R71 to R73, R76 to R83, R86: the code of a conversion is the input against the reference, rounded to the nearest step (a midway
value to the higher one) and limited to the end codes. A trigger of a free, enabled converter schedules the hold edge of its slot,
and one that comes while a sequence is in progress is counted; at its hold edge A the conversion begins. At A + 22 its early result
and at A + 39 its final one come, the latter within 768 units of the former; those of the slot's last conversion are delivered to
ADC_LAST_E or ADC_LAST, to every sample register bound to converter and tag, and to their event sources, and a final word that finds
the queue full is judged at the end of the cycle. Which inputs come is the sender's, and where no command brings a result, a free
value does (log entries 8 and 26). -/
def Obligations.ConversionsFollowTheirTriggers : Prop :=
  ∀ (s : State) (n : Fin 16) (v8 : Byte) (V r : Volts),
    let a := s.adc n
    let slot := if s.flag (rAdcCtl n) 1 then a.slot else 0
    let w := s.slotWord n slot
    let free := if bits w 24 2 = a.tracked then a.freeAt else max a.freeAt s.now
    let osr := bits a.word 16 8 + 1
    let tag := bits a.word 26 5
    let seq := (s.fld (rAdcStat n) 16 16 + 1) % 0x10000
    let early := if osr = 1 then v8.toInt * 256 else roundAway (a.sum + v8.toInt * 256) osr
    let v := clampInt (adcCode V) (a.earlyVal - 768) (a.earlyVal + 768)
    let final := if osr = 1 then v else roundAway (a.sum + v) osr
    let code := adcCode V / 4
    let off := 2 * (16384 * V.vin.toInt - (8192 + code) * (V.vref.toNat : Int))
    let reaches := fun (t : State) (x : Word) (fin : Bool) => ∀ (d : Fin 36) (k : Fin 16), s.domReady d = true → k ∈ s.bound d n tag →
      (t.core (coreId d)).smp[k] = x ∧ (t.core (coreId d)).newE.getLsbD k = true ∧
      (fin = true → (t.core (coreId d)).newF.getLsbD k = true)
    (0 < V.vref.toNat → adcCode V = 4 * code ∧ -8192 ≤ code ∧ code ≤ 8191 ∧
      (code ≠ -8192 → -(V.vref.toNat : Int) ≤ off) ∧ (code ≠ 8191 → off < V.vref.toNat)) ∧
    (s.adcOn n = true → s.adcEn n = true → s.flag (rAdcStat n) 2 = false →
      (s.adcBusy n = false → a.busy = false → Does (.adcTrigger n) s (fun t =>
        (t.adc n).busy = true ∧ (t.adc n).trigAt = s.now ∧ (t.adc n).word = w ∧ (t.adc n).slot = slot ∧ (t.adc n).convs = 0 ∧
        (t.adc n).step = s.flag (rAdcCtl n) 1 ∧
        (t.adc n).nextHold = some (max (s.now + 1 + bits w 0 16) (free + s.fld (rAdcCtl n) 8 8)) ∧ t = s.setAdc n (t.adc n))) ∧
      (s.adcBusy n = false → a.busy = true → exec (.adcTrigger n) s = .next s) ∧
      (s.adcBusy n = true → Does (.adcTrigger n) s (fun t => t.flag (rAdcStat n) 9 = true ∧
        t.fld (rAdcCnt n) 16 16 = min 0xFFFF (s.fld (rAdcCnt n) 16 16 + 1) ∧ t.adcs = s.adcs ∧ s.regsBut t [rAdcStat n, rAdcCnt n]))) ∧
    (s.adcEn n = false ∨ s.adcOn n = false ∨ s.flag (rAdcStat n) 2 = true → exec (.adcTrigger n) s = .next s) ∧
    (∀ h, a.nextHold = some h → h ≤ s.now → a.inFlight = none → Does (.holdEdge n) s (fun t =>
      (t.adc n).convs = a.convs + 1 ∧ (t.adc n).inFlight = some s.now ∧ (t.adc n).earlyDone = false ∧ (t.adc n).freeAt = s.now + 40 ∧
      (t.adc n).nextHold = (if a.convs + 1 < osr then some (s.now + 40 + a.acq) else none) ∧
      (a.late = true → t.flag (rAdcStat n) 8 = true ∧ t.fld (rAdcCnt n) 0 16 = min 0xFFFF (s.fld (rAdcCnt n) 0 16 + 1)))) ∧
    (a.nextHold = none ∨ a.inFlight ≠ none → exec (.holdEdge n) s = .next s) ∧
    (∀ h, a.nextHold = some h → s.now < h → exec (.holdEdge n) s = .next s) ∧
    ((∀ h, a.inFlight = some h → s.now ≠ h + 22) → exec (.earlyResult n v8) s = .next s) ∧
    ((∀ h, a.inFlight = some h → s.now ≠ h + 39) → exec (.finalResult n V r) s = .next s) ∧
    (∀ h, a.inFlight = some h → (∀ d, d < 36 → s.holder d = d) → s.domReady (37 + n) = true →
      (s.now = h + 22 → a.last = true → a.earlyDone = false → Does (.earlyResult n v8) s (fun t =>
        let x := sampleWord early (s.fld (rAdcStat n) 16 16 + 1) (s.relieved n) true n
        t.rg (rAdcLastE n) = x ∧ reaches t x false ∧ (t.adc n).earlyDone = true ∧ (t.adc n).earlyVal = v8.toInt * 256 ∧
        320 + 4 * n.val ∈ t.fab.feed)) ∧
      (s.now = h + 39 → a.last = true → ((s.adcCycleEnd n).adc n).inFlight = none ∧ (s.adcCycleEnd n).fld (rAdcStat n) 16 16 = seq) ∧
      (s.now = h + 39 → a.last = true → Does (.finalResult n V r) s (fun t =>
        let x := sampleWord final seq (s.relieved n) false n
        let on := s.flag (rAdcQCtl n) 0 = true ∧ s.flag (rAdcQCtl n) (4 + bits a.word 24 2) = true
        t.rg (rAdcLast n) = x ∧ t.fld (rAdcStat n) 16 16 = seq ∧ reaches t x true ∧ (t.adc n).inFlight = none ∧
        320 + 4 * n.val + 1 ∈ t.fab.feed ∧ (on → a.gap = none → a.queue.length < 64 → (t.adc n).queue = a.queue ++ [x]) ∧
        (on → a.gap = none → 64 ≤ a.queue.length → (t.adc n).queue = a.queue ∧
          ((t.qJudge n).adc n).queue = a.queue ∧ ((t.qJudge n).adc n).gap ≠ none ∧ (t.qJudge n).flag (rAdcQStat n) 8 = true ∧
          ∀ y ys, a.queue = y :: ys → ys.length = 63 → (((t.qRead n).2.qJudge n).adc n).queue = ys ++ [x]) ∧
        (on → a.gap ≠ none → (t.adc n).queue = a.queue ∧ t.flag (rAdcQStat n) 8 = true) ∧
        (¬ on → (t.adc n).queue = a.queue))) ∧
      (s.now = h + 39 → a.last = false → Does (.finalResult n V r) s (fun t =>
        (t.adc n).sum = a.sum + v ∧ (t.adc n).inFlight = none ∧ (t.adc n).queue = a.queue ∧ t.cores = s.cores ∧ t.fab = s.fab)))

/-- R80, R84, R85, R88, R103: a read of ADC_Q_DATA by any master takes the oldest entry, and finds 0xFFFFFFFF in an empty queue;
FLUSH empties it; the gap marker goes into the place that a removal freed. ADC_CTL and FLUSH are written by SC, the debug port and
the unit's owner, any other master's write is DENIED; a converter whose domain is off answers with TIMEOUT. -/
def Obligations.QueueAndControlOfAConverter : Prop :=
  ∀ (s : State) (m : Master) (x : Ctx) (n : Fin 16) (v : Word),
    let a := s.adc n
    (s.enters m false x [rAdc n 0x60] → s.domReady (37 + n) = true →
      (∀ w ws, a.queue = w :: ws → Does (.adcQDataRead m n) s (fun t => t.resp = ⟨none, w⟩ ∧ (t.adc n).queue = ws ∧ s.regsBut t [] ∧
        t = { s.setAdc n (t.adc n) with resp := t.resp })) ∧
      (a.queue = [] → Does (.adcQDataRead m n) s (fun t => t.resp = ⟨none, 0xFFFFFFFF⟩ ∧ t.flag (rAdcQStat n) 10 = true ∧
        t.adcs = s.adcs ∧ s.regsBut t [rAdcQStat n]))) ∧
    (s.enters m false x [rAdc n 0x60] → s.domReady (37 + n) = false → exec (.adcQDataRead m n) s = .next (s.refuse .timeout)) ∧
    (∀ w, a.gap = some w → a.queue.length < 64 → Does (.gapMarkerWrite n) s (fun t =>
      (t.adc n).queue = a.queue ++ [w] ∧ (t.adc n).gap = none)) ∧
    (a.gap = none ∨ 64 ≤ a.queue.length → exec (.gapMarkerWrite n) s = .next s) ∧
    (s.enters m true x [rAdc n 0x68, rAdc n 0x40] → s.domReady (37 + n) = true → s.unitMay x (68 + n) = true →
      Does (.adcQFlush m n) s (fun t => (t.adc n).queue = [] ∧ (t.adc n).gap = none ∧ t.fld (rAdcQStat n) 16 16 = s.fld (rAdcQStat n) 16 16 ∧
        t.resp = ⟨none, 0⟩ ∧ s.regsBut t [rAdcQCtl n]) ∧
      Does (.adcCtlWrite m n v) s (fun t => t.flag (rAdcCtl n) 1 = bit v 1 ∧ t.fld (rAdcCtl n) 8 8 = max 24 (min 255 (bits v 8 8)) ∧
        (s.flag (rAdcStat n) 2 = false → t.adcEn n = bit v 0) ∧
        (s.flag (rAdcStat n) 2 = true → t.adcEn n = false ∧ (t.adc n).enPend = bit v 0) ∧
        (s.flag (rAdcStat n) 2 = false → s.adcEn n = true → bit v 0 = false → a.busy = true → 0 < a.convs → (t.adc n).abandon = true) ∧
        (t.adc n).step = a.step ∧
        t.resp = ⟨none, 0⟩ ∧ s.regsBut t [rAdcCtl n])) ∧
    (s.enters m true x [rAdc n 0x68, rAdc n 0x40] → s.domReady (37 + n) = true → s.unitMay x (68 + n) = false →
      exec (.adcQFlush m n) s = .next (s.refuse .denied) ∧ exec (.adcCtlWrite m n v) s = .next (s.refuse .denied)) ∧
    (s.enters m true x [rAdc n 0x68, rAdc n 0x40] → s.domReady (37 + n) = false →
      exec (.adcQFlush m n) s = .next (s.refuse .timeout) ∧ exec (.adcCtlWrite m n v) s = .next (s.refuse .timeout))

/-- R90 to R97: a calibration that is due or requested joins its group's queue once; a free relief converter calibrates itself,
serves a disabled converter in place, or begins a cross-check; a cross-check that passes hands the target over, between two slots,
for 16,000 cycles, one that fails is recorded; each calibration that ends, not before its 16,000 cycles are over, frees what it
used. Which measurements come is the sender's (log entries 8 and 26). -/
def Obligations.CalibrationsQueueServeAndEnd : Prop :=
  ∀ (s : State) (m : Master) (x : Ctx) (n : Fin 16) (g : Fin 2),
    let q := s.relief (reliefOf n)
    let r := s.relief g
    let rl := fun (t : State) => t.fld (rRlStat g) 4 3
    let free := q.queue.contains n = false ∧ q.target ≠ some n
    let self := r.selfReq = true ∨ (s.fld rCalCtl 0 10 ≠ 0 ∧ r.queue ≠ [] ∧ r.selfEnd + s.fld rCalCtl 0 10 * msCycles ≤ s.now)
    (s.enters m true x [rCalReq] → x.free = true →
      (s.adcOn n = true → (s.adcEn n = true → s.domReady (reliefDom (reliefOf n)) = true) →
        (free → Does (.calReqAdc m n) s (fun t => (t.relief (reliefOf n)).queue = q.queue ++ [n] ∧
          (t.relief (reliefOf n)).requested = q.requested ++ [n] ∧ t.flag (rAdcCal n) 2 = true ∧ s.regsBut t [rAdcCal n])) ∧
        (¬ free → Does (.calReqAdc m n) s (fun t => s.regsBut t [] ∧ s.regsOnly t ∧ t.resp = ⟨none, 0⟩))) ∧
      Does (.calReqRla m) s (fun t => (t.relief 0).selfReq = true ∧ s.regsBut t []) ∧
      Does (.calReqRlb m) s (fun t => (t.relief 1).selfReq = true ∧ s.regsBut t [])) ∧
    (s.enters m true x [rCalReq] → x.free = false → exec (.calReqAdc m n) s = .next (s.refuse .denied) ∧
      exec (.calReqRla m) s = .next (s.refuse .denied) ∧ exec (.calReqRlb m) s = .next (s.refuse .denied)) ∧
    (s.adcEn n = true → s.adcOn n = true → s.fld rCalCtl 0 10 ≠ 0 → s.domReady (reliefDom (reliefOf n)) = true → free →
      (s.now < (s.adc n).calEnd + s.fld rCalCtl 0 10 * msCycles → exec (.calibrationDue n) s = .next s) ∧
      ((s.adc n).calEnd + s.fld rCalCtl 0 10 * msCycles ≤ s.now → Does (.calibrationDue n) s (fun t => (t.relief (reliefOf n)).queue = q.queue ++ [n] ∧ t.flag (rAdcCal n) 2 = true))) ∧
    (r.target = none → rl s = 0 → s.domReady (reliefDom g) = true →
      (self → Does (.calibrationServiceStart g) s (fun t => rl t = 3 ∧ (t.relief g).selfReq = false ∧
        t.due = s.due ++ [(s.now + 16000, .reliefSelfCalibrationEnd g)])) ∧
      (∀ k rest, r.queue = k :: rest → ¬ self → Does (.calibrationServiceStart g) s (fun t =>
        (t.relief g).queue = rest ∧ (t.relief g).target = some k ∧ t.flag (rAdcCal k) 2 = false ∧
        (s.adcEn k = true → rl t = 1 ∧ (t.relief g).count = 0 ∧ t.due = s.due) ∧
        (s.adcEn k = false → t.flag (rAdcStat k) 2 = true ∧ t.due = s.due ++ [(s.now + 16000, .inPlaceCalibrationEnd k)])))) ∧
    (r.target = some n → rl s = 1 → 64 ≤ r.count → s.slotUnderWay n = true → exec (.crossCheckComplete g) s = .next s) ∧
    (r.target = some n → rl s = 1 → 64 ≤ r.count → s.slotUnderWay n = false → Does (.crossCheckComplete g) s (fun t =>
      let limit := s.fld rCalCtl 16 4
      let pass := r.sumDiff.natAbs ≤ 64 * (limit * 4) ∧ r.maxDiff ≤ 16 * limit
      (pass → rl t = 2 ∧ t.relieved n = true ∧ t.due = s.due ++ [(s.now + 16000, .calibrationEnd g)]) ∧
      (¬ pass → rl t = 0 ∧ (t.relief g).target = none ∧ t.flag (rAdcCal n) 0 = true ∧
        t.fld (rAdcCal n) 16 8 = min 255 (s.fld (rAdcCal n) 16 8 + 1) ∧ (r.requested.contains n = true → 999 ∈ t.fab.feed)))) ∧
    (s.now < r.calEnd → exec (.calibrationEnd g) s = .next s ∧ exec (.reliefSelfCalibrationEnd g) s = .next s) ∧
    (r.target = some n → rl s = 2 → r.calDone = false → r.calEnd ≤ s.now → Does (.calibrationEnd g) s (fun t =>
      (t.relief g).calDone = true ∧ (t.relief g).calEnd = s.now ∧ t.fld (rAdcCal n) 24 8 = (s.fld (rAdcCal n) 24 8 + 1) % 256 ∧
      (r.requested.contains n = true → 999 ∈ t.fab.feed))) ∧
    (rl s = 3 → r.calEnd ≤ s.now → Does (.reliefSelfCalibrationEnd g) s (fun t => rl t = 0 ∧ (t.relief g).selfEnd = s.now ∧
      (r.selfAsked = true → 999 ∈ t.fab.feed))) ∧
    (s.now < q.calEnd → exec (.inPlaceCalibrationEnd n) s = .next s) ∧
    (s.flag (rAdcStat n) 2 = true → q.calEnd ≤ s.now → Does (.inPlaceCalibrationEnd n) s (fun t => t.flag (rAdcStat n) 2 = false ∧
      (t.relief (reliefOf n)).target = none ∧ t.adcEn n = (s.adcEn n || (s.adc n).enPend) ∧
      t.fld (rAdcCal n) 24 8 = (s.fld (rAdcCal n) 24 8 + 1) % 256))

/-- R100 to R102: a decimator's output reaches SD_DATA, the sample registers bound to it and its source; a sync input sets its bit
count at the edge after it and suppresses the next three outputs; a modulator that falls silent for 1,024 cycles or stays at one
level for 4 × D bits is recorded. -/
def Obligations.DecimatorsDeliverAndReport : Prop :=
  ∀ (s : State) (g : Fin 8),
    let p := s.sd g
    let tag := bits (s.sdCtl g) 16 5
    let phase := min (min 255 (bits (s.sdSyncReg g) 0 9)) (s.sdDec g - 1)
    (p.out = [] → exec (.decimatorOutput g) s = .next s) ∧
    (∀ o rest, p.out = o :: rest → s.now < o.1 → exec (.decimatorOutput g) s = .next s) ∧
    (∀ o rest, p.out = o :: rest → o.1 ≤ s.now → s.domReady (68 + g) = true → (∀ d, d < 36 → s.holder d = d) → Does (.decimatorOutput g) s (fun t =>
      t.rg (rSdData g) = o.2 ∧ t.fld (rSdStat g) 16 16 = (s.fld (rSdStat g) 16 16 + 1) % 0x10000 ∧ (t.sd g).out = rest ∧
      (∀ (d : Fin 36) (k : Fin 16), s.domReady d = true → k ∈ s.bound d (16 + g) tag → (t.core (coreId d)).smp[k] = o.2 ∧
        (t.core (coreId d)).newE.getLsbD k = true ∧ (t.core (coreId d)).newF.getLsbD k = true) ∧
      672 + 12 * g.val + 3 * bits (s.sdCtl g) 1 2 + 1 ∈ t.fab.feed)) ∧
    (s.sdOn g = true → bit (s.sdSyncReg g) 16 = true → Does (.sdSync g) s (fun t =>
      let v := t.sdSyncTake
      let u := State.sdSyncAct t v g
      t = s.setSd g { p with syncDue := true } ∧ (v.sd g).syncDue = false ∧ (v.sd g).count = p.count ∧
      (p.count ≠ phase → (u.sd g).count = phase ∧ (u.sd g).suppress = 3 ∧ u.flag (rSdStat g) 0 = true ∧ s.regsBut u [rSdStat g]) ∧
      (p.count = phase → u = v))) ∧
    (bit (s.sdSyncReg g) 16 = false → exec (.sdSync g) s = .next s) ∧
    (s.sdOn g = true → p.lastBit + 1024 ≤ s.now → Does (.decimatorStall g) s (fun t => t.flag (rSdStat g) 1 = true ∧ (t.sd g).out = [] ∧ s.regsBut t [rSdStat g])) ∧
    (s.sdOn g = true → 4 * s.sdDec g ≤ p.run → Does (.decimatorStuck g) s (fun t => t.flag (rSdStat g) 2 = true ∧ t.sds = s.sds ∧ s.regsBut t [rSdStat g])) ∧
    (s.sdOn g = false ∨ s.now < p.lastBit + 1024 → exec (.decimatorStall g) s = .next s) ∧
    (s.sdOn g = false ∨ p.run < 4 * s.sdDec g → exec (.decimatorStuck g) s = .next s) ∧
    (s.sdOn g = false → exec (.sdSync g) s = .next s)

/-! ## Comparators (chapter 4) -/

/-- R107, R108, R110, R113, R121, R122: an armed, clear latch that samples an outside output sets, records its side and counts, and
its source activates; one that is not armed (as every one in DORMANT, R121), or inside, stays; the hold-off ends and the arm point
is reached by their commands. Latches are cleared by SC, the debug port and the owner, through CMP_STAT or LATCH_SUM. -/
def Obligations.LatchesSetAndClear : Prop :=
  ∀ (s : State) (m : Master) (x : Ctx) (n : Fin 32) (out : CmpState) (v : Word),
    let side := fun (o : CmpState) => o == .below
    let sets := fun (t : State) (o : CmpState) => t.flag (rCmpStat n) 2 = true ∧ t.flag (rCmpStat n) 3 = side o ∧
      t.fld (rCmpCnt n) 0 16 = min 0xFFFF (s.fld (rCmpCnt n) 0 16 + 1) ∧ 384 + 2 * n.val + b2n (side o) ∈ t.fab.feed
    let clear := s.flag (rCmpStat n) 2 = false
    (s.cmpArmed n = true → clear → out ≠ .inside → Does (.latchSet n out) s (fun t => (t.cmp n).raw = out ∧ sets t out)) ∧
    (s.cmpArmed n = false ∨ ¬ clear ∨ out = .inside → Does (.latchSet n out) s (fun t => (t.cmp n).raw = out ∧ s.regsBut t [] ∧ t.fab = s.fab)) ∧
    (s.cmpOn n = true → s.testing 4 n = false → (s.cmp n).guard = 0 →
      ((s.cmp n).holdOff = 0 → Does (.armPointReached n) s (fun t => s.cmpArm n ≤ t.cmpElapsed n) ∧
        (clear → (s.cmp n).raw ≠ .inside → Does (.armPointReached n) s (fun t => sets t (s.cmp n).raw))) ∧
      Does (.holdOffEnd n) s (fun t => (t.cmp n).holdOff = 0 ∧
        (clear → (s.cmp n).raw ≠ .inside → s.cmpArm n ≤ s.cmpElapsed n → sets t (s.cmp n).raw))) ∧
    (s.mode = 0 → s.cmpOn n = false) ∧
    (s.cmpOn n = false → exec (.armPointReached n) s = .next s ∧ exec (.holdOffEnd n) s = .next s) ∧
    (s.enters m true x [rCmpStat n, rLatchSum] → s.domReady (80 + n / 16) = true → s.unitMay x (84 + n) = true → sget 0 s.hwSet (rCmpStat n) = 0 →
      Does (.latchClear m n) s (fun t => t.flag (rCmpStat n) 2 = false ∧ s.regsBut t [rCmpStat n] ∧ s.regsOnly t ∧ t.resp = ⟨none, 0⟩) ∧
      Does (.latchSumClear m v) s (fun t => t.flag (rCmpStat n) 2 = (s.flag (rCmpStat n) 2 && !bit v n) ∧
        s.regsOnly t ∧ t.resp = ⟨none, 0⟩)) ∧
    (s.enters m true x [rCmpStat n, rLatchSum] → s.domReady (80 + n / 16) = true → s.unitMay x (84 + n) = false →
      exec (.latchClear m n) s = .next (s.refuse .denied)) ∧
    (s.enters m true x [rCmpStat n, rLatchSum] → (∀ i : Fin 32, s.unitMay x (84 + i) = false) → exec (.latchSumClear m v) s = .next (s.refuse .denied)) ∧
    (s.enters m true x [rCmpStat n, rLatchSum] → s.domReady (80 + n / 16) = false → exec (.latchClear m n) s = .next (s.refuse .timeout))

/-! ## PWM timers and general timers (chapter 5) -/

/-- R126, R130, R133, R142, R150, R159, R161: writes of RLD, SHA and SHB by an owner of either pin reach the buffers, or wait while
HOLD is 1; HOLD, LOADPH and UNTRIP act as the control register says; HOLD going to 0 commits what was staged. Any other master is
DENIED. -/
def Obligations.TimerWritesReachTheBuffers : Prop :=
  ∀ (s : State) (m : Master) (x : Ctx) (n : Fin 48) (b hold : Bool) (v : Word), s.enters m true x [rPt n 0x44, rPt n 0x48, rPt n 0x4C, rPt n 0x58] →
    let p := s.pt n
    let sh := if b then rPtShB n else rPtShA n
    (s.ptMay x n = true → s.flag (rPtCtl n) 0 = false →
      Does (.reloadWrite m n v) s (fun t => t.rg (rPtRld n) = BitVec.ofNat 32 (max 1 (min 0x7FFFFFF v.toNat)) ∧ s.regsBut t [rPtRld n] ∧ t.pts = s.pts ∧ t.resp = ⟨none, 0⟩) ∧
      Does (.shadowWrite m n b v) s (fun t => t.rg sh = v ∧ (if b then (t.pt n).immB else (t.pt n).immA) = true ∧ s.regsBut t [sh] ∧
        (s.setPt n (t.pt n)).regsOnly t ∧ t.resp = ⟨none, 0⟩)) ∧
    (s.ptMay x n = true → s.flag (rPtCtl n) 0 = true →
      Does (.reloadWrite m n v) s (fun t => (t.pt n).stRld = some v ∧ s.regsBut t [] ∧ t.resp = ⟨none, 0⟩) ∧
      Does (.shadowWrite m n b v) s (fun t => (if b then (t.pt n).stShB else (t.pt n).stShA) = some v ∧ s.regsBut t [] ∧ t.resp = ⟨none, 0⟩) ∧
      Does (.holdWrite m n false) s (fun t => t.flag (rPtCtl n) 0 = false ∧ (t.pt n).stRld = none ∧ (t.pt n).stShA = none ∧
        (t.pt n).stShB = none ∧ (∀ w, p.stShA = some w → t.rg (rPtShA n) = w ∧ (t.pt n).immA = true) ∧
        (∀ w, p.stShB = some w → t.rg (rPtShB n) = w ∧ (t.pt n).immB = true) ∧
        (∀ w, p.stRld = some w → t.rg (rPtRld n) = BitVec.ofNat 32 (max 1 (min 0x7FFFFFF w.toNat))) ∧
        s.regsBut t [rPtCtl n, rPtRld n, rPtShA n, rPtShB n])) ∧
    (s.ptMay x n = true →
      Does (.holdWrite m n true) s (fun t => t.flag (rPtCtl n) 0 = true ∧ s.regsBut t [rPtCtl n] ∧ t.pts = s.pts ∧ t.resp = ⟨none, 0⟩) ∧
      Does (.loadph m n) s (fun t => (t.pt n).loadph = true ∧ s.regsBut t [] ∧ t.resp = ⟨none, 0⟩) ∧
      (s.flag (rPtStat n) 0 = true → bit (s.ptSet n 0) 6 = true → Does (.untrip m n) s (fun t =>
        t.flag (rPtStat n) 7 = true ∧ t.flag (rPtStat n) 0 = true ∧ s.regsBut t [rPtStat n] ∧ t.pts = s.pts)) ∧
      (s.flag (rPtStat n) 0 = false → Does (.untrip m n) s (fun t => s.regsBut t [] ∧ t.pts = s.pts))) ∧
    (s.ptMay x n = false → exec (.reloadWrite m n v) s = .next (s.refuse .denied) ∧ exec (.shadowWrite m n b v) s = .next (s.refuse .denied) ∧
      exec (.holdWrite m n hold) s = .next (s.refuse .denied) ∧ exec (.loadph m n) s = .next (s.refuse .denied) ∧
      exec (.untrip m n) s = .next (s.refuse .denied))

/-- R109, R127, R129, R139, R140, R142, R149: the events of a PWM timer: at zero its counter is 0 and its zero source activates,
which ends a trip whose line is low (for a latched trip, once UNTRIP has been written) and puts ELAPSED of the comparators bound to
it to 0; a compare match activates its source; a trip sets TRIPPED and counts; a dead time that expires lets its pin rise; a sync
event loads PHASE. SYNC_EVENT follows log entry 41. -/
def Obligations.TimerEventsActAndActivate : Prop :=
  ∀ (s : State) (n : Fin 48) (b : Bool),
    let p := s.pt n
    let mode := s.ptSet n 0
    (s.ptEn n = true →
      Does (.zeroEvent n) s (fun t => (t.pt n).cnt = 0 ∧ (t.pt n).evZ = true ∧ 4 * n.val ∈ t.fab.feed ∧
        t.flag (rPtStat n) 0 = (s.flag (rPtStat n) 0 && (p.tripLine || (bit mode 6 && !s.flag (rPtStat n) 7))) ∧
        ∀ c : Fin 32, bit (s.cmpCfg c) 2 = true → bits (s.cmpCfg c) 8 6 = n.val → t.cmpElapsed c = 0) ∧
      Does (.compareMatch n b) s (fun t => (t.pt n).cnt = s.fld (if b then rPtCmpB n else rPtCmpA n) 5 27 ∧
        (if b then (t.pt n).evB else (t.pt n).evA) = some (fracOf (s.rg (if b then rPtCmpB n else rPtCmpA n))) ∧
        4 * n.val + 1 + b2n b ∈ t.fab.feed)) ∧
    (s.ptEn n = false → exec (.zeroEvent n) s = .next s ∧ exec (.compareMatch n b) s = .next s ∧ exec (.syncEvent (.pt n)) s = .next s) ∧
    (s.flag (rPtStat n) 0 = false → Does (.tripEntry n) s (fun t => t.flag (rPtStat n) 0 = true ∧
      t.fld (rPtStat n) 16 16 = min 0xFFFF (s.fld (rPtStat n) 16 16 + 1) ∧ 4 * n.val + 3 ∈ t.fab.feed ∧
      (bit mode 5 = true → s.testing 9 n = false → bits (s.ptSet n 4) 6 2 = 1 → p.shA = false → s.pinsHighZ = false → (t.pt n).pinA = some true) ∧
      (bit mode 5 = true → s.testing 9 n = false → bits (s.ptSet n 4) 6 2 = 2 → p.shA = false → s.pinsHighZ = false → (t.pt n).pinA = some false))) ∧
    (s.flag (rPtStat n) 0 = true → exec (.tripEntry n) s = .next s) ∧
    (p.riseA ≠ none → p.la = true → Does (.deadTimeExpiry n false) s (fun t => (t.pt n).dA = true ∧ (t.pt n).riseA = none ∧ s.regsBut t [])) ∧
    (p.riseB ≠ none → p.la = false → Does (.deadTimeExpiry n true) s (fun t => (t.pt n).dB = true ∧ (t.pt n).riseB = none ∧ s.regsBut t [])) ∧
    (p.riseA = none → exec (.deadTimeExpiry n false) s = .next s) ∧
    (bit mode 7 = true → bits mode 8 3 = 2 →
      Does (.syncEvent (.pt n)) s (fun t => (t.pt n).cnt = bits (s.ptSet n 0x18) 0 27))

/-- R151 to R157: the events of a general timer: zero, a compare match, a capture (which sets the capture flag, and the overrun flag
where it stood); a read of a capture clears its flag; the low word of a cascade, of TS64 or of a counter latches the high one for
that master; the low word of a cascade's reload or compare waits for the high one. SYNC_EVENT follows log entry 41. -/
def Obligations.GeneralTimersCountCaptureAndLatch : Prop :=
  ∀ (s : State) (m : Master) (x : Ctx) (n : Fin 32) (i : Fin 4) (k : Fin 16) (v : Word),
    let lo : Fin 32 := ⟨2 * k.val, by omega⟩
    let snapped := fun (t : State) (key : Nat) (w : Word) => (t.readHigh x.id key 0).1 = w
    (bit (s.gtSet n 0) 0 = true → s.gtUpper n = false → s.gtCasc n = false →
      Does (.gtZero n) s (fun t => (t.gt n).cnt = 0 ∧ s.regsBut t [] ∧ t = s.setGt n (t.gt n)) ∧
      (s.ccm n i 0 2 = 1 → Does (.gtCompareMatch n i) s (fun t => (t.gt n).cnt = (s.rg (rGtCcr n i)).toNat ∧
        t.flag (rGtStat n) (8 + i) = true ∧ 192 + 4 * n.val + i.val ∈ t.fab.feed)) ∧
      (bits (s.gtSet n 0) 2 3 = 2 →
        Does (.syncEvent (.gt n)) s (fun t => (t.gt n).cnt = (s.gtSet n 0x0C).toNat))) ∧
    (bit (s.gtSet n 0) 0 = false → exec (.gtZero n) s = .next s ∧ exec (.gtCompareMatch n i) s = .next s ∧
      exec (.syncEvent (.gt n)) s = .next s) ∧
    (s.ccm n i 0 2 = 2 → s.gtUpper n = false → s.gtCasc n = false → (s.gt n).caps = [] → bit (s.gtSet n 0) 0 = true → Does (.gtCapture n i) s (fun t =>
      t.rg (rGtCcr n i) = BitVec.ofNat 32 (s.gt n).cnt ∧ t.flag (rGtStat n) i = true ∧
      t.flag (rGtStat n) (4 + i) = (s.flag (rGtStat n) (4 + i) || s.flag (rGtStat n) i) ∧ 192 + 4 * n.val + i.val ∈ t.fab.feed)) ∧
    (bit (s.gtSet n 0) 0 = false ∨ s.ccm n i 0 2 ≠ 2 → exec (.gtCapture n i) s = .next s) ∧
    (∀ e w, (e, i.val, w) ∈ (s.gt n).caps → exec (.gtCapture n i) s = .next s) ∧
    (s.enters m true x [rGt n 0x28] → s.unitMay x n = true → Does (.gtLoadph m n) s (fun t => (t.gt n).loadph = true ∧ s.regsBut t [] ∧ t.resp = ⟨none, 0⟩)) ∧
    (s.enters m true x [rGt n 0x28] → s.unitMay x n = false → exec (.gtLoadph m n) s = .next (s.refuse .denied)) ∧
    (s.enters m false x ([rGt n (0x30 + 4 * i.val), rTs64Lo, lowAddr (.gtCnt k), lowAddr (.gtCcr k i)] ++
        (List.range 64).map (fun j => rPm j 4) ++ [rEth 0 0x18, rEth 0 0x20, rEth 1 0x18, rEth 1 0x20]) →
      (s.gtCasc n = false → s.gtUpper n = false → Does (.gtCcrRead m n i) s (fun t => t.resp = ⟨none, s.rg (rGtCcr n i)⟩ ∧
        t.flag (rGtStat n) i = false ∧ s.regsBut t [rGtStat n])) ∧
      Does (.lowWordRead m .ts64) s (fun t => t.resp = ⟨none, s.ts64.extractLsb' 0 32⟩ ∧ snapped t rTs64Hi (s.ts64.extractLsb' 32 32)) ∧
      (∀ j : Fin 64, Does (.lowWordRead m (.pm j)) s (fun t => t.resp = ⟨none, s.rg (rPm j 4)⟩ ∧ snapped t (rPm j 8) (s.rg (rPm j 8)))) ∧
      (s.domReady 82 = true → ∀ (p : Fin 2) (tx : Bool), let off := if tx then 0x20 else 0x18
        Does (.lowWordRead m (.ethTs p tx)) s (fun t => t.resp = ⟨none, s.rg (rEth p off)⟩ ∧ snapped t (rEth p (off + 4)) (s.rg (rEth p (off + 4))))) ∧
      (s.gtCasc lo = true →
        Does (.lowWordRead m (.gtCnt k)) s (fun t => t.resp = ⟨none, BitVec.ofNat 32 (s.gt lo).cnt⟩ ∧
          snapped t (rGt (gtMate lo) 0x20) (BitVec.ofNat 32 (s.gt (gtMate lo)).cnt)) ∧
        Does (.lowWordRead m (.gtCcr k i)) s (fun t => t.resp = ⟨none, s.rg (rGtCcr lo i)⟩ ∧
          snapped t (rGtCcr (gtMate lo) i) (s.rg (rGtCcr (gtMate lo) i)) ∧ t.flag (rGtStat lo) i = false))) ∧
    (s.enters m true x [cascadeAddr (.rld k), cascadeAddr (.ccr k i)] → s.unitMay x lo = true → s.gtCasc lo = true →
      Does (.cascadeLowWrite m (.rld k) v) s (fun t => (t.gt lo).stRld = some v ∧ s.regsBut t [] ∧ t.resp = ⟨none, 0⟩) ∧
      (s.ccm lo i 0 2 ≠ 2 → Does (.cascadeLowWrite m (.ccr k i) v) s (fun t => (t.gt lo).stCcr[i] = some v ∧ s.regsBut t [] ∧ t.resp = ⟨none, 0⟩)))

/-! ## Event fabric (chapter 11) -/

/-- R41, R305 to R307, R315 to R317, R320, R321: a channel is fired by its owner at its world and level, and rearmed by the same or
by SC; an event counter is cleared by SC and the debug port; a software event's source activates at the next edge (R38), for a
writer whose world is the attribute's and who is its owner, for SC and the debug port; a cell takes its flip-flop, filter and
output once in a cycle, and its source activates at the next edge when the output rises. Every other writer is DENIED, and so is a core
whose descriptors do not grant it the address (R251). A software event's writers are the model's
choice (log entry 32). -/
def Obligations.ChannelsFireAndRearmForTheirOwners : Prop :=
  ∀ (s : State) (m : Master) (x : Ctx) (ch : Fin 256) (n : Fin 32) (f : Fin 16) (c : Fin 36) (i : Fin 128),
    (s.enters m true x [rChFire, rChRearm, rEvcntCtl n] →
      (s.mayFire x ch = true → Does (.chFire m ch) s (fun t => ch ∈ t.fab.fired ∧ (∀ e, e ∈ t.fab.fired ↔ e = ch ∨ e ∈ s.fab.fired) ∧
        t = { s with fab := { s.fab with fired := t.fab.fired }, wrote := t.wrote, resp := ⟨none, 0⟩ })) ∧
      (s.mayFire x ch = false → exec (.chFire m ch) s = .next (s.refuse .denied)) ∧
      (let may := s.mayFire x ch = true ∨ (x.free = true ∧ x.debug = false ∧ bit (s.chAttr ch) 9 = true)
       (may → Does (.chRearm m ch) s (fun t => t.muted ch = false ∧ t.fld (rChCnt ch) 0 16 = 0 ∧
         (∀ d : Fin 256, d ≠ ch → t.muted d = s.muted d) ∧ s.regsBut t [rChMuted (ch / 32), rChCnt ch] ∧
         s.regsOnly t ∧ t.resp = ⟨none, 0⟩)) ∧
       (¬ may → exec (.chRearm m ch) s = .next (s.refuse .denied))) ∧
      (x.free = true → Does (.evcntClear m n) s (fun t => t.fab.evClr = s.fab.evClr ||| BitVec.ofNat 32 (2 ^ n.val) ∧ s.regsBut t [] ∧
        t.resp = ⟨none, 0⟩)) ∧
      (x.free = false → exec (.evcntClear m n) s = .next (s.refuse .denied)) ∧
      (let own := s.swfOwn[f]
       let may := x.free = true ∨ (x.id < 37 ∧ ∀ o w, own = some (o, w) → x.owner = o.val ∧ x.world = w)
       let fires := fun (t : State) (src : Nat) => src ∈ t.fab.coreFires ∧ t.fab.feed = s.fab.feed ∧
         (s.sourceLive src = true → src ∈ t.fireWaiting.fab.feed) ∧
         t = { s with fab := { s.fab with coreFires := t.fab.coreFires }, resp := ⟨none, 0⟩ }
       (s.ownGrants x .write (fireAddr (.swf f)) = true → (may → Does (.softwareFire m (.swf f)) s (fun t => fires t (1008 + f.val))) ∧
         (¬ may → exec (.softwareFire m (.swf f)) s = .next (s.refuse .denied))) ∧
       (s.ownGrants x .write (fireAddr (.coreEvent c)) = true → x.free = true ∨ x.owner = c.val →
         Does (.softwareFire m (.coreEvent c)) s (fun t => fires t (448 + 2 * c.val)))) ∧
      (x.free = false → x.owner ≠ c.val → exec (.softwareFire m (.coreEvent c)) s = .next (s.refuse .denied))) ∧
    (∀ target, s.enters m true x [] → s.ownGrants x .write (fireAddr target) = false →
      exec (.softwareFire m target) s = .next (s.refuse .denied)) ∧
    (sfind s.fab.ended i.val = none → Does (.cellOutputChange i) s (fun t =>
      let v := sget ⟨false, false, false, false⟩ s.cellVals i
      let ff := bits (s.cellFn i) 16 2
      (t.cell i).out = v.out ∧ (t.cell i).y = v.y ∧ (ff = 1 → (t.cell i).q = v.f) ∧ (ff = 2 → (t.cell i).q = ((s.cell i).q ^^ v.f)) ∧
      (v.out = true → (s.cell i).out = false → 544 + i.val ∈ t.fab.coreFires) ∧
      (v.out = false ∨ (s.cell i).out = true → t.fab.coreFires = s.fab.coreFires) ∧ t.fab.feed = s.fab.feed ∧ t.regs = s.regs ∧
      (sfind t.fab.ended i.val).isSome)) ∧
    ((sfind s.fab.ended i.val).isSome → exec (.cellOutputChange i) s = .next s)

/-- R6, R8, R35 to R37, R69: REGISTER_WRITE writes the word at an aligned address under the rules of its block, and refuses a
misaligned one and one that the descriptors of the core do not grant (R251). Shown on registers of four kinds: one that SC alone writes, one of a unit, the owner of a unit, and one that does
not exist. The misaligned write's DENIED follows log entry 15. -/
def Obligations.RegisterWritesObeyTheirBlock : Prop :=
  ∀ (s : State) (m : Master) (x : Ctx) (addr v : Word) (u : Fin 116) (n : Fin 16), s.enters m true x [addr.toNat, 0x40010054, 0x40010800, rUnitOwn u, rAdcLim n] →
    (addr.toNat % 4 ≠ 0 → exec (.registerWrite m addr v) s = .next (s.refuse .denied)) ∧
    (∀ a : Word, s.ownGrants x .write a.toNat = false → exec (.registerWrite m a v) s = .next (s.refuse .denied)) ∧
    (x.free = true →
      Does (.registerWrite m 0x40010054 v) s (fun t => t.rg rSwapTarget = v ∧ s.regsBut t [rSwapTarget] ∧
        s.regsOnly t ∧ t.resp = ⟨none, 0⟩) ∧
      Does (.registerWrite m (BitVec.ofNat 32 (rUnitOwn u)) v) s (fun t =>
        t.fld (rUnitOwn u) 0 6 = (if bits v 0 6 < 37 then bits v 0 6 else 36) ∧ t.flag (rUnitOwn u) 6 = bit v 6 ∧
        t.flag (rUnitOwn u) 7 = bit v 7 ∧ s.regsBut t [rUnitOwn u] ∧ s.regsOnly t ∧ t.resp = ⟨none, 0⟩) ∧
      Does (.registerWrite m 0x40010800 v) s (fun t => s.regsBut t [] ∧ s.regsOnly t ∧ t.resp = ⟨none, 0⟩)) ∧
    (x.free = false → exec (.registerWrite m 0x40010054 v) s = .next (s.refuse .denied) ∧
      exec (.registerWrite m (BitVec.ofNat 32 (rUnitOwn u)) v) s = .next (s.refuse .denied)) ∧
    (s.domReady (37 + n) = true → s.unitMay x (68 + n) = true →
      Does (.registerWrite m (BitVec.ofNat 32 (rAdcLim n)) v) s (fun t => t.rg (rAdcLim n) = v ∧ s.regsBut t [rAdcLim n] ∧
        s.regsOnly t ∧ t.resp = ⟨none, 0⟩))

/-! ## SRAM, error correction, sparge and DMA (chapter 12) -/


/-- R325, R333, R334, R336, R338 to R342: the oldest queued write-back of a bank is written; an error that persists takes a remap
entry, or, with none free, is recorded; one that has waited is forced. A sparge region starts on an enabled memory when it is due,
and sets the next one an interval later; one that falls due while the one before runs is recorded; a region without a failing word
ends, moves on and corrects what was correctable in it; a failing word is recorded; a requested fast pass is set up by SC or the
debug port. Which errors come is the sender's (log entries 8 and 38). -/
def Obligations.WriteBacksAndSpargeKeepTheMemories : Prop :=
  (
    ∀ (s : State) (bank : Fin 64) (persists : Bool) (w : WriteBack),
      let first := s.wbq.find? (fun q => bankOf q.addr == bank.val)
      let r := remapField w.addr
      (first = none → exec (.eccWriteBack bank persists) s = .next s ∧ exec (.writeBackForced bank) s = .next s) ∧
      ((∀ q ∈ s.wbq, s.now < q.since + 16) → exec (.writeBackForced bank) s = .next s) ∧
      (first = some w → isSram w.addr = true →
        Does (.eccWriteBack bank false) s (fun t => (∀ q ∈ t.wbq, q.addr ≠ w.addr) ∧ sfind t.ecc w.addr = none ∧ t.remap = s.remap ∧ t.mem = s.mem) ∧
        (s.remap.contains w.addr = false → s.fld r.1 r.2.1 4 < 8 → Does (.eccWriteBack bank true) s (fun t =>
          (∀ q ∈ t.wbq, q.addr ≠ w.addr) ∧ t.remap = s.remap ++ [w.addr] ∧ t.fld r.1 r.2.1 4 = s.fld r.1 r.2.1 4 + 1 ∧
          sfind t.ecc w.addr = none ∧ 932 ∈ t.fab.feed)) ∧
        (s.remap.contains w.addr = false → 8 ≤ s.fld r.1 r.2.1 4 → Does (.eccWriteBack bank true) s (fun t =>
          (∀ q ∈ t.wbq, q.addr ≠ w.addr) ∧ t.remap = s.remap ∧ t.ecc = s.ecc ∧ t.flag (rSram 0) 2 = true ∧ 933 ∈ t.fab.feed)) ∧
        (w.forced = false → w.since + 16 ≤ s.now →
          s.wbq.find? (fun q => bankOf q.addr == bank.val && !q.forced && decide (q.since + 16 ≤ s.now)) = some w →
          Does (.writeBackForced bank) s (fun t => (∀ q ∈ t.wbq, q.addr = w.addr → q.forced = true) ∧ t = { s with wbq := t.wbq })))) ∧
  (
    ∀ (s : State) (m : Master) (x : Ctx) (t0 : SpargeTarget) (i : Fin 16) (q : Fin 8) (c : Fin 37) (v : Word),
      let p := s.spg t0
      let a := s.spargeAddr t0
      let due := p.due = false ∧ p.dueAt ≤ s.now
      (s.spargeOn t0 = true → due → p.busy = false → Does (.spargeRegionStart t0) s (fun t => (t.spg t0).busy = true ∧ (t.spg t0).next = p.next ∧
        (t.spg t0).dueAt = s.now + s.spargePace t0 ∧ t.mem = s.mem)) ∧
      (s.spargeOn t0 = true → due → p.busy = true → Does (.spargeRegionStart t0) s (fun t => (t.spg t0).due = true ∧ (t.spg t0).busy = true ∧
        (∀ k, t0 = .quadrant k → t.flag (rSram 0x110) (8 + k) = true) ∧
        (∀ k, t0 = .local k → t.flag (rSram (0x118 + 4 * (k.val / 32))) (k.val % 32) = true))) ∧
      (s.spargeOn t0 = false ∨ ¬ due → exec (.spargeRegionStart t0) s = .next s) ∧
      (p.busy = true → p.due = false → Does (.spargeRegionEnd t0 []) s (fun t => (t.spg t0).busy = false ∧
        (t.spg t0).next = (if p.next + 1 = spargeRegions t0 then 0 else p.next + 1) ∧ t.mem = s.mem ∧
        (∀ e ∈ t.ecc, e.2 = false → e.1 < a ∨ a + 64 ≤ e.1))) ∧
      (p.busy = true → p.due = false → Does (.spargeRegionEnd t0 [i]) s (fun t => t.flag (rSram 0) 3 = true ∧ 935 ∈ t.fab.feed ∧
        t.rg (rSram 0x120) = BitVec.ofNat 32 (a + (match t0 with | .quadrant _ => 4 * i.val | .local _ => 8 * (i.val % 8))))) ∧
      (p.busy = false → exec (.spargeRegionEnd t0 [i]) s = .next s) ∧
      (s.enters m true x [rSram 0x108] → x.free = true →
        (bits v 0 6 = q.val → bit v 6 = false → (s.spg (.quadrant q)).fast = 0 → Does (.spgReqGo m v) s (fun t =>
          (t.spg (.quadrant q)).fast = 16384 ∧ t.flag (rSram 0x110) q = true ∧ t.resp = ⟨none, 0⟩)) ∧
        (bits v 0 6 = c.val → bit v 6 = true → (s.spg (.local c)).fast = 0 → Does (.spgReqGo m v) s (fun t =>
          (t.spg (.local c)).fast = 3072 ∧ t.resp = ⟨none, 0⟩))) ∧
      (s.enters m true x [rSram 0x108] → x.free = false → exec (.spgReqGo m v) s = .next (s.refuse .denied)))

/-- R328, R343 to R345: GO loads a descriptor and makes the channel active; STOP ends it, at once where no request is pending; a
request is held, and merged while one is pending; an element moves its bytes from source to destination, advances the addresses and
the count, and at the end of the last descriptor stops the channel; a bank that does not admit its world stops it with an error; a
wait above THR for a bank that the element has to reach is recorded, once for each access to it. When an element is granted is the sender's (log entry 30). -/
def Obligations.DmaChannelsMoveElements : Prop :=
  ∀ (s : State) (m : Master) (x : Ctx) (n : Fin 16) (start : BitVec 11) (bank : Fin 64),
    let d := s.dma n
    let w := fun (o : Nat) => s.act 11 (32 * min 1535 start.toNat + o)
    let sz := dmaBytes d
    let rem := s.fld (rDma n 8) 0 16
    let active := s.dmaActive n
    let pend := s.dmaPend n
    (s.enters m true x [rDma n 0] → s.unitMay x (32 + n) = true →
      Does (.dmaGo m n start) s (fun t => t.dmaActive n = true ∧ t.dmaPend n = false ∧ (t.dma n).src = w 0 ∧ (t.dma n).dst = w 4 ∧
        (t.dma n).attr = w 12 ∧ (t.dma n).own = w 16 ∧ t.fld (rDma n 8) 0 16 = max 1 (bits (w 8) 0 16) ∧
        t.fld (rDma n 4) 16 11 = min 1535 start.toNat ∧ t.resp = ⟨none, 0⟩) ∧
      (active = true → pend = false → Does (.dmaStop m n) s (fun t => t.dmaActive n = false ∧ t.mem = s.mem ∧ t.resp = ⟨none, 0⟩)) ∧
      (active = true → pend = true → Does (.dmaStop m n) s (fun t => (t.dma n).stop = true ∧ t.dmaActive n = true ∧ t.resp = ⟨none, 0⟩))) ∧
    (s.enters m true x [rDma n 0] → s.unitMay x (32 + n) = false →
      exec (.dmaGo m n start) s = .next (s.refuse .denied) ∧ exec (.dmaStop m n) s = .next (s.refuse .denied)) ∧
    (active = false → exec (.dmaRequest n) s = .next s ∧ exec (.dmaElement n) s = .next s ∧ exec (.dmaStarve n bank) s = .next s) ∧
    (active = true → pend = false → Does (.dmaRequest n) s (fun t => t.dmaPend n = true ∧ t.dmaActive n = true ∧ s.regsBut t [rDma n 4] ∧
      t.dma n = { d with since := s.now, starved := [] } ∧ t = { s with regs := t.regs, dmas := t.dmas })) ∧
    (active = true → pend = true →
      Does (.dmaRequest n) s (fun t => 768 + 4 * n.val + 3 ∈ t.fab.feed ∧ t.dmaPend n = true)) ∧
    (s.dmaStarves n bank = false → exec (.dmaStarve n bank) s = .next s) ∧
    (active = true → pend = true → d.out = false → d.since + s.fld (rSram 0x0C) 0 16 < s.now → d.starved = [] →
      isSram d.src.toNat = true → bankOf d.src.toNat = bank.val →
      Does (.dmaStarve n bank) s (fun t => (t.dma n).starved = [bank] ∧ t.flag (rSram 0) 1 = true ∧ t.fld (rSram 0) 8 6 = bank ∧
        t.fld (rSram 0x0C) 16 16 = min 0xFFFF (s.fld (rSram 0x0C) 16 16 + 1) ∧ 937 ∈ t.fab.feed ∧ t.dmaPend n = true ∧ t.cores = s.cores)) ∧
    (active = true → pend = true → d.out = false → d.src.toNat % sz = 0 → isSram d.src.toNat = true → s.sramBad d.src.toNat = false →
      s.bankRefuses (bit d.own 6) d.src.toNat = true → Does (.dmaElement n) s (fun t => t.dmaActive n = false ∧ t.flag (rDma n 4) 2 = true ∧
        768 + 4 * n.val + 2 ∈ t.fab.feed ∧ t.mem = s.mem)) ∧
    (active = true → pend = true → d.out = false → d.stop = false → s.bankRefuses (bit d.own 6) d.src.toNat = false →
      s.bankRefuses (bit d.own 6) d.dst.toNat = false → isSram d.src.toNat = true → isSram d.dst.toNat = true →
      d.src.toNat % sz = 0 → d.dst.toNat % sz = 0 → s.sramBad d.src.toNat = false → s.sramBad d.dst.toNat = false → s.ecc = [] →
      s.poison = [] → s.collided = none → 1 ≤ rem → Does (.dmaElement n) s (fun t =>
        (∀ a, t.memByte a = if d.dst.toNat ≤ a ∧ a < d.dst.toNat + sz then s.memByte (d.src.toNat + (a - d.dst.toNat)) else s.memByte a) ∧
        (1 < rem → t.fld (rDma n 8) 0 16 = rem - 1 ∧ t.dmaActive n = true ∧ t.dmaPend n = bit d.attr 2 ∧
          (t.dma n).src = (if bit d.attr 0 then d.src else d.src + BitVec.ofNat 32 sz) ∧
          (t.dma n).dst = (if bit d.attr 1 then d.dst else d.dst + BitVec.ofNat 32 sz)) ∧
        (rem = 1 → 768 + 4 * n.val ∈ t.fab.feed ∧ (bit d.attr 3 = true → t.dmaActive n = false ∧ 768 + 4 * n.val + 1 ∈ t.fab.feed))))

/-! ## Flash and OTP (chapter 13) -/

/-- R351 to R353, R359, R360, R362, R372: a flash command of SC, the debug port, or (on the data flash) a supervisor of an owning core
starts its operation, a LOG_ERASE with the next sequence number; during a background erase it waits, BUSY, for the next suspend point;
an occupied bank answers BUSY, a command that the bank does not have is refused, as every command is while the protection is lowered; a
unit that is not blank ends a PROGRAM with NOT_BLANK and keeps its cells. Any other master is DENIED. -/
def Obligations.FlashCommandsStartOrAreRefused : Prop :=
  ∀ (s : State) (m : Master) (x : Ctx) (b : Fin 5), s.enters m true x [rFl b 0] → s.domReady (63 + b) = true →
    let unit := s.fld (rFl b 4) 4 18
    let a := s.flUnit b unit
    let data := wordBytes (s.rg (rFl b 0x08)) ++ wordBytes (s.rg (rFl b 0x0C)) ++ wordBytes (s.rg (rFl b 0x10)) ++ wordBytes (s.rg (rFl b 0x14))
    let may := x.free = true ∨ (b = 4 ∧ x.id < 36 ∧ x.level = true ∧ s.bitOf (rDfOwn 0) x.owner = true)
    let starts := fun (t : State) (op : FlashOp) => t.flSt b = 1 ∧ t.flCode b = 0 ∧ (t.flBank b).op = some op ∧ t.flash = s.flash ∧ t.resp = ⟨none, 0⟩
    let refused := fun (t : State) (code : Nat) => t.flCode b = code ∧ t.flSt b = s.flSt b ∧ t.flBanks = s.flBanks ∧ t.flash = s.flash
    let waits := fun (t : State) (op : Nat) => t.flSt b = 1 ∧ t.flCode b = 0 ∧ (t.flBank b).wait = some (op, unit, data) ∧
      (t.flBank b).op = (s.flBank b).op ∧ t.dfBg = s.dfBg ∧ t.flash = s.flash
    (may → s.flBusy b = false → s.protPend = false → (b ≠ 4 ∨ s.dfBg = none ∨ (s.flBank b).paused = true) →
      ((s.flBlank a 16).1 = true → Does (.program m b) s (fun t => starts t (.program a data))) ∧
      ((s.flBlank a 16).1 = false → Does (.program m b) s (fun t => t.flSt b = 4 ∧ t.flCode b = 2 ∧ 948 ∈ t.fab.feed ∧
        938 + b.val ∈ t.fab.feed ∧ t.flash = s.flash)) ∧
      (b ≠ 4 → Does (.eraseSector m b) s (fun t => starts t (.eraseSector (0x400000 * b.val + unit / 4096 % 64 * 0x10000)))) ∧
      (b = 4 → Does (.eraseSector m b) s (fun t => refused t 5)) ∧
      Does (.blankCheck m b) s (fun t => starts t (.blankCheck (s.flSector b unit).1 (s.flSector b unit).2)) ∧
      (b ≠ 4 → Does (.logErase m b) s (fun t => refused t 5)) ∧
      (b = 4 → Does (.logErase m b) s (fun t => starts t (.logErase ⟨unit / 256 % 8, by omega⟩ (s.dfNextFree (s.fld rDfHealth 0 10))) ∧
        t.dfSeq = (if (s.dfNextFree (s.fld rDfHealth 0 10)).isSome then (s.dfSeq + 1) % 2 ^ 32 else s.dfSeq)))) ∧
    (may → s.flBusy b = false → s.protPend = false → b = 4 → s.dfBg.isSome = true → (s.flBank b).paused = false →
      Does (.program m b) s (waits · 1) ∧ Does (.blankCheck m b) s (waits · 3) ∧ Does (.logErase m b) s (waits · 4) ∧
      Does (.eraseSector m b) s (refused · 5)) ∧
    (may → s.protPend = true → Does (.program m b) s (refused · 6) ∧ Does (.eraseSector m b) s (refused · 6) ∧
      Does (.blankCheck m b) s (refused · 6) ∧ Does (.logErase m b) s (refused · 6)) ∧
    (may → s.flBusy b = true → s.protPend = false → Does (.program m b) s (fun t => refused t 1) ∧ Does (.eraseSector m b) s (fun t => refused t 1) ∧
      Does (.blankCheck m b) s (fun t => refused t 1) ∧ Does (.logErase m b) s (fun t => refused t 1)) ∧
    (¬ may → exec (.program m b) s = .next (s.refuse .denied) ∧ exec (.eraseSector m b) s = .next (s.refuse .denied) ∧
      exec (.blankCheck m b) s = .next (s.refuse .denied) ∧ exec (.logErase m b) s = .next (s.refuse .denied))

/-- R352 to R355, R360 to R363: an operation that ends leaves its cells and its status: programmed bytes, an erased sector, the
blank check's answer, a logical sector mapped to its new copy; one that fails leaves an error and source 945; one that is suspended
does not end. A suspend point with reads waiting suspends an operation, or lets the background erase stand; after 64 reads, or 64 edges
without one, it goes on. Background erases take the oldest queued sector, not in BOOT, and write its header, or retire it; while one
stands it does not end. Which outcome comes is the sender's (log entry 8). -/
def Obligations.FlashOperationsEndWithTheirStatus : Prop :=
  ∀ (s : State) (b : Fin 5) (r : FlashOutcome) (k : Fin 9) (a n : Nat) (data : List Byte) (l : Fin 8) (p : Nat),
    let ended := fun (t : State) (code : Nat) => t.flSt b = (if code = 0 then 3 else 4) ∧ t.flCode b = code ∧ (t.flBank b).op = none ∧
      938 + b.val ∈ t.fab.feed
    ((s.flBank b).op = none → exec (.flashOperationComplete b r) s = .next s) ∧
    (s.flSt b = 2 → exec (.flashOperationComplete b r) s = .next s) ∧
    ((s.flBank b).op = some (.program a data) → s.flSt b ≠ 2 →
      Does (.flashOperationComplete b (.verified k)) s (fun t => ended t 0 ∧ (∀ i (h : i < data.length), sget 0xFF t.flash (a + i) = data[i]) ∧
        (∀ j, (j < a ∨ a + data.length ≤ j) → sget 0xFF t.flash j = sget 0xFF s.flash j)) ∧
      Does (.flashOperationComplete b .failed) s (fun t => ended t 3 ∧ 945 ∈ t.fab.feed ∧ t.flash = s.flash)) ∧
    ((s.flBank b).op = some (.eraseSector a) → s.flSt b ≠ 2 →
      Does (.flashOperationComplete b (.verified k)) s (fun t => ended t 0 ∧
        ∀ j, sget 0xFF t.flash j = if a ≤ j ∧ j < a + 0x10000 then 0xFF else sget 0xFF s.flash j) ∧
      Does (.flashOperationComplete b .failed) s (fun t => ended t 4 ∧ 945 ∈ t.fab.feed ∧ t.flash = s.flash)) ∧
    ((s.flBank b).op = some (.blankCheck a n) → s.flSt b ≠ 2 → Does (.flashOperationComplete b r) s (fun t =>
      ended t (if (s.flBlank a n).1 then 0 else 2) ∧ t.flash = s.flash)) ∧
    (b = 4 → (s.flBank b).op = some (.logErase l (some p)) → p < 1024 → s.flSt b ≠ 2 →
      Does (.flashOperationComplete b (.verified k)) s (fun t => ended t 0 ∧ t.dfMap l = p ∧ t.dfQueue = s.dfQueue ++ [s.dfMap l] ∧
        t.dfSeq = s.dfSeq ∧ t.rg (rDfSeq l) = BitVec.ofNat 32 s.dfSeq) ∧
      Does (.flashOperationComplete b .failed) s (fun t => ended t 3 ∧ 945 ∈ t.fab.feed ∧ t.dfQueue = s.dfQueue ++ [p] ∧ t.dfMap l = s.dfMap l)) ∧
    (s.flSt b = 1 → (s.flBank b).op ≠ none → (∀ c m, (s.flBank b).op ≠ some (.blankCheck c m)) → Does (.suspendPoint b true) s (fun t =>
      t.flSt b = 2 ∧ s.regsBut t [rFlStat b] ∧ t = { s with regs := t.regs, flBanks := t.flBanks } ∧
      t.flBanks = s.flBanks.set b { s.flBank b with served := 0, last := s.now })) ∧
    ((s.flBank 4).op = none → s.dfBg.isSome = true → (s.flBank 4).paused = false → Does (.suspendPoint 4 true) s (fun t =>
      t = { s with flBanks := s.flBanks.set 4 { s.flBank 4 with paused := true, served := 0, last := s.now } })) ∧
    (s.flAwaited b = false → (b ≠ 4 ∨ s.dfBg = none ∨ (s.flBank b).wait = none) → exec (.suspendPoint b false) s = .next s) ∧
    (∀ c m, (s.flBank b).op = some (.blankCheck c m) → exec (.suspendPoint b true) s = .next s) ∧
    (64 ≤ (s.flBank b).served ∨ (s.flBank b).last + 64 ≤ s.now →
      (s.flSt b = 2 → Does (.flashResume b) s (fun t => t.flSt b = 1 ∧ s.regsBut t [rFlStat b] ∧ t = { s with regs := t.regs })) ∧
      (s.flSt b ≠ 2 → (s.flBank b).paused = false → exec (.flashResume b) s = .next s) ∧
      (s.flSt 4 ≠ 2 → b = 4 → (s.flBank b).paused = true → (s.flBank b).wait = none → Does (.flashResume b) s (fun t =>
        t = { s with flBanks := s.flBanks.set b { s.flBank b with paused := false } }))) ∧
    ((s.flBank b).served < 64 → s.now < (s.flBank b).last + 64 → exec (.flashResume b) s = .next s) ∧
    (∀ q, s.dfQueue = p :: q → s.dfBg = none →
      ((s.flBank 4).op = none → s.domReady 67 = true → s.protPend = false → s.mode ≠ 0 → s.mode ≠ 1 →
        Does .backgroundEraseStart s (fun t => t.dfBg.map (fun e => (e.1, e.2.1)) = some (p, s.dfCount p) ∧ t.dfQueue = q ∧
          t.flag (rFlStat 4) 12 = true)) ∧
      (s.mode = 0 ∨ s.mode = 1 → exec .backgroundEraseStart s = .next s)) ∧
    (s.dfQueue = [] → exec .backgroundEraseStart s = .next s) ∧
    (∀ e, s.dfBg = some (p, n, e) → (s.flBank 4).op = none → s.flHalted 4 = false → (s.flBank 4).wait = none →
      (1 ≤ k.val → k.val ≤ 4 → (s.dfSec p).marked = false → Does (.backgroundEraseComplete (.verified k)) s (fun t =>
        (t.dfSec p).u0 = .written (min 0xFFFFF (n + 1)) k ∧ (t.dfSec p).state = 0 ∧ t.dfBg = none ∧ t.flag (rFlStat 4) 12 = false)) ∧
      Does (.backgroundEraseComplete .failed) s (fun t => (t.dfSec p).state = 3 ∧ t.dfBg = none ∧ 945 ∈ t.fab.feed)) ∧
    (s.dfBg = none ∨ s.flHalted 4 = true → exec (.backgroundEraseComplete r) s = .next s)

/-- R366, R367, R370, R371, R373: SC raises the protection level at once and begins its lowering, which clears the memories; a
BURN_GEN or REVOKE of SC or the debug port that passes its checks starts, one that fails is refused with its code; its end programs
the bits. Any other master is DENIED. -/
def Obligations.ProtectionAndOtpCommandsAct : Prop :=
  ∀ (s : State) (m : Master) (x : Ctx) (level : BitVec 2) (key verified : Bool) (gen g : Fin 4) (code : Nat) (b : Fin 8) (img : List Byte),
    (s.enters m true x [rFlProt, baseOtp + 4] → x.free = true →
      (x.debug = false → s.protPend = false →
        (s.prot.val ≤ min 2 level.toNat → Does (.flProtSet m level) s (fun t => t.prot.val = min 2 level.toNat ∧ t.protPend = false ∧
          t.mem = s.mem ∧ t.flash = s.flash)) ∧
        (min 2 level.toNat < s.prot.val → Does (.flProtSet m level) s (fun t => t.protPend = true ∧ t.protNew.val = min 2 level.toNat ∧
          t.prot = s.prot ∧ (∀ a, t.memByte a = 0)))) ∧
      (x.debug = true → Does (.flProtSet m level) s (fun t => t.prot = s.prot ∧ t.protPend = s.protPend ∧ t.mem = s.mem)) ∧
      (s.otpOp = none →
        (s.burnCheck key (s.memBytes (s.rg rOtpSrc).toNat (otpLen key)) = .ok g → Does (.otpCmdBurnGen m key) s (fun t =>
          t.otpOp = some (.burn key g (s.memBytes (s.rg rOtpSrc).toNat (otpLen key))) ∧ t.flag rOtpRes 0 = true ∧ t.otp = s.otp)) ∧
        (code < 16 → s.burnCheck key (s.memBytes (s.rg rOtpSrc).toNat (otpLen key)) = .error code → Does (.otpCmdBurnGen m key) s (fun t =>
          t.otpOp = none ∧ t.fld rOtpRes 4 4 = code ∧ t.otp = s.otp)) ∧
        (s.revokeAllowed key gen = true → Does (.otpCmdRevoke m key gen) s (fun t => t.otpOp = some (.revoke (revokeBit key gen)) ∧
          t.flag rOtpRes 0 = true ∧ t.otp = s.otp)) ∧
        (s.revokeAllowed key gen = false → Does (.otpCmdRevoke m key gen) s (fun t => t.otpOp = none ∧ t.fld rOtpRes 4 4 = 3 ∧ t.otp = s.otp))) ∧
      (s.otpOp ≠ none → ∀ i ∈ [Instr.otpCmdBurnGen m key, .otpCmdRevoke m key gen], Does i s (fun t => s.regsBut t [] ∧ s.regsOnly t ∧ t.resp = ⟨none, 0⟩))) ∧
    (s.enters m true x [rFlProt, baseOtp + 4] → x.free = false → exec (.flProtSet m level) s = .next (s.refuse .denied) ∧
      exec (.otpCmdBurnGen m key) s = .next (s.refuse .denied) ∧ exec (.otpCmdRevoke m key gen) s = .next (s.refuse .denied)) ∧
    (s.otpOp = none → exec (.otpCommandComplete verified) s = .next s) ∧
    (s.otpOp = some (.revoke b) → Does (.otpCommandComplete verified) s (fun t => t.otpByte 0x1800 = s.otpByte 0x1800 ||| BitVec.ofNat 8 (2 ^ b.val) ∧
      (∀ a, a ≠ 0x1800 → t.otpByte a = s.otpByte a) ∧ t.otpOp = none ∧ t.fld rOtpRes 4 4 = 0)) ∧
    (s.otpOp = some (.burn key g img) → Does (.otpCommandComplete true) s (fun t =>
      (∀ i (h : i < img.length), sget 0 t.otp (otpAt key g + i) = sget 0 s.otp (otpAt key g + i) ||| img[i]) ∧
      (∀ a, (a < otpAt key g ∨ otpAt key g + img.length ≤ a) → sget 0 t.otp a = sget 0 s.otp a) ∧ t.otpOp = none ∧ t.fld rOtpRes 4 4 = 0) ∧
      Does (.otpCommandComplete false) s (fun t => t.otpRevoked key g = true ∧ t.otpOp = none ∧ t.fld rOtpRes 4 4 = 4))

/-! ## Pin engines (chapter 14) -/

/-- R378 to R383, R385, R386: at an engine edge a running engine executes the instruction at its pc: SET, OUT, IN, PUSH, PULL, MOV,
WAIT, JMP, FLAG and EVT have their effect, and the engine goes on to the next address (or the jump's), after the delay the word
names; a blocked one stalls with its pc unchanged, a PUSH into a full FIFO at the end of the cycle; the word of a PUSH enters the FIFO at
the end of the cycle, after the reads of its edge, where one that does not block is dropped if the FIFO is full. An undefined word stops the engine and records it. Between engine edges, and while a delay runs, nothing executes;
an instruction executes once at its edge (log entry 41). -/
def Obligations.EngineInstructionsExecute : Prop :=
  ∀ (s : State) (g : Fin 8) (e : Fin 4) (d o : Nat), s.peRuns g e = true → d < 16 → o < 256 →
    let x := s.eng g e
    let span := s.peSpan g e
    let lsb := bit (s.peCfg g e) 8
    let word := fun (op : Nat) => s.peWord g e = 0x1000 * op + 0x100 * d + o
    let ok := fun (op : Nat) => word op ∧ peDefined (0x1000 * op + 0x100 * d + o) span = true
    let next := fun (t : State) => (t.eng g e).pc = s.peNext g e ∧ (t.eng g e).delay = d ∧ (t.eng g e).stall = false
    let stalls := fun (t : State) => (t.eng g e).stall = true ∧ (t.eng g e).pc = x.pc ∧ (t.eng g e).sr = x.sr
    let merged := fun (old : BitVec 4) (v : Nat) (j : Nat) => if s.peDrives g e j then v.testBit j else old.getLsbD j
    let hi := o / 0x40
    let decimated := s.sdOn g = true ∧ bits (s.sdCtl g) 1 2 = e.val
    let n := o % 32 + 1
    let all : List Instr := [.peSet g e, .peOut g e, .peIn g e, .pePush g e, .pePull g e, .peMov g e, .peWait g e, .peJmp g e, .peFlag g e, .peEvt g e]
    (x.div ≠ 0 ∨ x.delay ≠ 0 ∨ x.ahead = true → ∀ i ∈ all, exec i s = .next s) ∧
    (x.div = 0 → x.delay = 0 → x.ahead = false → x.full = false →
    (ok 1 → Does (.peSet g e) s (fun t => next t ∧ (hi = 0 → ∀ j, j < 4 → (t.eng g e).lvl.getLsbD j = merged x.lvl (o % 64) j) ∧
      (hi = 1 → ∀ j, j < 4 → (t.eng g e).dir.getLsbD j = merged x.dir (o % 64) j) ∧
      (hi = 2 → (t.eng g e).ct = BitVec.ofNat 16 (o % 64)) ∧ (hi = 3 → (t.eng g e).ct = (s.rg (rEng g e 0x1C)).extractLsb' 0 16))) ∧
    (ok 2 → Does (.peOut g e) s (fun t => next t ∧ (t.eng g e).fc = x.fc - n ∧
      (t.eng g e).sr = (if lsb then x.sr >>> n else x.sr <<< n) ∧
      (hi = 2 → n ≤ 16 → lsb = false → (t.eng g e).ct = BitVec.ofNat 16 (x.sr >>> (32 - n)).toNat))) ∧
    (ok 3 → ¬ decimated → Does (.peIn g e) s (fun t => next t ∧ (t.eng g e).fc = min 32 (x.fc + n) ∧
      (hi = 2 → (t.eng g e).sr = (if lsb then x.sr >>> n else x.sr <<< n)) ∧
      (hi = 0 → o % 32 = 0 → lsb = false → (t.eng g e).sr = (x.sr <<< 1) ||| BitVec.ofNat 32 (b2n (s.peLane g e 0))))) ∧
    (ok 4 → ¬ decimated → x.push = none → x.inq.length < 4 → Does (.pePush g e) s (fun t =>
      let u := t.peFullEnd g e
      next t ∧ (t.eng g e).inq = x.inq ∧ (u.eng g e).inq = x.inq ++ [x.sr] ∧
      (hi % 2 = 0 → (t.eng g e).sr = 0 ∧ (t.eng g e).fc = 0) ∧
      (bits (s.peCfg g e) 12 3 ≤ x.inq.length + 1 → 672 + 12 * g.val + 3 * e.val + 1 ∈ u.fab.feed))) ∧
    (ok 4 → ¬ decimated → x.push = none → 4 ≤ x.inq.length → Does (.pePush g e) s (fun t =>
      let u := t.peFullEnd g e
      (t.eng g e).inq = x.inq ∧ (u.eng g e).inq = x.inq ∧ (hi / 2 = 1 → (t.eng g e).pc = x.pc ∧ stalls u) ∧
      (hi / 2 = 0 → next t ∧ (hi % 2 = 0 → (t.eng g e).sr = 0) ∧ 672 + 12 * g.val + 3 * e.val + 2 ∈ u.fab.feed))) ∧
    (∀ w r, ok 5 → x.outq = w :: r → Does (.pePull g e) s (fun t => next t ∧ (t.eng g e).sr = w ∧ (t.eng g e).fc = 32 ∧ (t.eng g e).outq = r)) ∧
    (ok 5 → x.outq = [] → hi / 2 = 1 → Does (.pePull g e) s stalls) ∧
    (ok 5 → x.outq = [] → hi / 2 = 0 → Does (.pePull g e) s (fun t => next t ∧ (t.eng g e).sr = x.last ∧ t.flag (rEng g e 0x10) 8 = true)) ∧
    (ok 6 → Does (.peMov g e) s (fun t => next t ∧
      let v : Word := [BitVec.ofNat 32 (s.peLanes g e), x.ct.setWidth 32, x.sr, s.rg (rEng g e 0x1C), BitVec.ofNat 32 x.fc].getD (o % 8) 0
      (hi = 3 → o / 16 % 4 = 0 → (t.eng g e).sr = v) ∧ (hi = 3 → o / 16 % 4 = 1 → (t.eng g e).sr = ~~~ v) ∧
      (hi = 3 → o / 16 % 4 = 2 → (t.eng g e).sr = byteRev v) ∧ (hi = 3 → (t.eng g e).fc = 32) ∧
      (hi = 2 → o / 16 % 4 = 0 → (t.eng g e).ct = v.extractLsb' 0 16))) ∧
    (ok 7 → Does (.peWait g e) s (fun t =>
      let up := decide (o / 0x80 = 1)
      let from_ := o / 0x20 % 4
      let go := if from_ = 0 then s.peLane g e (o % 8) == up else if from_ = 1 then (s.pg g).flags.getLsbD (o % 8) == up
        else (if up then x.rises else x.falls).getLsbD (o % 8)
      if go then next t else stalls t)) ∧
    (ok 8 → Does (.peJmp g e) s (fun t =>
      let taken := [true, x.ct != 0, s.peLane g e 0, !x.outq.isEmpty].getD hi true
      (t.eng g e).stall = false ∧ (t.eng g e).pc = (if taken then (s.peBase g e + o % 0x40) % 48 else s.peNext g e) ∧
      (t.eng g e).ct = (if hi = 1 ∧ x.ct ≠ 0 then x.ct - 1 else x.ct))) ∧
    (ok 9 → Does (.peFlag g e) s (fun t => next t ∧ (hi = 0 → (t.pg g).flags.getLsbD (o % 8) = true) ∧
      ((s.pg g).setF = 0 → hi = 1 → (t.pg g).flags.getLsbD (o % 8) = false) ∧
      ((s.pg g).setF = 0 → hi = 2 → (t.pg g).flags.getLsbD (o % 8) = !(s.pg g).flags.getLsbD (o % 8)))) ∧
    (ok 10 → Does (.peEvt g e) s (fun t => next t ∧ 672 + 12 * g.val + 3 * e.val ∈ t.fab.feed)) ∧
    (word 1 → peDefined (0x1000 + 0x100 * d + o) span = false → Does (.peSet g e) s (fun t => t.peRuns g e = false ∧ t.flag (rEng g e 0x10) 11 = true)))

/-- R384 to R386, R389, R390: PG_CTL starts, stops, clears and restarts the engines it names, and no other, at the edge after it;
the flags written are set and cleared at the edge after it, where a set wins; a word enters the output FIFO, and a read takes the oldest of the input FIFO, which makes room for a
PUSH of the same edge; the store and the configuration are written while every engine of the group is stopped (a stalled engine is
running); otherwise the write is DENIED, changes nothing and sets PROG_LOCKED, and the Ozgan command that loads the store replies
PROG_LOCKED. Writes need ownership of the group; reads do not. -/
def Obligations.EngineGroupsObeyTheirControls : Prop :=
  ∀ (s : State) (m : Master) (x : Ctx) (g : Fin 8) (e : Fin 4) (mask : BitVec 4) (fl : Byte) (v : Word) (i : Fin 48) (p : Fin 32) (high : Bool),
    let k := s.eng g e
    (s.enters m true x (pgRegs g) → s.domReady (68 + g) = true → s.unitMay x (48 + g) = true →
      (let at_ := fun (t : State) (P : PeEngine → Prop) => t.resp = ⟨none, 0⟩ ∧ t.eng g e = k ∧
         ((s.pg g).ctl = [] → P ((t.pgCtlEdge g).eng g e) ∧ ((t.pgCtlEdge g).pg g).ctl = [])
       Does (.pgGo m g mask) s (fun t => at_ t (fun z => (mask.getLsbD e = true → z.run = true ∧
          (s.peEn g e = true → z.div = 0 ∧ z.delay = 0 ∧ z.stall = false)) ∧ (mask.getLsbD e = false → z = k))) ∧
       Does (.pgStop m g mask) s (fun t => at_ t (fun z => z = if mask.getLsbD e then
          { k with run := false, stall := false, delay := 0, full := false, ahead := false } else k)) ∧
       Does (.pgClear m g mask) s (fun t => at_ t (fun z => (mask.getLsbD e = true → z.sr = 0 ∧ z.ct = 0 ∧ z.fc = 0 ∧ z.inq = [] ∧
          z.outq = [] ∧ z.pc = k.pc ∧ z.run = k.run) ∧ (mask.getLsbD e = false → z = k))) ∧
       Does (.pgRestart m g mask) s (fun t => at_ t (fun z => z = if mask.getLsbD e && s.peRuns g e then { k with div := 0 } else k))) ∧
      (let p := s.pg g
       let quiet := p.setIn = 0 ∧ p.clrIn = 0 ∧ p.setF = 0
       Does (.flagSetWrite m g fl) s (fun t => (t.pg g).flags = p.flags ∧ t.resp = ⟨none, 0⟩ ∧
         (quiet → ((t.pgFlagsIn g 0).pg g).flags = p.flags ||| fl)) ∧
       Does (.flagClrWrite m g fl) s (fun t => (t.pg g).flags = p.flags ∧ t.resp = ⟨none, 0⟩ ∧
         (quiet → ∀ q, ((t.pgFlagsIn g q).pg g).flags = (p.flags &&& ~~~ fl) ||| q))) ∧
      Does (.engTxWrite m g e v) s (fun t => t.eng g e = { k with txIn := k.txIn ++ [v] } ∧ t.resp = ⟨none, 0⟩) ∧
      (s.pgRuns g = false →
        Does (.programStoreWrite m g (.store i) v) s (fun t => t.rg (rPg g (4 * i)) = v &&& 0xFFFF ∧ s.regsBut t [rPg g (4 * i)] ∧
          s.regsOnly t ∧ t.resp = ⟨none, 0⟩) ∧
        Does (.programStoreWrite m g (.cr e) v) s (fun t => t.rg (rEng g e 0x1C) = v &&& 0xFFFF ∧ s.regsBut t [rEng g e 0x1C] ∧
          s.regsOnly t ∧ t.resp = ⟨none, 0⟩) ∧
        Does (.programStoreWrite m g (.lanes e) v) s (fun t => t.rg (rEng g e 0x18) = v &&& 0x1F1F1F1F ∧ s.regsBut t [rEng g e 0x18]) ∧
        Does (.programStoreWrite m g (.cfg e) v) s (fun t => t.peBase g e = min 47 (bits v 16 6) ∧ t.peSpan g e = max 1 (min 48 (bits v 24 6)) ∧
          t.fld (rEng g e 0) 0 9 = bits v 0 9 ∧ t.peInWindow g e (t.eng g e).pc = true) ∧
        Does (.programStoreWrite m g (.pc e) v) s (fun t => s.regsBut t [] ∧
          (t.eng g e).pc = if s.peInWindow g e (bits v 0 6) then bits v 0 6 else s.peBase g e)) ∧
      (s.pgRuns g = true → ∀ tgt : PeTarget, Does (.programStoreWrite m g tgt v) s (fun t => t.resp = ⟨some .denied, 0⟩ ∧
        t.flag (rPg g 0x108) 8 = true ∧ s.regsBut t [rPg g 0x108] ∧ t.pes = s.pes))) ∧
    (s.peEn g e = true → k.run = true → s.pgRuns g = true) ∧
    (∀ (h : ReqHdr) (y : Session) (q : List Byte), s.serves h y 0x305 q → g.val = min 7 (u8 q 0) → s.pgRuns g = true →
      s.domReady (68 + g) = true → 4 ≤ q.length → u8 q 1 + (q.length - 2) / 2 ≤ 48 →
      Does (.peLoad h q) s (fun t => t.replied h y 0x305 13 [])) ∧
    (s.enters m true x (pgRegs g) → s.domReady (68 + g) = true → s.unitMay x (48 + g) = false →
      exec (.pgGo m g mask) s = .next (s.refuse .denied) ∧ exec (.pgStop m g mask) s = .next (s.refuse .denied) ∧
      exec (.pgClear m g mask) s = .next (s.refuse .denied) ∧ exec (.pgRestart m g mask) s = .next (s.refuse .denied) ∧
      exec (.flagSetWrite m g fl) s = .next (s.refuse .denied) ∧ exec (.flagClrWrite m g fl) s = .next (s.refuse .denied) ∧
      exec (.engTxWrite m g e v) s = .next (s.refuse .denied) ∧ exec (.programStoreWrite m g (.store i) v) s = .next (s.refuse .denied)) ∧
    (s.enters m false x (pgRegs g) → s.domReady (68 + g) = true →
      (∀ w r, k.inq = w :: r → k.full = false →
        Does (.engRxRead m g e) s (fun t => t.resp = ⟨none, w⟩ ∧ t.eng g e = { k with inq := r } ∧ t.regs = s.regs)) ∧
      (∀ w r, k.inq = w :: r → k.full = true → Does (.engRxRead m g e) s (fun t => t.resp = ⟨none, w⟩ ∧ (t.eng g e).inq = r ∧
        (t.eng g e).push = some k.sr ∧ (t.eng g e).full = false ∧ (t.eng g e).pc = s.peNext g e)) ∧
      (k.inq = [] → Does (.engRxRead m g e) s (fun t => t.resp = ⟨none, 0⟩ ∧ t.flag (rEng g e 0x10) 10 = true ∧ t.pes = s.pes))) ∧
    Does (.pioPinChange p high) s (fun t => (∀ q : Fin 32, t.pio.level.getLsbD q = if q = p then high else s.pio.level.getLsbD q) ∧
      t = { s with pio := { s.pio with level := t.pio.level } })

/-! ## Redundancy (chapter 10) -/

/-- R278, R291, R292, R294: a write of RM_PAIRk enters a paired mode (at the next core edge both cores stop and the copy begins; the
pins are in safe-hold from now on) or asks for SPLIT, in COMMISSION and DIAGNOSE alone, and does neither for a RETIRED pair; the
copy makes the checker what the main is; the mode takes effect at PAIRED_MODE_ENTRY, where the stopped main goes on at its pc;
SPLIT_RETURN gives back the roles of reset. The lowered safe-hold request at those two is R278's step 3. Corners follow log entry
20. -/
def Obligations.PairModesChangeAtTicks : Prop :=
  ∀ (s : State) (m : Master) (x : Ctx) (k : Fin 16) (v : Word) (md : Fin 3),
    let p := s.pair k
    let a := s.mainOf k
    let b := s.checkerOf k
    let later := fun (t : State) => ({ t with now := s.now + s.coreTb a 1 } : State).pairsEdge
    a < 36 → b < 36 → a ≠ b →
    (s.enters m true x [rRmPair k 0] → x.free = true → s.domReady 84 = true →
      (s.mode ≠ 2 → s.mode ≠ 5 → Does (.pairModeWrite m k v) s (fun t => s.regsBut t [] ∧ s.regsOnly t ∧ t.resp = ⟨none, 0⟩)) ∧
      ((s.mode = 2 ∨ s.mode = 5) → s.pairSt k = 6 → Does (.pairModeWrite m k v) s (fun t => s.regsBut t [rRmPair k 0] ∧ s.regsOnly t)) ∧
      ((s.mode = 2 ∨ s.mode = 5) → s.pairSt k ≠ 6 → bits v 0 2 % 3 = 0 → p.mode ≠ 0 → Does (.pairModeWrite m k v) s (fun t => (t.pair k).next = some 0 ∧
        (t.pair k).mode = p.mode ∧ t.fld (rRmPair k 0) 0 2 = 0 ∧ t.fld (rRmPair k 0) 8 8 = max 2 (bits v 8 8) ∧ t.cores = s.cores ∧
        t.resp = ⟨none, 0⟩)) ∧
      ((s.mode = 2 ∨ s.mode = 5) → s.pairSt k ≠ 6 → bits v 0 2 = md.val → md ≠ 0 → p.mode = 0 → p.next = none →
        (∀ j : Fin 16, (s.pair j).act = none) → s.roleFit a = true → s.roleFit b = true →
        Does (.pairModeWrite m k v) s (fun t =>
          let u := later t
          t.resp = ⟨none, 0⟩ ∧ t.cores = s.cores ∧ (t.pair k).next = some md ∧ (t.pair k).mode = 0 ∧ t.holdRed.getLsbD (2 * k.val) = true ∧
          u.pairSt k = 2 ∧ (u.pair k).next = some md ∧ (u.pair k).mode = 0 ∧ u.holdRed.getLsbD (2 * k.val) = true ∧
          u.core (coreId a) = (s.core (coreId a)).stop ∧ u.core (coreId b) = (s.core (coreId b)).stop ∧
          (u.now + u.coreTb a 6144, Instr.stateCopyEnd k) ∈ u.due ∧ u.mem = s.mem))) ∧
    (s.enters m true x [rRmPair k 0] → x.free = false → s.domReady 84 = true → exec (.pairModeWrite m k v) s = .next (s.refuse .denied)) ∧
    (s.pairSt k ≠ 2 ∨ s.notYet (.stateCopyEnd k) = true → exec (.stateCopyEnd k) s = .next s) ∧
    (s.pairSt k = 2 → s.notYet (.stateCopyEnd k) = false → s.roleFit b = true → s.ecc = [] → s.poison = [] → Memory.wf s.mem = true → Does (.stateCopyEnd k) s (fun t =>
      t.pairSt k = 3 ∧ t.core (coreId b) = { s.core (coreId a) with
        run := if (s.core (coreId b)).run = .lockup then .lockup else .halted } ∧ t.core (coreId a) = s.core (coreId a) ∧
      (∀ o, o < localSize → t.memByte (locAddr b o) = s.memByte (locAddr a o)) ∧
      (∀ j, (j < locAddr b 0 ∨ locAddr b localSize ≤ j) → t.memByte j = s.memByte j))) ∧
    (p.next = some md → md ≠ 0 → s.pairSt k = 3 → Does (.pairedModeEntry k) s (fun t => (t.pair k).mode = md ∧ (t.pair k).next = none ∧
      t.pairSt k = 0 ∧ (t.pair k).agree = [] ∧ (t.pair k).sluice = [] ∧ (t.pair k).sigM = sigInit ∧ (t.pair k).sigC = sigInit ∧
      t.holdRed.getLsbD (2 * k.val) = false ∧
      (p.haltAt = none → (s.core (coreId a)).run = .halted → s.domReady a = true →
        t.core (coreId a) = { s.core (coreId a) with run := .running, haltReq := false, stepping := false }) ∧
      (p.haltAt.isSome = true → t.cores = s.cores))) ∧
    (p.next = none → exec (.pairedModeEntry k) s = .next s ∧ exec (.splitReturn k) s = .next s) ∧
    (p.next = some 0 → Does (.splitReturn k) s (fun t => (t.pair k).mode = 0 ∧ (t.pair k).next = none ∧ t.pairSt k = 0 ∧
      t.mainOf k = 2 * k.val ∧ t.checkerOf k = 2 * k.val + 1 ∧ t.holdRed.getLsbD (2 * k.val) = false ∧
      ((s.pairSt k = 0 ∨ s.pairSt k = 4 ∨ s.pairSt k = 5) → t.cores = s.cores)))

/-- R283, R284, R287 to R289, R292, R294, R297: an unequal checkpoint and an output that the checker never made are mismatches,
which stop both copies for 32,000 core cycles; at the core edge after the triage, the pair copies a transient back, gives a fenced
copy's place to a spare, runs degraded or retires the pair, as the two results say; the pair resumes at RM_RESUMEk; a fenced core is
readmitted when it has been cycled and tested. Corners follow log entry 20. -/
def Obligations.MismatchesLeadToTriageAndRecovery : Prop :=
  ∀ (s : State) (m : Master) (x : Ctx) (k : Fin 16) (n : Fin 36) (c d : Checkpoint) (cs ds : List Checkpoint) (sp : Nat),
    let p := s.pair k
    let a := s.mainOf k
    let b := s.checkerOf k
    let st := rRmPair k 0x08
    let res := fun (t : State) (v : Nat) => t.fld rRmReadmit 12 3 = v ∧ t.resp = ⟨none, 0⟩
    let mism := fun (t : State) (kind : Nat) => t.pairSt k = 1 ∧ t.fld st 4 3 = kind ∧ (t.pair k).agree = [] ∧ (t.pair k).sluice = [] ∧
      (t.pair k).act = some (s.now + s.coreTb a 32000, .triage) ∧ t.core (coreId a) = (s.core (coreId a)).stop ∧ t.core (coreId b) = (s.core (coreId b)).stop ∧
      t.holdRedNew.getLsbD (2 * k.val) = true ∧ 520 + k.val ∈ t.fab.coreFires ∧
      t.fld (rRmPair k 0x18) 0 16 = min 0xFFFF (s.fld (rRmPair k 0x18) 0 16 + 1)
    let retired := fun (t : State) => t.pairSt k = 6 ∧ 541 ∈ t.fab.feed ∧ t.holdRed.getLsbD (2 * k.val) = true ∧ t.flag rShCause 4 = true
    let later := fun (t : State) => ({ t with now := s.now + s.coreTb a 1 } : State).pairsEdge
    let tests := fun (x y : Bool) (P : State → Prop) => Does (.triageEnd k x y) s (fun t => t.flag st 8 = !x ∧ t.flag st 9 = !y ∧
      t.cores = s.cores ∧ s.regsBut t [st] ∧ P (later t))
    a < 36 → b < 36 → a ≠ b → s.domReady 84 = true →
    (s.notYet (.checkpointCompare k) = true → exec (.checkpointCompare k) s = .next s) ∧
    (s.notYet (.sluiceTimeout k) = true → exec (.sluiceTimeout k) s = .next s) ∧
    (s.notYet (.checkpointCompare k) = false → s.notYet (.sluiceTimeout k) = false →
    (p.ckM = c :: cs → p.ckC = [] → Does (.checkpointCompare k) s (fun t => mism t 2)) ∧
    (p.ckM = c :: cs → p.ckC = d :: ds → (c.kind ≠ d.kind ∨ c.count ≠ d.count) → Does (.checkpointCompare k) s (fun t => mism t 2)) ∧
    (p.ckM = c :: cs → p.ckC = d :: ds → c.kind = d.kind → c.count = d.count → c.sig ≠ d.sig →
      Does (.checkpointCompare k) s (fun t => mism t 1)) ∧
    (p.ckM = c :: cs → p.ckC = c :: ds → Does (.checkpointCompare k) s (fun t => (t.pair k).ckM = cs ∧ (t.pair k).ckC = ds ∧
      t.rg (rRmPair k 0x10) = c.sig.setWidth 32 ∧ t.rg (rRmPair k 0x14) = (c.sig >>> 32).setWidth 32 ∧ t.cores = s.cores ∧
      t.pairSt k = (if s.pairSt k = 4 ∧ c.kind = 1 then 0 else s.pairSt k) ∧
      t.holdRed.getLsbD (2 * k.val) = (if s.pairSt k = 4 ∧ c.kind = 1 then false else s.holdRed.getLsbD (2 * k.val)))) ∧
    (p.sluice = [] → Does (.sluiceTimeout k) s (fun t => t = { s with due := t.due })) ∧
    (p.sluice ≠ [] → Does (.sluiceTimeout k) s (fun t => mism t 4))) ∧
    (s.triageOver k = false → exec (.triageEnd k true true) s = .next s) ∧
    (∀ e, p.act = some (e, .triage) → s.now < e → s.triageOver k = false) ∧
    (s.triageOver k = true → (∀ j : Fin 16, j ≠ k → (s.pair j).act = none) →
      (s.core (coreId a)).run ≠ .lockup → (s.core (coreId b)).run ≠ .lockup →
      (s.fld st 10 2 < 2 → tests true true (fun t => t.pairSt k = 2 ∧ (t.pair k).recovery = true ∧ t.flag st 8 = false ∧
        t.flag st 9 = false ∧ t.fld st 10 2 = s.fld st 10 2 + 1 ∧ (t.pair k).twin = s.fld rRmCtl 0 16 ∧ 540 ∈ t.fab.feed ∧
        t.mainOf k = a ∧ t.checkerOf k = b ∧ (t.now + t.coreTb a 6144, Instr.stateCopyEnd k) ∈ t.due)) ∧
      (2 ≤ s.fld st 10 2 → tests true true retired) ∧
      ((s.fence b).spareFor k = some sp → sp < 36 → tests true false (fun t => t.pairSt k = 2 ∧ t.fenced b = true ∧ t.mainOf k = a ∧
        t.checkerOf k = sp ∧ t.flag st 8 = false ∧ t.flag st 9 = true ∧ (t.pair k).recovery = true ∧ (32 ≤ sp → 536 + (sp - 32) ∈ t.fab.feed))) ∧
      ((s.fence a).spareFor k = some sp → sp < 36 → tests false true (fun t => t.pairSt k = 2 ∧ t.fenced a = true ∧ t.mainOf k = b ∧
        t.checkerOf k = sp ∧ t.flag st 8 = true ∧ t.flag st 9 = false)) ∧
      ((s.fence b).spareFor k = none → s.flag rRmCtl 16 = true → tests true false (fun t => t.pairSt k = 5 ∧ t.fenced b = true ∧
        (t.pair k).recovery = true)) ∧
      ((s.fence b).spareFor k = none → s.flag rRmCtl 16 = false → tests true false (fun t => retired t ∧ t.fenced b = true)) ∧
      tests false false (fun t => retired t ∧ t.fenced a = true ∧ t.fenced b = true)) ∧
    (p.recovery = true → s.pairSt k = 3 → (s.core (coreId a)).run ≠ .lockup → (s.core (coreId b)).run ≠ .lockup → Does (.pairResume k) s (fun t => t.pairSt k = 4 ∧ (t.pair k).recovery = false ∧
      ∀ i ∈ [a, b], (t.core (coreId i)).pc = s.rg (rRmPair k 0x04) ∧ (t.core (coreId i)).run = .running ∧ (t.core (coreId i)).world = false ∧
        (t.core (coreId i)).lvl = true ∧ (t.core (coreId i)).im = 15 ∧ (t.core (coreId i)).gpr = (s.core (coreId i)).gpr)) ∧
    (p.recovery = true → s.pairSt k = 5 → (s.core (coreId a)).run ≠ .lockup → Does (.pairResume k) s (fun t => (t.core (coreId a)).pc = s.rg (rRmPair k 0x04) ∧
      (t.core (coreId a)).run = .running ∧ t.core (coreId b) = s.core (coreId b))) ∧
    (p.recovery = false → exec (.pairResume k) s = .next s) ∧
    (p.twin = 0 → Does (.transientWindowExpiry k) s (fun t => t.fld st 10 2 = 0 ∧ s.regsBut t [st] ∧ t = { s with regs := t.regs })) ∧
    (p.twin ≠ 0 → exec (.transientWindowExpiry k) s = .next s) ∧
    (s.enters m true x [rRmReadmit] → x.free = true →
      (s.fenced n = false → Does (.rmReadmitGo m n) s (fun t => res t 2)) ∧
      (s.fenced n = true → s.cycled.getLsbD n = false → Does (.rmReadmitGo m n) s (fun t => res t 3 ∧ t.fenced n = true)) ∧
      (s.fenced n = true → s.cycled.getLsbD n = true → s.tested.getLsbD n = false → Does (.rmReadmitGo m n) s (fun t => res t 4 ∧ t.fenced n = true)) ∧
      (s.fenced n = true → s.cycled.getLsbD n = true → s.tested.getLsbD n = true → Does (.rmReadmitGo m n) s (fun t => res t 1 ∧
        t.fenced n = false ∧ (32 ≤ n.val → t.flag rRmSpare (n.val - 32) = true) ∧
        (n.val < 32 → (t.pair (pairOf n)).ownSpares = (s.pair (pairOf n)).ownSpares ++ [n])))) ∧
    (s.enters m true x [rRmReadmit] → x.free = false → exec (.rmReadmitGo m n) s = .next (s.refuse .denied))

/-! ## The command engine (chapter 15) -/

/-- R393 to R408, Tables 75 to 77: requests of the groups 0x00xx to 0x02xx, served at once, have their effect and get their reply:
HELLO opens the lowest free session, BYE closes it, PING, JOB and BATCH answer, the mode, hold, event and set commands act, SET_MODE
answering when the mode has changed; a session times out; an assembly is dropped; a packet built by the rules of R394 is executed, a
short one dropped, a forged or repeated one refused. The numbers and replies that the tables leave open follow log entry 25. -/
def Obligations.SessionModeAndSetCommandsAct : Prop :=
  ∀ (s : State) (h : ReqHdr) (y : Session) (p d : List Byte) (i : Fin 8) (n : BitVec 8) (bufs : Nat),
    let rep := fun (t : State) (op st : Nat) (pay : List Byte) => t.replied h y op st pay
    let sv := fun (op : Nat) => s.serves h y op p
    let offer := u8 p 0 % 8
    let gen := if offer.testBit 2 then 3 else if offer.testBit 1 then 2 else 1
    let m := u8 p 0
    let mask : BitVec 37 := BitVec.ofNat 37 (leAt p 0 8 % 2 ^ 36)
    let ty := u8 p 0
    let count := u16 p 2
    let off := u32 p 4
    let words := fun (l : Sparse Word) (ty : Nat) => wordsBytes ((List.range count).map (fun j => setWord l ty (off + 4 * j)))
    let dist := (w32 p 0 - s.rg rFrameNum).toNat
    (s.ozOn = true → s.oz.wait = none → s.oz.queue = [] → h.session = 0 → s.opCheck 1 true 0 p = none → s.oz.sessions[i] = none →
      (∀ j, j < i → (s.oz.sessions[j]).isSome = true) →
      (offer ≠ 0 → u8 p 1 = 0xFF → Does (.hello h p) s (fun t => (∀ j, j ≠ i → t.oz.sessions[j] = s.oz.sessions[j]) ∧ 994 ∈ t.fab.feed ∧
        993 ∈ t.fab.feed ∧ ∃ z, t.oz.sessions[i] = some z ∧ z.via = h.via ∧ z.gen = gen ∧ z.auth = false ∧ z.top = 0 ∧ z.open_ = 0 ∧ z.key = [])) ∧
      (∀ key, offer ≠ 0 → gen ≠ 1 → u8 p 1 ≠ 0xFF → s.hmacKey (u8 p 1) = some key → Does (.hello h p) s (fun t => ∃ z nonce,
        t.oz.sessions[i] = some z ∧ z.auth = true ∧ nonce.length = 16 ∧ z.key = hmac key (slice p 2 16 ++ nonce ++ [BitVec.ofNat 8 (i.val + 1)]))) ∧
      (offer = 0 → Does (.hello h p) s (fun t => t.oz.sessions = s.oz.sessions ∧ 993 ∈ t.fab.feed))) ∧
    (sv 1 → Does (.bye h p) s (fun t => t.sess h.session = none ∧ (∀ x ∈ t.oz.subs, x.sess ≠ h.session) ∧ 994 ∈ t.fab.feed ∧ rep t 1 0 [])) ∧
    (sv 2 → Does (.ping h p) s (fun t => rep t 2 0 p)) ∧
    (∀ j, sv 3 → s.oz.jobs.find? (fun j => j.num.toNat == m) = some j →
      Does (.job h p) s (fun t => rep t 3 0 (if j.run then List.replicate 18 0 else [1, j.status] ++ (j.result ++ List.replicate 16 0).take 16))) ∧
    (sv 3 → s.oz.jobs.find? (fun j => j.num.toNat == m) = none → Does (.job h p) s (fun t => rep t 3 0 (2 :: List.replicate 17 0))) ∧
    (sv 4 → p = natBytes 2 2 ++ natBytes 2 d.length ++ d → d.length ≤ 4000 → Does (.batch h p) s (fun t => rep t 4 0 (batchEntry 2 0 d))) ∧
    (sv 4 → p = natBytes 2 1 ++ [0, 0] → Does (.batch h p) s (fun t => rep t 4 7 (batchEntry 1 7 []) ∧ (t.sess h.session).isSome = true)) ∧
    (sv 0x100 → Does (.getMode h p) s (fun t =>
      rep t 0x100 0 ([BitVec.ofNat 8 s.mode] ++ wordBytes (s.rg rTickStat) ++ wordBytes (s.rg rFrameNum)))) ∧
    (sv 0x101 → 2 ≤ m → m ≤ 5 →
      (s.mode = m → Does (.setMode h p) s (fun t => t.mode = m ∧ rep t 0x101 0 [BitVec.ofNat 8 m])) ∧
      (s.mode ≠ m → s.modeAllowed m = true → Does (.setMode h p) s (fun t => t.mode = s.mode ∧ t.modeReq.map (·.val) = some m ∧
        t.modeNext = some (if s.shDue then 4 else m) ∧ t.oz.wait = some ⟨h, 0x101, none, .mode⟩ ∧
        (let u := ({ t with modeReq := none, shDue := false }.modeEdge t.modeNext).ozGo
         u.mode = (if s.shDue then 4 else m) ∧ u.oz.wait = none ∧ rep u 0x101 0 [BitVec.ofNat 8 (if s.shDue then 4 else m)]))) ∧
      (s.mode ≠ m → s.modeAllowed m = false → Does (.setMode h p) s (fun t => t.mode = s.mode ∧ t.modeReq = s.modeReq ∧
        t.flag rSysMode 12 = true ∧ rep t 0x101 7 []))) ∧
    (sv 0x101 → m = 1 → Does (.setMode h p) s (fun t => t.mode = s.mode ∧ t.modeReq = s.modeReq ∧ t.flag rSysMode 12 = true ∧ rep t 0x101 7 [])) ∧
    (sv 0x101 → m = 0 ∨ 5 < m → s.modeAllowed 0 = true → Does (.setMode h p) s (fun t => t.mode = s.mode ∧ t.modeReq = some 0 ∧ t.active = s.active ∧
      rep t 0x101 0 [0])) ∧
    (sv 0x102 → Does (.release h p) s (fun t => t.holdOvr = s.holdOvr &&& ~~~ mask ∧ t.holdNew = s.holdNew &&& ~~~ mask ∧
      rep t 0x102 0 (natBytes 8 ((s.holdOvr ||| s.holdNew) &&& mask).toNat))) ∧
    (sv 0x103 → Does (.fireHev h p) s (fun t => (∀ j, j < 8 → m.testBit j = true → 1000 + j ∈ t.fab.feed) ∧ rep t 0x103 0 [BitVec.ofNat 8 m])) ∧
    (sv 0x200 → s.shadowLocked = false → s.oz.load = none →
      let total := u32 p 4
      let chunk := p.drop 8
      (u32 p 0 = 0 → total ≤ 102400 → chunk.length < total → Does (.setLoad h p) s (fun t =>
        t.oz.load = some ⟨h.session, total, chunk, s.now⟩ ∧ t.shadow = s.shadow ∧ rep t 0x200 0 (natBytes 4 chunk.length))) ∧
      (∀ u, u32 p 0 = 0 → total ≤ 102400 → chunk.length = total → s.imgLoad chunk = .ok u → Does (.setLoad h p) s (fun t =>
        t.shadow = u.shadow ∧ t.active = s.active ∧ t.rg rShadowId = u.rg rShadowId ∧ t.oz.load = none ∧ 997 ∈ t.fab.feed ∧
        rep t 0x200 0 (natBytes 4 total ++ wordBytes (u.rg rShadowId)))) ∧
      (u32 p 0 ≠ 0 → Does (.setLoad h p) s (fun t => t.oz.load = none ∧ t.shadow = s.shadow ∧ rep t 0x200 7 []))) ∧
    (sv 0x201 → s.shadowLocked = false → setRangeOk ty off count = true → Does (.setWrite h p) s (fun t =>
      t.shadow = (List.range count).foldl (fun l j => setLoadWord l ty (off + 4 * j) (w32 p (8 + 4 * j))) s.shadow ∧ t.active = s.active ∧
      t.rg rShadowId = 0 ∧ rep t 0x201 0 (words t.shadow ty))) ∧
    (sv 0x202 → setRangeOk (u8 p 1) off count = true → 4 * count ≤ maxLen y.gen → Does (.setRead h p) s (fun t =>
      rep t 0x202 0 (words (if u8 p 0 = 1 then s.shadow else s.active) (u8 p 1)))) ∧
    (sv 0x203 → s.shadowLocked = false → s.flag rFrameCtl 24 = true → 0 < dist → dist < 2 ^ 31 → Does (.swapSet h p) s (fun t =>
      t.rg rSwapTarget = s.ordered 36 rSwapTarget (w32 p 0) ∧ t.swapTick = w32 p 0 ∧ swapState t = 1 ∧ t.oz.wait = some ⟨h, 0x203, none, .swap⟩ ∧
      (s.now + 16000, Instr.swapCheckComplete) ∈ t.due)) ∧
    (sv 0x203 → s.shadowLocked = true → Does (.swapSet h p) s (fun t => swapState t = swapState s ∧
      rep t 0x203 7 (wordBytes (w32 p 0) ++ wordBytes (t.rg rSwapStat)))) ∧
    (sv 0x204 → Does (.swapCancel h p) s (fun t => swapState t = (if s.shadowLocked then 5 else swapState s) ∧
      rep t 0x204 0 (wordBytes (t.rg rSwapStat)))) ∧
    (sv 0x205 → Does (.swapStatus h p) s (fun t =>
      rep t 0x205 0 (wordsBytes [s.rg rSwapStat, s.rg rSwapTarget, s.rg rSetId, s.rg rShadowId, s.rg rFrameNum]))) ∧
    (sv 0x206 → s.shadowLocked = false → Does (.setCopy h p) s (fun t => t.shadow = s.active ∧ t.rg rShadowId = s.rg rSetId ∧
      rep t 0x206 0 (wordBytes (s.rg rSetId)))) ∧
    (sv 0x206 → s.shadowLocked = true → Does (.setCopy h p) s (fun t => t.shadow = s.shadow ∧ rep t 0x206 7 [])) ∧
    ((s.sess n).isSome = true → s.notYet (.sessionTimeout n) = false → Does (.sessionTimeout n) s (fun t => t.sess n = none ∧ 994 ∈ t.fab.feed ∧ t.oz.jobs = s.oz.jobs ∧
      (∀ x ∈ t.oz.subs, x.sess ≠ n))) ∧
    ((s.sess n = none ∨ s.notYet (.sessionTimeout n) = true) → exec (.sessionTimeout n) s = .next s) ∧
    (s.notYet .assemblyTimeout = false → Does .assemblyTimeout s (fun t => t.oz.load = none ∧ t.shadow = s.shadow)) ∧
    (s.notYet .assemblyTimeout = true → exec .assemblyTimeout s = .next s) ∧
    (s.serves h y 2 d → y.auth = !y.key.isEmpty → 1 ≤ y.gen → y.gen ≤ 3 → d.length ≤ maxLen y.gen → bufs < 256 → y.fresh h.seq = true →
      y.open_ < y.limit → s.spihSlots < 16 →
      Does (.packetReceive h.via (mkPacket y.gen 0 h.session h.seq 2 bufs 0 d y.key)) s (fun t => rep t 2 0 d ∧
        ∃ z, t.sess h.session = some z ∧ z.fresh h.seq = false ∧ z.bufs = bufs ∧ z.unack = 0)) ∧
    (s.serves h y 2 d → y.auth = !y.key.isEmpty → 1 ≤ y.gen → y.gen ≤ 3 → d.length ≤ maxLen y.gen → bufs < 256 → y.fresh h.seq = false →
      Does (.packetReceive h.via (mkPacket y.gen 0 h.session h.seq 2 bufs 0 d y.key)) s (fun t => 996 ∈ t.fab.feed ∧
        ∃ z, t.sess h.session = some z ∧ z.top = y.top ∧ z.seen = y.seen)) ∧
    (s.ozOn = true → p.length < 16 → Does (.packetReceive h.via p) s (fun t => t = { s with oz := { s.oz with counts := t.oz.counts } } ∧
      t.oz.counts[0] = if s.oz.counts[0] = BitVec.allOnes 32 then s.oz.counts[0] else s.oz.counts[0] + 1)) ∧
    (s.ozOn = false → exec (.packetReceive h.via p) s = .next s)

/-- R391, R405 to R410, Tables 78 to 82, 87: requests of the groups 0x03xx to 0x07xx, served at once: cores are halted, started and
loaded, a pair's mode is written, a core readmitted, engines are loaded, images named; blocks are read and subscribed; flash and OTP
operations start as jobs or waits; calibrations, sparge passes and self-tests start as jobs, and end.
The numbers and replies that the tables leave open follow log entry 25. -/
def Obligations.CoreFlashOtpAndTestCommandsAct : Prop :=
  ∀ (s : State) (h : ReqHdr) (y : Session) (p : List Byte) (c : CoreId) (g : Fin 4) (n : Fin 16) (mask : BitVec 64) (job status : Byte)
    (passed failed : BitVec 64) (result : List Byte) (j : Job),
    let rep := fun (t : State) (op st : Nat) (pay : List Byte) => t.replied h y op st pay
    let sv := fun (op : Nat) => s.serves h y op p
    let nj := s.oz.nextJob
    let plain := s.ecc = [] ∧ s.poison = [] ∧ s.collided = none ∧ s.flUndef = [] ∧ s.flEcc = []
    let solo := s.domReady c = true ∧ s.fenced c = false ∧ s.role c = .solo
    let sram := fun (a k : Nat) => a % 4 = 0 ∧ k % 4 = 0 ∧ ∀ i, i < k → isSram (a + i) = true ∧ s.sramBad (a + i) = false
    (sv 0x300 → maskCores (leAt p 0 8 % 2 ^ 36) = [c] → solo → (s.core c).run = .running → (s.core c).noInt = false →
      Does (.coreHalt h p) s (fun t => (t.core c).run = .halted ∧ (t.core c).pc = (s.core c).pc ∧ rep t 0x300 0 (natBytes 8 (2 ^ c.val)))) ∧
    (sv 0x300 → maskCores (leAt p 0 8 % 2 ^ 36) = [c] → s.fenced c = true → Does (.coreHalt h p) s (fun t => t.cores = s.cores ∧ rep t 0x300 6 [])) ∧
    (sv 0x301 → (w32 p 8).toNat < 0x2FF80 → (w32 p 8).toNat % 4 = 0 → maskCores (leAt p 0 8) = [c] → solo → (s.core c).run = .halted →
      s.pairStopped c = false → (s.core c).testEnd = none → Does (.coreStart h p) s (fun t => (t.core c).pc = w32 p 8 ∧ (t.core c).run = .running ∧
        (t.core c).gpr = (coreFresh false).gpr ∧ (t.core c).st = (coreFresh false).st ∧ rep t 0x301 0 (natBytes 8 (2 ^ c.val)))) ∧
    (sv 0x301 → 0x2FF80 ≤ (w32 p 8).toNat ∨ (w32 p 8).toNat % 4 ≠ 0 → Does (.coreStart h p) s (fun t => t.cores = s.cores ∧ rep t 0x301 9 [])) ∧
    (let off := u32 p 4
     let bs := p.drop 8
     sv 0x302 → c.val = min 36 (u8 p 0) → solo → plain → (s.core c).run = .halted → off + bs.length ≤ 0x2FF80 → Does (.coreLoad h p) s (fun t =>
      (∀ a, t.memByte a = if h : locAddr c off ≤ a ∧ a < locAddr c off + bs.length then bs[a - locAddr c off]'(by omega) else s.memByte a) ∧
      rep t 0x302 0 (natBytes 4 bs.length))) ∧
    (let k : Fin 16 := fin 16 (u8 p 0) (by decide)
     let u := s.pairModeWrite k true (BitVec.ofNat 32 (u8 p 1 + 256 * u8 p 2))
     sv 0x303 → u8 p 0 < 16 → s.domReady 84 = true → Does (.pairMode h p) s (fun t => t.pairs = u.pairs ∧ t.cores = u.cores ∧
      t.rg (rRmPair k 0) = u.rg (rRmPair k 0) ∧ rep t 0x303 0 [BitVec.ofNat 8 (u.fld (rRmPair k 0) 0 2), BitVec.ofNat 8 (u.fld (rRmPair k 0) 8 8)])) ∧
    (let u := s.readmit (min 35 (u8 p 0))
     let r := u.fld rRmReadmit 12 3
     sv 0x304 → s.domReady 84 = true → Does (.readmit h p) s (fun t => t.pairs = u.pairs ∧ t.rg rRmReadmit = u.rg rRmReadmit ∧
      t.rg (rRmFence 0) = u.rg (rRmFence 0) ∧ t.rg (rRmFence 1) = u.rg (rRmFence 1) ∧ rep t 0x304 (if r = 1 then 0 else 7) [BitVec.ofNat 8 r])) ∧
    (let e : Fin 8 := fin 8 (min 7 (u8 p 0)) (by decide)
     let k := (p.length - 2) / 2
     sv 0x305 → u8 p 1 + k ≤ 48 → s.domReady (68 + e) = true →
      (s.pgRuns e = false → Does (.peLoad h p) s (fun t => (∀ i, i < k → t.rg (rPg e (4 * (u8 p 1 + i))) = BitVec.ofNat 32 (u16 p (2 + 2 * i))) ∧
        rep t 0x305 0 [BitVec.ofNat 8 k])) ∧
      (s.pgRuns e = true → 0 < k → Does (.peLoad h p) s (fun t => rep t 0x305 13 []))) ∧
    (sv 0x306 → Does (.imageInfo h p) s (fun t =>
      rep t 0x306 0 (BitVec.ofNat 8 (s.fld rBootStat 2 1) :: (if u8 p 0 = 1 then s.boot.digB else s.boot.digA)))) ∧
    (sv 0x400 → plain → sram (u32 p 0) (u16 p 4) → u16 p 4 ≤ maxLen y.gen →
      Does (.readBlock h p) s (fun t => rep t 0x400 0 (s.memBytes (u32 p 0) (u16 p 4)))) ∧
    (sv 0x400 → u32 p 0 % 4 ≠ 0 → s.prot = 0 → Does (.readBlock h p) s (fun t => rep t 0x400 9 [])) ∧
    (∀ i, sv 0x401 → u32 p 0 % 4 = 0 → u16 p 4 % 4 = 0 → 4 ≤ u16 p 4 → u16 p 4 ≤ 256 → s.prot = 0 →
      (List.range 16).find? (fun i => !s.oz.subs.any (fun x => x.id.toNat == i)) = some i → Does (.subscribe h p) s (fun t =>
        t.oz.subs = s.oz.subs ++ [⟨BitVec.ofNat 8 i, h.session, w32 p 0, u16 p 4, max 1 (u16 p 6), max 1 (u16 p 6), 0⟩] ∧
        rep t 0x401 0 (BitVec.ofNat 8 i :: natBytes 2 (max 1 (u16 p 6))))) ∧
    (∀ x, sv 0x402 → s.oz.subs.find? (fun x => x.id.toNat == u8 p 0 && x.sess == h.session) = some x → Does (.unsubscribe h p) s (fun t =>
      t.oz.subs = s.oz.subs.filter (fun z => z.id != x.id) ∧ rep t 0x402 0 (natBytes 2 (min 0xFFFF x.skip)))) ∧
    (sv 0x402 → s.oz.subs.find? (fun x => x.id.toNat == u8 p 0 && x.sess == h.session) = none →
      Does (.unsubscribe h p) s (fun t => t.oz.subs = s.oz.subs ∧ rep t 0x402 7 [])) ∧
    (∀ x id z, s.oz.subs.find? (fun x => x.id == id) = some x → s.sess x.sess = some z → x.len = 4 → sram x.addr.toNat 4 → plain → z.via ≠ .spih →
      (z.unack < z.bufs → Does (.subscriptionNotify id) s (fun t =>
        (z.via, mkPacket z.gen 4 x.sess (BitVec.ofNat 16 (z.notes + 1)) 0x0401 0 0 (wordBytes (s.memWord x.addr.toNat)) z.key) ∈ t.oz.sent ∧
        t.sess x.sess = some { z with notes := z.notes + 1, unack := z.unack + 1 })) ∧
      (z.bufs ≤ z.unack → Does (.subscriptionNotify id) s (fun t => t.oz.sent = s.oz.sent ∧ t.oz.subs = s.oz.subs.map (fun w =>
        if w.id = x.id then { w with skip := min 0xFFFF (w.skip + 1) } else w)))) ∧
    (∀ id, s.oz.subs.find? (fun x => x.id == id) = none → exec (.subscriptionNotify id) s = .next s) ∧
    (let b := opBank (u8 p 0) 4 (by decide)
     let unit := u32 p 4
     let a := s.flUnit b unit
     let data := p.drop 8
     sv 0x500 → data.length = 16 → unit < bankUnits b → s.domReady (bankDom b) = true → s.flBusy b = false → s.protPend = false → plain → (b ≠ 4 ∨ s.dfBg = none) →
      ((s.flBlank a 16).1 = true → Does (.flProgram h p) s (fun t => t.flSt b = 1 ∧ (t.flBank b).op = some (.program a data) ∧ t.flash = s.flash ∧
        t.oz.wait = some ⟨h, 0x500, none, .flash b (unit + 1) [] 0⟩)) ∧
      ((s.flBlank a 16).1 = false → Does (.flProgram h p) s (fun t => t.flash = s.flash ∧ t.flCode b = 2 ∧ rep t 0x500 10 [0, 0]))) ∧
    (let b := opBank (u8 p 0) 3 (by decide)
     sv 0x501 → u8 p 1 < 64 → s.domReady (bankDom b) = true → s.flBusy b = false → s.protPend = false → Does (.flErase h p) s (fun t =>
      t.flSt b = 1 ∧ (t.flBank b).op = some (.eraseSector (0x400000 * b.val + 0x10000 * u8 p 1)) ∧
      ⟨nj, .erase b, true, 0, []⟩ ∈ t.oz.jobs ∧ rep t 0x501 0 [nj])) ∧
    (let l := fin 8 (min 7 (u8 p 0)) (by decide)
     sv 0x502 → s.domReady 67 = true → s.flBusy 4 = false → s.protPend = false → s.dfBg = none → Does (.flLogErase h p) s (fun t =>
      t.flSt 4 = 1 ∧ (t.flBank 4).op = some (.logErase l (s.dfNextFree (s.fld rDfHealth 0 10))) ∧ t.oz.wait = some ⟨h, 0x502, none, .logErase l⟩)) ∧
    (let b := opBank (u8 p 0) 4 (by decide)
     let u := if b = 4 then 256 * u16 p 1 else 4096 * u16 p 1
     sv 0x503 → u16 p 1 < (if b = 4 then 8 else 64) → s.domReady (bankDom b) = true → s.flBusy b = false → s.protPend = false →
      (b ≠ 4 ∨ s.dfBg = none) → Does (.flBlank h p) s (fun t => t.flSt b = 1 ∧ (t.flBank b).op = some (.blankCheck (s.flSector b u).1 (s.flSector b u).2) ∧
        ⟨nj, .blank b, true, 0, []⟩ ∈ t.oz.jobs ∧ rep t 0x503 0 [nj])) ∧
    (let b := opBank (u8 p 0) 4 (by decide)
     sv 0x504 → plain →
      (s.prot = 0 → u16 p 8 = 1 → u32 p 4 < bankUnits b → s.domReady (bankDom b) = true → s.flBusy b = false → s.protPend = false →
        (b ≠ 4 ∨ s.dfBg = none) →
        Does (.flRead h p) s (fun t => rep t 0x504 0 (s.flBytes (s.flUnit b (u32 p 4)) 16))) ∧
      (s.prot ≠ 0 → Does (.flRead h p) s (fun t => rep t 0x504 6 []))) ∧
    (sv 0x505 → s.protPend = false →
      (s.prot.val ≤ min 2 (u8 p 0) → Does (.flProt h p) s (fun t => t.prot.val = min 2 (u8 p 0) ∧ t.mem = s.mem ∧ rep t 0x505 0 [BitVec.ofNat 8 (min 2 (u8 p 0))])) ∧
      (min 2 (u8 p 0) < s.prot.val → Does (.flProt h p) s (fun t => t.prot = s.prot ∧ t.protPend = true ∧ t.protNew.val = min 2 (u8 p 0) ∧ t.mem = [] ∧
        rep t 0x505 0 [BitVec.ofNat 8 (min 2 (u8 p 0))]))) ∧
    (sv 0x506 → Does (.dfHealth h p) s (fun t =>
      rep t 0x506 0 (wordsBytes ([s.rg rDfHealth, s.dfEst] ++ (List.range 8).map (fun l => s.rg (rDfMap l)))))) ∧
    (sv 0x600 → u16 p 0 % 4 = 0 → u16 p 2 % 4 = 0 → u16 p 0 + u16 p 2 ≤ 0x4000 → u16 p 2 ≤ maxLen y.gen → Does (.otpRead h p) s (fun t =>
      rep t 0x600 0 ((List.range (u16 p 2)).map (fun i => s.otpRead (u16 p 0 + i))))) ∧
    (let key := decide (u8 p 0 = 1)
     let img := p.drop 4
     sv 0x601 → img.length = otpLen key → s.otpOp = none →
      (s.burnCheck key img = .ok g → Does (.burnGen h p) s (fun t => t.otpOp = some (.burn key g img) ∧ t.otp = s.otp ∧
        ⟨nj, .burn, true, 0, []⟩ ∈ t.oz.jobs ∧ rep t 0x601 0 [nj])) ∧
      (∀ e, s.burnCheck key img = .error e → Does (.burnGen h p) s (fun t => t.otpOp = none ∧ t.otp = s.otp ∧ rep t 0x601 (otpStatus e) []))) ∧
    (let key := decide (u8 p 0 = 1)
     sv 0x602 → g.val = min 3 (u8 p 1) → s.otpOp = none →
      (s.revokeAllowed key g = true → Does (.revoke h p) s (fun t => t.otpOp = some (.revoke (revokeBit key g)) ∧ t.otp = s.otp ∧
        t.oz.wait = some ⟨h, 0x602, none, .otp⟩)) ∧
      (s.revokeAllowed key g = false → Does (.revoke h p) s (fun t => t.otpOp = none ∧ rep t 0x602 7 []))) ∧
    (sv 0x603 → Does (.otpStatus h p) s (fun t => rep t 0x603 0 (wordBytes s.otpStat))) ∧
    (sv 0x701 → u8 p 2 % 4 = 0 →
      (u16 p 0 = 2 ^ n.val → (s.calRequest n).1 = true → Does (.calReq h p) s (fun t => (∀ i, t.relief i = (s.calRequest n).2.relief i) ∧
        ⟨nj, .cal (BitVec.ofNat 16 (2 ^ n.val)) 0, true, 0, s.xfailNote⟩ ∈ t.oz.jobs ∧ rep t 0x701 0 [nj])) ∧
      (u16 p 0 = 2 ^ n.val → (s.calRequest n).1 = false → Does (.calReq h p) s (fun t => t.reliefs = s.reliefs ∧ t.oz.jobs = s.oz.jobs ∧
        rep t 0x701 7 [])) ∧
      (u16 p 0 = 0 → Does (.calReq h p) s (fun t => rep t 0x701 7 []))) ∧
    (let e : SpargeTarget := if u8 p 0 = 1 then .local (coreId (min 36 (u8 p 1))) else .quadrant (fin 8 (min 7 (u8 p 1)) (by decide))
     sv 0x702 →
      ((∀ j ∈ s.oz.jobs, j.run = false) → Does (.spargeReq h p) s (fun t =>
        (t.spg e).fast = (if 0 < (s.spg e).fast then (s.spg e).fast else spargeRegions e) ∧
        ⟨nj, .sparge e, true, 0, []⟩ ∈ t.oz.jobs ∧ rep t 0x702 0 [nj])) ∧
      (s.oz.jobs.find? (fun j => j.run && j.kind == .sparge e) = some j → Does (.spargeReq h p) s (fun t => t.sparges = s.sparges ∧
        t.oz.jobs = s.oz.jobs ∧ rep t 0x702 0 [j.num]))) ∧
    (∀ e ∈ [(0, Instr.spargeFast h mask), (1, .cal h mask), (2, .flashMargin h mask), (3, .otpVerify h mask), (4, .cmpSweep h mask),
        (5, .coreBist h mask), (6, .adcLinearity h mask), (7, .linkLoopback h mask), (8, .eccPattern h mask), (9, .pwmLoopback h mask)],
      let m := s.testTargets e.1 mask
      s.serves h y 0x700 ([BitVec.ofNat 8 e.1, 0, 0, 0] ++ natBytes 8 mask.toNat) → (∀ j ∈ s.oz.jobs, j.run = false) →
      (testMode e.1 s.mode = true → (m ≠ 0 ∨ e.1 = 3) →
        (e.1 = 1 → ∀ i : Fin 16, mask.getLsbD i = true → s.adcOn i = true → (s.calRequest i).1 = true) → Does e.2 s (fun t => (∃ note, ⟨nj, .test e.1 m, true, 0, note⟩ ∈ t.oz.jobs) ∧
        (e.1 = 0 → ∀ x ∈ fastTargets m, 0 < (t.spg x.2).fast) ∧ rep t 0x700 0 (nj :: natBytes 8 m.toNat))) ∧
      (testMode e.1 s.mode = false → Does e.2 s (fun t => t.oz.jobs = s.oz.jobs ∧ rep t 0x700 7 []))) ∧
    (∀ k, j ∈ s.oz.jobs → j.num = job → j.run = true → j.kind = .test k mask → (k = 2 → j.result.getD 0 0 = 0) → Does (.selfTestComplete job passed failed) s (fun t =>
      { j with run := false, status := 0, result := natBytes 8 passed.toNat ++ natBytes 8 failed.toNat } ∈ t.oz.jobs ∧ 998 ∈ t.fab.feed)) ∧
    ((∀ j ∈ s.oz.jobs, j.num = job → j.run = false) → exec (.selfTestComplete job passed failed) s = .next s ∧
      exec (.jobComplete job status result) s = .next s) ∧
    (s.oz.jobs.find? (fun j => j.num == job && j.run) = some j → Does (.jobComplete job status result) s (fun t =>
      { j with run := false, status := status, result := result } ∈ t.oz.jobs ∧ (∀ a r, j.kind = .cal a r → 999 ∈ t.fab.feed)))

/-- R298, R405, R424, R456 to R460, Tables 83 to 86: requests of the groups 0x08xx to 0x0Bxx, served at once: a link's state is
reported, a link retrained or its quarantine lifted; counts are read and cleared; registers and memory words are read, written and
modified as SC, every address checked first; a core is halted, resumed, read, written, given a breakpoint and stepped as the debug
port. The replies that the tables leave open follow log entry 25. -/
def Obligations.LinkDiagnosticAndDebugCommandsAct : Prop :=
  ∀ (s : State) (h : ReqHdr) (y : Session) (p : List Byte) (n : Fin 4) (c : CoreId),
    let rep := fun (t : State) (op st : Nat) (pay : List Byte) => t.replied h y op st pay
    let sv := fun (op : Nat) => s.serves h y op p
    let nj := s.oz.nextJob
    let plain := s.ecc = [] ∧ s.poison = [] ∧ s.collided = none
    let word := fun (a : Nat) => a % 4 = 0 ∧ isSram a = true ∧ s.sramBad a = false
    let solo := s.domReady c = true ∧ s.role c = .solo
    let stored := fun (t : State) (a : Nat) (v : Word) => t.memWord a = v ∧ ∀ b, (b < a ∨ a + 4 ≤ b) → t.memByte b = s.memByte b
    (sv 0x800 → n.val = min 3 (u8 p 0) → Does (.linkStatus h p) s (fun t =>
      rep t 0x800 0 ([BitVec.ofNat 8 (s.fld (rLk n 4) 4 2), BitVec.ofNat 8 (s.lkState n), BitVec.ofNat 8 (s.fld (rLk n 4) 8 3)] ++
        wordBytes (s.rg (rLk n 8)) ++ wordBytes (s.rg rTickStat)))) ∧
    (sv 0x801 → n.val = min 3 (u8 p 0) → s.lkState n ≠ 6 → s.follows = false → s.remotes = [] → Does (.linkRetrain h p) s (fun t =>
      t.lkState n = (s.lkRetrain n).lkState n ∧ ⟨nj, .retrain n, true, 0, []⟩ ∈ t.oz.jobs ∧ rep t 0x801 0 [nj])) ∧
    (sv 0x801 → n.val = min 3 (u8 p 0) → s.follows = true → s.fld rTickCtl 2 2 = n.val → s.mode = 3 →
      Does (.linkRetrain h p) s (fun t => t.lkState n = s.lkState n ∧ rep t 0x801 7 [])) ∧
    (sv 0x802 → n.val = min 3 (u8 p 0) → s.lkState n = 6 → Does (.linkUnquarantine h p) s (fun t =>
      t.lkState n = (s.unquarantine n).lkState n ∧ ⟨nj, .retrain n, true, 0, []⟩ ∈ t.oz.jobs ∧ rep t 0x802 0 [nj])) ∧
    (sv 0x802 → n.val = min 3 (u8 p 0) → s.lkState n ≠ 6 → Does (.linkUnquarantine h p) s (fun t =>
      t.lkState n = s.lkState n ∧ rep t 0x802 7 [])) ∧
    (sv 0x900 → u8 p 0 = 0 → Does (.diagRead h p) s (fun t => rep t 0x900 0 (wordsBytes s.oz.counts.toList))) ∧
    (sv 0x900 → u8 p 0 = 4 → Does (.diagRead h p) s (fun t =>
      rep t 0x900 0 (wordsBytes [s.rg (rSram 0), s.rg (rSram 0x10), s.rg (rSram 0x14), s.rg (rSram 0x18), s.rg (rSram 0x0C)]))) ∧
    (sv 0x901 → u8 p 0 = 4 → s.hwSet = [] → Does (.diagClear h p) s (fun t => t.rg (rSram 0) = s.rg (rSram 0) &&& ~~~ 0x1F ∧
      t.rg (rSram 0x10) = s.rg (rSram 0x10) ∧ rep t 0x901 0 [])) ∧
    (sv 0x901 → u8 p 0 = 0 → Does (.diagClear h p) s (fun t => rep t 0x901 0 [])) ∧
    (sv 0xA00 → plain → (∀ i, i < u16 p 0 → word (u32 p (4 + 4 * i))) → Does (.regRead h p) s (fun t =>
      rep t 0xA00 0 (wordsBytes ((List.range (u16 p 0)).map (fun i => s.memWord (u32 p (4 + 4 * i))))))) ∧
    (∀ i, sv 0xA00 → i < u16 p 0 → u32 p (4 + 4 * i) % 4 ≠ 0 → s.prot = 0 → Does (.regRead h p) s (fun t => t.mem = s.mem ∧ rep t 0xA00 9 [])) ∧
    (sv 0xA01 → plain → u16 p 0 = 1 → word (u32 p 4) → Does (.regWrite h p) s (fun t => stored t (u32 p 4) (w32 p 8) ∧
      rep t 0xA01 0 (wordBytes (w32 p 8)))) ∧
    (∀ i, sv 0xA01 → i < u16 p 0 → u32 p (4 + 8 * i) % 4 ≠ 0 → Does (.regWrite h p) s (fun t => t.mem = s.mem ∧ rep t 0xA01 9 [])) ∧
    (sv 0xA02 → plain → word (u32 p 0) →
      let v := (s.memWord (u32 p 0) &&& ~~~ w32 p 4) ||| (w32 p 8 &&& w32 p 4)
      Does (.regModify h p) s (fun t => stored t (u32 p 0) v ∧ rep t 0xA02 0 (wordBytes v))) ∧
    (sv 0xB00 → c.val = min 36 (u8 p 0) → c ≠ 36 → solo → (s.core c).run = .running → (s.core c).noInt = false →
      Does (.dbgHalt h p) s (fun t => (t.core c).run = .halted ∧ t.fld (rDbg c 4) 1 3 = 1 ∧ rep t 0xB00 0 (natBytes 4 ((s.core c).retired % 2 ^ 32)))) ∧
    (sv 0xB01 → c.val = min 36 (u8 p 0) → solo → (s.core c).run = .halted → s.pairStopped c = false → Does (.dbgResume h p) s (fun t =>
      t.core c = { s.core c with run := .running, haltReq := false, stepping := false, resumed := true } ∧ rep t 0xB01 0 [])) ∧
    (sv 0xB02 → c.val = min 36 (u8 p 0) → u8 p 1 = 1 → solo → (s.core c).run = .halted → u32 p 4 + u16 p 2 ≤ 85 → 4 * u16 p 2 ≤ maxLen y.gen →
      Does (.dbgRead h p) s (fun t => t.cores = s.cores ∧
        rep t 0xB02 0 (wordsBytes ((List.range (u16 p 2)).map (fun i => (s.core c).dbgGet (u32 p 4 + i)))))) ∧
    (sv 0xB03 → c.val = min 36 (u8 p 0) → u8 p 1 = 1 → u16 p 2 = 1 → solo → (s.core c).run = .halted → u32 p 4 < 85 →
      Does (.dbgWrite h p) s (fun t => t.core c = (s.core c).dbgPut (u32 p 4) (w32 p 8) ∧ t.mem = s.mem ∧ rep t 0xB03 0 (wordBytes (w32 p 8)))) ∧
    (let b := 0x10 + 0xC * min 5 (u8 p 1)
     sv 0xB04 → c.val = min 36 (u8 p 0) → solo → Does (.dbgBreak h p) s (fun t => t.rg (rDbg c b) = w32 p 4 ∧ t.rg (rDbg c (b + 4)) = w32 p 8 ∧
      (u8 p 1 < 4 → t.fld (rDbg c (b + 8)) 0 3 = if u8 p 2 = 1 then 1 else 0) ∧ rep t 0xB04 0 [BitVec.ofNat 8 (min 5 (u8 p 1))])) ∧
    (sv 0xB05 → c.val = min 36 (u8 p 0) → c ≠ 36 → solo → (s.core c).run = .halted → s.pairStopped c = false → Does (.dbgStep h p) s (fun t =>
      (t.core c).run = .running ∧ (t.core c).stepping = true ∧ (t.core c).pc = (s.core c).pc ∧ t.oz.wait = some ⟨h, 0xB05, none, .halted c true⟩))

/-! ## Links and interfaces (chapter 16) -/

/-- R412 to R419, R423 to R425: a link sends its flits in order, resends, and checks what arrives: a flit cut short is dropped, any other
waits F − H for its check, and then a sound one advances SEQ, a request of another device is answered, one without a credit is hostile;
the link trains, fails and is written; requests of other devices are served or refused, the refusal leaving before the quarantine,
answers go to their requester, unanswered accesses time out. What the rules leave open follows log entries 21 and 42. -/
def Obligations.LinksCarryFlitsAndServeAccesses : Prop :=
  ∀ (s : State) (m : Master) (x : Ctx) (n : Fin 4) (c : FlitReq) (cs : List FlitReq) (flit : List Byte) (fs : List (List Byte)) (gen : Fin 3)
    (lat : Byte) (d : Fin 8) (hops : Fin 8) (r : MemReq) (q : RemoteReq) (tag : BitVec 16) (data : Word) (addr : BitVec 18) (len : BitVec 13)
    (core : Master) (edge : Nat),
    let l := s.link n
    let up := s.lkUp n = true
    let sends := fun (t : State) (ty route : Nat) (tag : BitVec 16) (body : List Byte) =>
      (t.link n).last = mkFlit l.slots ty (min 15 l.owe) l.seq ((l.rxSeq + 255) % 256) route tag body ∧
      (t.link n).seq = (l.seq + 1) % 256 ∧ (t.link n).owe = l.owe - min 15 l.owe ∧ (t.link n).slots = 0
    let ev := fun (k : Nat) => 832 + 16 * n.val + k
    let f := parseFlit flit
    let sound := f.head = true ∧ f.good = true ∧ f.ty ≤ 8 ∧ seqAhead l f.seq = 0
    let st := rLk n 4
    let a := sramBase + r.offset.toNat
    let on := s.domReady (55 + r.offset.toNat / 0x100000 % 8) = true
    let plain := s.ecc = [] ∧ s.poison = [] ∧ s.collided = none
    let told := fun (t : State) (ty : Nat) (body : List Byte) =>
      (t.link n).ctl = l.ctl ++ [⟨ty, r.src.val + 8 * r.dst.val, r.tag, body, s.now⟩]
    let count := fun (t : State) (k lo len : Nat) => t.fld k lo len = min (2 ^ len - 1) (s.fld k lo len + 1)
    (¬ up → exec (.flitTransmit n) s = .next s ∧ exec (.flitResend n) s = .next s ∧ exec (.flitReceive n flit) s = .next s ∧
      exec (.laneLockLost n) s = .next s ∧ exec (.errorLimitBreach n) s = .next s ∧ exec (.numberAnnounce n (.announce d hops)) s = .next s ∧
      exec (.memrd n r .idle) s = .next s ∧ exec (.memwr n r .idle) s = .next s ∧ exec (.memrsp n tag data 0) s = .next s ∧
      exec (.busy n tag) s = .next s) ∧
    (s.slotBegins n = false → exec (.flitTransmit n) s = .next s) ∧
    (∀ e, s.slotBegins n = true → up → l.tick = some (e, flit) → e ≤ s.now → Does (.flitTransmit n) s (fun t => sends t 1 0 0 flit ∧
      (t.link n).slot0 = s.now ∧ (t.link n).tick = none ∧ (t.link n).resend = l.resend)) ∧
    (s.slotBegins n = true → up → l.tick = none →
      (l.resend = flit :: fs → Does (.flitTransmit n) s (fun t => (t.link n).last = flit ∧ (t.link n).resend = fs ∧ (t.link n).seq = l.seq)) ∧
      (l.resend = [] → s.lkReady l.ctl = c :: cs → Does (.flitTransmit n) s (fun t => sends t c.ty c.route c.tag c.body ∧ (t.link n).ctl = cs)) ∧
      (l.resend = [] → s.lkReady l.ctl = [] → l.nums = [] → s.lkReady l.req = c :: cs →
        (0 < l.credit → Does (.flitTransmit n) s (fun t => sends t c.ty c.route c.tag c.body ∧ (t.link n).req = cs ∧ (t.link n).credit = l.credit - 1)) ∧
        (l.credit = 0 → Does (.flitTransmit n) s (fun t => sends t 0 0 0 [] ∧ (t.link n).req = l.req))) ∧
      (l.resend = [] → s.lkReady l.ctl = [] → l.nums = [] → s.lkReady l.req = [] → Does (.flitTransmit n) s (fun t => sends t 0 0 0 []))) ∧
    (s.resendDue n = true → Does (.flitResend n) s (fun t => (t.link n).resend = l.unack ∧ (t.link n).quiet = 0 ∧ t = { s with links := t.links })) ∧
    (s.resendDue n = false → exec (.flitResend n) s = .next s) ∧
    (up → flit.length ≠ 32 → Does (.flitReceive n flit) s (fun t => count t (rLk n 8) 0 16 ∧ (t.link n).gap = max l.gap (min 127 (l.gap + 1)) ∧
      (t.link n).rxSeq = l.rxSeq ∧ (t.link n).checks = l.checks ∧ t.mem = s.mem ∧ t.due = s.due)) ∧
    (up → f.head = true → f.ty ≠ 1 → Does (.flitReceive n flit) s (fun t =>
      (∃ first, (t.link n).checks = l.checks ++ [(s.now + s.lkTail n, flit, first)]) ∧ (t.link n).rxSeq = l.rxSeq ∧
      (t.link n).held = l.held ∧ (t.link n).credit = l.credit ∧ t.mem = s.mem ∧ t.due = s.due)) ∧
    (∀ first rest, up → l.checks = (edge, flit, first) :: rest →
      let t := State.flitChecks n 1 s
      (s.now < edge → t = s) ∧
      (edge ≤ s.now → f.ty ≠ 6 → (t.link n).checks = rest ∨ t.lkState n = 6) ∧
      (edge ≤ s.now → sound → f.ty = 0 → (t.link n).rxSeq = (l.rxSeq + 1) % 256 ∧ (t.link n).gap = l.gap - 1 ∧
        (t.link n).credit = min 16 (l.credit + f.cred) ∧ (t.link n).unack = (ackedBy f.ack l.unack).getD l.unack ∧
        t.lkState n = (if 0 < f.cred ∧ s.lkState n = 3 then 2 else s.lkState n) ∧ t.mem = s.mem) ∧
      (edge ≤ s.now → sound → f.ty = 2 → s.devNum = some f.dst.val → l.held + l.owe < 16 → plain → s.memBad f.req = false →
        s.domReady (55 + f.req.offset.toNat / 0x100000 % 8) = true →
        (t.link n).ctl = l.ctl ++ [⟨4, f.src.val + 8 * f.dst.val, f.tag, rspBody (s.memWord (sramBase + f.req.offset.toNat)) 0, s.now⟩] ∧
        (t.link n).held = l.held ∧ (t.link n).owe = l.owe + 1 ∧ t.mem = s.mem) ∧
      (edge ≤ s.now → sound → f.ty = 2 → 16 ≤ l.held + l.owe → t.lkState n = 6 ∧ t.fld st 24 4 = 3 ∧ ev 13 ∈ t.fab.feed)) ∧
    (s.lkState n = 1 → s.domReady (76 + n) = true → s.notYet (.trainingTimeout n) = false → Does (.trainingTimeout n) s (fun t => t.lkState n = 4 ∧ ev 10 ∈ t.fab.feed ∧
      (s.now + 80000000, Instr.trainingRetry n) ∈ t.due)) ∧
    (s.lkState n ≠ 1 ∨ s.notYet (.trainingTimeout n) = true → exec (.trainingTimeout n) s = .next s) ∧
    (s.lkState n = 4 → s.notYet (.trainingRetry n) = false →
      Does (.trainingRetry n) s (fun t => (s.now + 80000000, Instr.trainingRetry n) ∈ t.due ∧ t = { s with due := t.due })) ∧
    (s.lkState n ≠ 4 ∨ s.notYet (.trainingRetry n) = true → exec (.trainingRetry n) s = .next s) ∧
    ((s.lkState n = 1 ∨ s.lkState n = 4) → s.flag (rLk n 0) 0 = true → s.domReady (76 + n) = true → Does (.trainingComplete n gen lat) s (fun t =>
      t.lkState n = 2 ∧ t.fld st 4 2 = max 1 (min gen.val (s.fld (rLk n 0) 2 2)) ∧ t.fld st 16 8 = lat.toNat ∧ ev 8 ∈ t.fab.feed ∧
      (t.link n).credit = 16 ∧ (t.link n).seq = 0 ∧ (t.link n).rxSeq = 0)) ∧
    (s.lkState n ≠ 1 → s.lkState n ≠ 4 → exec (.trainingComplete n gen lat) s = .next s) ∧
    (up → Does (.laneLockLost n) s (fun t => t.lkState n = (if s.flag (rLk n 0) 0 then 1 else 0) ∧ ev 9 ∈ t.fab.feed)) ∧
    (up → s.remotes = [q] → q.link = n → q.use = .command → Does (.laneLockLost n) s (fun t => t.remotes = [] ∧ t.resp = ⟨some .timeout, 0⟩)) ∧
    (s.lkState n = 2 → s.domReady (76 + n) = true → l.credit = 0 → l.req = c :: cs → c.since + max 1 (s.fld (rLk n 0) 16 16) * 800 < s.now →
      Does (.partnerSlow n) s (fun t => t.lkState n = 3 ∧ ev 11 ∈ t.fab.feed)) ∧
    (s.lkState n ≠ 2 ∨ 0 < l.credit ∨ l.req = [] → exec (.partnerSlow n) s = .next s) ∧
    (up → l.errs ≤ s.fld (rLk n 0x0C) 0 8 → exec (.errorLimitBreach n) s = .next s) ∧
    (up → s.fld (rLk n 0x0C) 0 8 < l.errs → l.breach = none → Does (.errorLimitBreach n) s (fun t => t.lkState n = (if s.flag (rLk n 0) 0 then 1 else 0) ∧
      (t.link n).breach = some s.now ∧ (t.link n).errs = 0 ∧ count t (rLk n 8) 16 8)) ∧
    (∀ e, up → s.fld (rLk n 0x0C) 0 8 < l.errs → l.breach = some e → s.now ≤ e + 800000000 → Does (.errorLimitBreach n) s (fun t => t.lkState n = 5 ∧ ev 12 ∈ t.fab.feed ∧
      (t.link n).breach = none)) ∧
    (s.enters m true x [rLk n 0, rLk n 0x20] → s.domReady (76 + n) = true →
      (x.free = true → s.lkState n ≠ 6 → s.flag (rLk n 0) 0 = true → Does (.retrain m n) s (fun t => t.lkState n = 1 ∧ t.resp = ⟨none, 0⟩)) ∧
      (x.free = true → s.lkState n = 6 → Does (.retrain m n) s (fun t => t.lkState n = 6 ∧ t.resp = ⟨none, 0⟩)) ∧
      (x.free = false → exec (.retrain m n) s = .next (s.refuse .denied) ∧ exec (.oztxGo m n addr len) s = .next (s.refuse .denied)) ∧
      (x.free = true → up → let pkt := s.memBytes (locAddr 36 (addr.toNat / 4 * 4)) len.toNat
        Does (.oztxGo m n addr len) s (fun t => (t.link n).req = l.req ++ (ozFlits pkt.length true pkt).map (fun b => ⟨6, 0, 0, b, s.now⟩) ∧
          t.fld (rLk n 0x20) 18 13 = len.toNat ∧ t.mem = s.mem ∧ t.resp = ⟨none, 0⟩))) ∧
    (up → Does (.numberAnnounce n (.announce d hops)) s (fun t => (d.val, hops.val) ∈ (t.link n).ann ∧ (hops = 0 → t.fld st 8 3 = d.val))) ∧
    (∀ g, up → s.fld rTickCtl 0 2 ≠ 2 → hops.val ≤ 3 → s.grantNum d.val = some g → Does (.numberAnnounce n (.request d hops)) s (fun t =>
      t.lkUsed = s.lkUsed ||| BitVec.ofNat 8 (2 ^ g) ∧ (t.link n).nums = l.nums ++ [.grant ⟨g % 8, by omega⟩ (decide (g = d.val))])) ∧
    (up → s.memBad r = true →
      let refusal := mkFlit l.slots 4 (min 15 (if l.held = 0 then l.owe else l.owe + 1)) l.seq ((l.rxSeq + 255) % 256) (r.src.val + 8 * r.dst.val)
        r.tag (rspBody 0 2)
      Does (.memrd n r .idle) s (fun t => t.lkState n = 6 ∧ t.fld st 24 4 = 2 ∧ (t.link n).last = refusal) ∧
      Does (.memwr n r .idle) s (fun t => t.lkState n = 6 ∧ t.fld st 24 4 = 2 ∧ (t.link n).last = refusal)) ∧
    (up → s.memBad r = false → on → plain →
      Does (.memrd n r .idle) s (fun t => told t 4 (rspBody (s.memWord a) 0) ∧ t.mem = s.mem) ∧
      Does (.memrd n r (.write core data)) s (fun t => told t 5 [] ∧ t.memWord a = data ∧ t.flag (rSram 0) 0 = true ∧ 936 ∈ t.fab.coreFires) ∧
      Does (.memwr n r .idle) s (fun t => told t 4 (rspBody 0 0) ∧
        (∀ i, i < 4 → t.memByte (a + i) = if r.mask.getLsbD i then r.data.extractLsb' (8 * i) 8 else s.memByte (a + i)) ∧
        (∀ b, (b < a ∨ a + 4 ≤ b) → t.memByte b = s.memByte b)) ∧
      Does (.memwr n r (.write core data)) s (fun t => told t 5 [] ∧ t.memWord a = data)) ∧
    (up → s.remoteByTag tag = some q → q.use = .command →
      Does (.memrsp n tag data 0) s (fun t => t.resp = ⟨none, data⟩ ∧ t.remotes = s.remotes.filter (fun z => z.tag != tag)) ∧
      Does (.memrsp n tag data 2) s (fun t => t.resp = ⟨some .denied, 0⟩ ∧ t.remotes = s.remotes.filter (fun z => z.tag != tag)) ∧
      (3 ≤ q.busy → Does (.busy n tag) s (fun t => t.resp = ⟨some .timeout, 0⟩ ∧ count t (rLk n 0x18) 16 16 ∧
        t.remotes = s.remotes.filter (fun z => z.tag != tag)))) ∧
    (up → s.remoteByTag tag = none →
      Does (.memrsp n tag data 0) s (fun t => count t (rLk n 0x1C) 16 16 ∧ t.resp = s.resp ∧ t.remotes = s.remotes) ∧
      Does (.busy n tag) s (fun t => count t (rLk n 0x18) 16 16 ∧ count t (rLk n 0x1C) 16 16 ∧ t.remotes = s.remotes)) ∧
    (up → s.remoteByTag tag = some q → q.busy < 3 → q.link = n → Does (.busy n tag) s (fun t => count t (rLk n 0x18) 16 16 ∧
      (∃ z, (t.link n).req = l.req ++ [z] ∧ z.ty = (if q.write then 3 else 2) ∧ z.tag = tag) ∧
      t.remotes = s.remotes.map (fun z => if z.tag = tag then { z with busy := z.busy + 1 } else z))) ∧
    (s.remoteByTag tag = some q → q.use = .command → s.notYet (.remoteAccessTimeout tag) = false → Does (.remoteAccessTimeout tag) s (fun t => t.resp = ⟨some .timeout, 0⟩ ∧
      t.remotes = s.remotes.filter (fun z => z.tag != tag))) ∧
    (s.remoteByTag tag = none ∨ s.notYet (.remoteAccessTimeout tag) = true → exec (.remoteAccessTimeout tag) s = .next s)

/-- R391, R392, R426 to R432: a frame that the MAC accepts goes through the receive ring, one it does not is dropped; a transmit
walk takes the owned entry, its frame with the FCS, and gives it back; CAN counts errors and recovers; the UART's FIFOs fill and drain; an SPIH transfer
carries one packet in or one reply out. The order of a byte count in a ring entry and the error counts are log entry 22's. -/
def Obligations.InterfacesMoveFramesAndBytes : Prop :=
  ∀ (s : State) (m : Master) (x : Ctx) (p : Fin 2) (c : Fin 6) (u : Fin 3) (frame body : List Byte) (f : CanFrame) (e : CanError) (tx : Bool)
    (b : Byte) (perr ferr mode3 : Bool) (h : ReqHdr) (y : Session) (bytes d : List Byte) (bufs : Nat) (w : Word) (ws : List Word),
    let port := fun (k : RingPort) => match k with | .eth q => 66 + q.val | .can q => 56 + q.val
    let power := fun (k : RingPort) => match k with | .eth _ => 82 | .can _ => 83
    let plain := s.ecc = [] ∧ s.poison = [] ∧ s.collided = none ∧ (∀ i, i < 8 → s.domReady (55 + i) = true ∧ s.testing 8 i = false) ∧
      ∀ o ∈ s.bankWorld.toList, o ≠ some false
    let inSram := fun (a n : Nat) => sramBase ≤ a ∧ a + n ≤ sramBase + 0x800000
    let rxN := s.fld (rRing (.eth p) 8) 0 8
    let rxE := s.fld (rRing (.eth p) 0) 0 32 + 8 * ((s.ring (.eth p)).rxPos % rxN)
    let buf := (s.memWord rxE).toNat
    let err := rCan c 0x0C
    let on := s.portOn (.can c) = true ∧ s.canState c ≠ 2 ∧ s.flag (rCan c 0) 3 = false
    let q := s.uart u
    let k := 5 + s.fld (rUart u 0) 4 2
    let spih := s.mode ≠ 0 ∧ s.domReady 83 = true
    (s.ethAccept p frame = none → exec (.ethFrameReceive p frame) s = .next s) ∧
    (s.ethAccept p frame = some body → s.udpParse p body = none → isGptp body = false → s.arpFor p body = false → plain → rxN ≠ 0 → rxE % 4 = 0 →
      inSram rxE 8 → inSram buf body.length → (buf + body.length ≤ rxE ∨ rxE + 8 ≤ buf) → bit (s.memWord (rxE + 4)) 16 = true →
      body.length ≤ bits (s.memWord (rxE + 4)) 0 13 → Does (.ethFrameReceive p frame) s (fun t =>
        (∀ i (hi : i < body.length), t.memByte (buf + i) = body[i]) ∧ bit (t.memWord (rxE + 4)) 16 = false ∧ bit (t.memWord (rxE + 4)) 17 = false ∧
        bits (t.memWord (rxE + 4)) 0 13 = body.length ∧ (t.ring (.eth p)).rxPos = ((s.ring (.eth p)).rxPos + 1) % rxN ∧
        896 + 3 * p.val ∈ t.fab.feed)) ∧
    (∀ r : RingPort, let n := s.fld (rRing r 8) 8 8
      let z := s.ring r
      let a := s.fld (rRing r 4) 0 32 + 8 * (z.txPos % n)
      (s.enters m true x [txgoAddr r] → s.domReady (power r) = true → s.unitMay x (port r) = false → exec (.txgo m r) s = .next (s.refuse .denied)) ∧
      (s.enters m true x [txgoAddr r] → s.unitMay x (port r) = true → s.portOn r = true → z.walk = true →
        Does (.txgo m r) s (fun t => t.ring r = z ∧ t.mem = s.mem ∧ t.resp = ⟨none, 0⟩)) ∧
      (s.enters m true x [txgoAddr r] → s.unitMay x (port r) = true → s.portOn r = true → s.sends r = false → z.walk = false →
        Does (.txgo m r) s (fun t => t.ring r = z ∧ t.mem = s.mem ∧ t.resp = ⟨none, 0⟩)) ∧
      (s.enters m true x [txgoAddr r] → s.unitMay x (port r) = true → s.portOn r = true → s.sends r = true → z.walk = false → plain → n ≠ 0 → a % 4 = 0 → inSram a 8 →
        (bit (s.memWord (a + 4)) 16 = false → Does (.txgo m r) s (fun t => (t.ring r).walk = false ∧ (t.ring r).txPos = z.txPos ∧ t.mem = s.mem)) ∧
        (bit (s.memWord (a + 4)) 16 = true → inSram (s.memWord a).toNat (bits (s.memWord (a + 4)) 0 13) →
          let f := ringFrame r (s.memBytes (s.memWord a).toNat (bits (s.memWord (a + 4)) 0 13))
          s.unsent r f = false → Does (.txgo m r) s (fun t => (t.ring r).walk = true ∧ (t.ring r).out = f ∧
            (t.ring r).txPos = z.txPos ∧ t.resp = ⟨none, 0⟩))) ∧
      (z.walk = false → exec (.frameTransmitComplete r) s = .next s) ∧
      (z.walk = true → plain → n ≠ 0 → a % 4 = 0 → inSram a 8 → s.domReady (power r) = true → (∀ g, r = .can g → s.flag (rCan g 0) 3 = false) →
        Does (.frameTransmitComplete r) s (fun t => bit (t.memWord (a + 4)) 16 = false ∧
          (∀ g, r = .eth g → 896 + 3 * g.val + 1 ∈ t.fab.feed) ∧ (∀ g, r = .can g → 902 + 3 * g.val + 1 ∈ t.fab.feed)))) ∧
    (on → (f.fdf = false ∨ s.flag (rCan c 0) 1 = true) → let old := s.fld err 8 8
      Does (.canFrameReceive c f) s (fun t => t.fld err 8 8 = (if 127 < old then 127 else old - 1) ∧ t.fld err 0 8 = s.fld err 0 8 ∧
        (s.canFilter c f = true → 902 + 3 * c.val ∈ t.fab.feed) ∧ (s.canFilter c f = false → t.mem = s.mem ∧ t.cans = s.cans))) ∧
    (¬ on → exec (.canFrameReceive c f) s = .next s ∧ exec (.canProtocolError c e tx) s = .next s) ∧
    (on → let tec := s.fld err 0 8 + if tx then 8 else 0
      let rec_ := s.fld err 8 8 + if tx then 0 else 1
      Does (.canProtocolError c e tx) s (fun t => t.fld err 0 8 = min 255 tec ∧ t.fld err 8 8 = min 255 rec_ ∧ t.fld err 18 3 = canErrCode e ∧
        t.canState c = (if 255 < tec then 2 else if 127 < tec ∨ 127 < rec_ then 1 else 0) ∧ 902 + 3 * c.val + 2 ∈ t.fab.feed)) ∧
    (s.enters m true x [rCan c 0, rUart u 4] → s.domReady 83 = true →
      (s.unitMay x (56 + c) = true → s.canState c = 2 → Does (.recover m c) s (fun t => (t.can c).recover = true ∧ t.canState c = 2 ∧ t.resp = ⟨none, 0⟩)) ∧
      (s.unitMay x (56 + c) = true → s.canState c ≠ 2 → Does (.recover m c) s (fun t => t.cans = s.cans ∧ t.resp = ⟨none, 0⟩)) ∧
      (s.unitMay x (56 + c) = false → exec (.recover m c) s = .next (s.refuse .denied)) ∧
      (s.unitMay x (62 + u) = true → Does (.uartTxWrite m u b) s (fun t =>
        t.uart u = { q with tx := if q.tx.length < 16 then q.tx ++ [b] else q.tx } ∧ t.resp = ⟨none, 0⟩ ∧ t.regs = s.regs)) ∧
      (s.unitMay x (62 + u) = false → exec (.uartTxWrite m u b) s = .next (s.refuse .denied))) ∧
    (s.portOn (.can c) = true → s.canState c = 2 → (s.can c).recover = true → Does (.busOffRecovery c) s (fun t => t.canState c = 0 ∧
      t.fld err 0 8 = 0 ∧ t.fld err 8 8 = 0 ∧ (t.can c).recover = false)) ∧
    ((s.can c).recover = false → exec (.busOffRecovery c) s = .next s) ∧
    (s.uartOn u = true → let v := BitVec.ofNat 32 (b.toNat % 2 ^ k + 256 * b2n perr + 512 * b2n ferr)
      (q.rx.length < 16 → Does (.uartReceive u b perr ferr) s (fun t => (t.uart u).rx = q.rx ++ [v] ∧ (ferr = true → t.flag (rUart u 8) 17 = true) ∧
        (perr = true → t.flag (rUart u 8) 18 = true) ∧ ((ferr || perr) = true → 920 + 2 * u.val + 1 ∈ t.fab.feed) ∧
        (s.now + 32 * s.fld (rUart u 0) 8 24, Instr.uartRxTimeout u) ∈ t.due)) ∧
      (16 ≤ q.rx.length → Does (.uartReceive u b perr ferr) s (fun t => t.uarts = s.uarts ∧ t.flag (rUart u 8) 16 = true ∧
        920 + 2 * u.val + 1 ∈ t.fab.feed)) ∧
      (s.notYet (.uartRxTimeout u) = true → exec (.uartRxTimeout u) s = .next s) ∧
      (q.rx ≠ [] → s.uartSel u = 1 → s.notYet (.uartRxTimeout u) = false → Does (.uartRxTimeout u) s (fun t => 920 + 2 * u.val ∈ t.fab.feed ∧ t.uarts = s.uarts)) ∧
      (∀ r, q.tx = b :: r → Does (.uartByteSent u) s (fun t => t.uart u = { q with tx := r } ∧ (r = [] → s.uartSel u = 2 → 920 + 2 * u.val ∈ t.fab.feed)))) ∧
    (s.uartOn u = false → exec (.uartReceive u b perr ferr) s = .next s ∧ exec (.uartByteSent u) s = .next s) ∧
    (s.enters m false x [rUart u 4] → s.domReady 83 = true → (q.rx = w :: ws → Does (.uartDataRead m u) s (fun t => t.resp = ⟨none, w⟩ ∧
        t.uart u = { q with rx := ws } ∧ t.regs = s.regs)) ∧
      (q.rx = [] → exec (.uartDataRead m u) s = .next (s.answer 0x80000000))) ∧
    (s.mode = 0 → exec (.spihWriteTransfer mode3 bytes) s = .next (s.wakeUp .spih) ∧ exec (.spihReadTransfer mode3) s = .next (s.wakeUp .spih)) ∧
    (spih →
      (bytes.length < 16 → Does (.spihWriteTransfer mode3 bytes) s (fun t => t.flag rSpih 8 = true ∧ t.flag rSpih 10 = mode3 ∧ 926 ∈ t.fab.feed ∧
        927 ∈ t.fab.feed ∧ t.oz.queue = s.oz.queue)) ∧
      (h.via = .spih → s.serves h y 2 d → y.auth = !y.key.isEmpty → 1 ≤ y.gen → y.gen ≤ 3 → d.length ≤ maxLen y.gen → bufs < 256 →
        y.fresh h.seq = true → y.open_ < y.limit → s.spihSlots < 16 →
        Does (.spihWriteTransfer mode3 (mkPacket y.gen 0 h.session h.seq 2 bufs 0 d y.key)) s (fun t => t.replied h y 2 0 d ∧ 926 ∈ t.fab.feed)) ∧
      (s.oz.refusal = some bytes → Does (.spihReadTransfer mode3) s (fun t => t.oz.spihOut = natBytes 2 bytes.length ++ bytes ∧
        t.oz.refusal = none ∧ t.oz.spih = s.oz.spih)) ∧
      (∀ r rs, s.oz.refusal = none → s.oz.spih = r :: rs → Does (.spihReadTransfer mode3) s (fun t =>
        t.oz.spihOut = natBytes 2 r.2.length ++ r.2 ∧ t.oz.spih = rs)) ∧
      (s.oz.refusal = none → s.oz.spih = [] → Does (.spihReadTransfer mode3) s (fun t => t.oz.spihOut = [0, 0])))

/-! ## Modes, power, reset and start-up (chapter 17) -/

/-- R435 to R443, R447, R448, R450, R451, R480: a mode request is granted or refused by Table 93; a hot junction or a low supply
sends the device to SAFE-HOLD; droop steps go down and up; domains are switched on and off, become ready and fail; a core passes or
fails its self-test; resets leave the device in BOOT with the fences standing but for a loss of the always-on supply; BOOT ends in
COMMISSION; waking and the restart of SC act. What the rules leave open follows log entry 36. -/
def Obligations.ModesDomainsAndResetsAct : Prop :=
  ∀ (s : State) (m : Master) (x : Ctx) (req : Fin 8) (temp : BitVec 9) (k : Fin 9) (half : Bool) (d : Fin 85) (n : Fin 36) (pass ok : Bool)
    (key : Byte) (f : BootFindings) (w : WakeSource) (c : CoreId) (a : Word),
    let dr := s.fld rDroopStat (2 * k.val) 2
    let last := s.rateLast k
    let called := fun (t : State) (rate : Nat) => ∃ q, s.now < q ∧ clkOn (s.clkThen k q) q = true ∧ t = { s with rateDue := s.rateDue ++ [(q, k, rate)] }
    let down := if half then 2 else 1
    let edge := fun (t : State) => t.modeEdge t.modeNext
    let shuts := fun (t : State) (i : Nat) => t.flag rShCause i = true ∧ t.mode = s.mode ∧
      (s.shEnabled i = true → (s.mode = 2 ∨ s.mode = 3 ∨ s.mode = 5) → (edge t).mode = 4 ∧ 985 ∈ (edge t).fab.feed)
    let asked := fun (t : State) => s.regsBut t [] ∧ s.regsOnly t ∧ t.resp = ⟨none, 0⟩
    let sys := fun (t : State) => t.mode = 1 ∧ t.mem = [] ∧ t.cores = State.reset.cores ∧ t.flag rSysReset 5 = false
    (s.enters m true x [rSysMode, basePwr + 4 * (d.val / 32), rSysReset] → x.free = true →
      (2 ≤ req.val → req.val ≤ 5 → s.mode ≠ req.val → s.modeAllowed req.val = true → Does (.modeRequest m req) s (fun t => t.mode = s.mode ∧
        t.modeReq = some req ∧ t.resp = ⟨none, 0⟩ ∧
        (s.shDue = false → (edge t).mode = req.val ∧ (edge t).fld rSysMode 4 3 = s.mode ∧ 984 ∈ (edge t).fab.feed))) ∧
      (modeCode req.val = 0 → s.modeAllowed 0 = true → Does (.modeRequest m req) s (fun t => t.mode = s.mode ∧ t.modeReq = some 0 ∧
        t.dormant.mode = 0 ∧ t.dormant.active = s.active.filter (fun e => e.1 / 0x10000 == 8) ∧ t.dormant.ts64 = s.ts64 ∧ t.dormant.mem = [])) ∧
      (s.mode ≠ modeCode req.val → s.modeAllowed (modeCode req.val) = false → Does (.modeRequest m req) s (fun t => t.mode = s.mode ∧
        t.modeReq = s.modeReq ∧ t.flag rSysMode 12 = true)) ∧
      (s.domOn d = false → s.offDue.getLsbD d = true → Does (.powerDomainOn m d) s (fun t => t.domOn d = true ∧ t.offDue.getLsbD d = false ∧
        t.due = s.due)) ∧
      (s.domOn d = false → s.offDue.getLsbD d = false → Does (.powerDomainOn m d) s (fun t => t.domOn d = true ∧ (s.now + 16000, Instr.domainReady d) ∈ t.due ∧
        (∀ e : Fin 85, e ≠ d → t.domOn e = s.domOn e) ∧ t.resp = ⟨none, 0⟩)) ∧
      (s.domOn d = true → Does (.powerDomainOn m d) s asked) ∧
      (s.domOn d = true → s.offRefused d = false → Does (.powerDomainOff m d) s (fun t => t.domOn d = false ∧ t.offDue.getLsbD d = true ∧
        t.mem = s.mem ∧ t.cores = s.cores ∧ t.powerEdge.domOn d = false ∧ t.powerEdge.domReady d = false ∧ t.resp = ⟨none, 0⟩)) ∧
      (s.domOn d = true → s.offRefused d = true → Does (.powerDomainOff m d) s (fun t => t.domOn d = true ∧ t.flag rPwrStat 0 = true ∧
        t.fld rPwrStat 16 7 = d.val ∧ t.mem = s.mem ∧ t.cores = s.cores)) ∧
      (key = 0x5A → Does (.softwareReset m key) s (fun t => sys t ∧ t.flag rSysReset 3 = true ∧ t.fenced n = s.fenced n ∧ t.resp = ⟨none, 0⟩)) ∧
      (key ≠ 0x5A → Does (.softwareReset m key) s (fun t => s.regsBut t [] ∧ t.mem = s.mem ∧ t.cores = s.cores ∧ t.resp = ⟨none, 0⟩))) ∧
    (s.enters m true x [rSysMode, basePwr + 4 * (d.val / 32), rSysReset] → x.free = false → exec (.modeRequest m req) s = .next (s.refuse .denied) ∧
      exec (.powerDomainOn m d) s = .next (s.refuse .denied) ∧ exec (.powerDomainOff m d) s = .next (s.refuse .denied) ∧
      exec (.softwareReset m key) s = .next (s.refuse .denied)) ∧
    (s.mode ≠ 0 → (s.fld rTemp 16 8 : Int) < temp.toInt → Does (.temperatureMeasurement temp) s (fun t => t.flag rTemp 24 = true ∧ shuts t 0 ∧
      t.fld rTemp 0 8 = (BitVec.ofInt 8 (min 127 (max (-128) temp.toInt))).toNat ∧ (s.flag rTemp 24 = false → 987 ∈ t.fab.feed))) ∧
    (s.mode ≠ 0 → temp.toInt ≤ (s.fld rTemp 16 8 : Int) → Does (.temperatureMeasurement temp) s (fun t => t.flag rTemp 24 = false ∧ t.mode = s.mode ∧
      s.regsBut t [rTemp])) ∧
    (s.mode = 0 → exec (.temperatureMeasurement temp) s = .next s ∧ exec .sharedSupplyLow s = .next s ∧ exec (.droopStepDown k half) s = .next s) ∧
    (s.mode ≠ 0 → s.flag rDroopStat 24 = false → Does .sharedSupplyLow s (fun t => t.flag rDroopStat 24 = true ∧ shuts t 1 ∧ 978 ∈ t.fab.feed)) ∧
    (s.flag rDroopStat 24 = true → exec .sharedSupplyLow s = .next s) ∧
    Does .sharedSupplyRestored s (fun t => t.flag rDroopStat 24 = false ∧ t.mode = s.mode ∧ s.regsBut t [rDroopStat]) ∧
    (s.mode ≠ 0 → last < down → Does (.droopStepDown k half) s (fun t => called t down ∧
      (s.rateDue = [] → dr = 0 → t.rateDue = [(s.now + 2, k, down)]))) ∧
    (down ≤ last → exec (.droopStepDown k half) s = .next s) ∧
    (s.mode ≠ 0 → 0 < last → Does (.droopRestore k) s (fun t => called t (last - 1))) ∧
    (last = 0 → exec (.droopRestore k) s = .next s) ∧
    (∀ j rate, rate < 3 → s.rateDue = [(j, k, rate)] → j ≤ s.now →
      let t := s.rateEdge
      t.rateDue = [] ∧ t.fld rDroopStat (2 * k.val) 2 = rate ∧ t.clkAt[k] = s.now ∧
      (dr < rate → 960 + k.val ∈ t.fab.feed ∧ t.fld (rDroopCnt k) 0 16 = min 0xFFFF (s.fld (rDroopCnt k) 0 16 + 1)) ∧
      (rate ≤ dr → s.regsBut t [rDroopStat]) ∧ (rate = 0 → rate < dr → 969 + k.val ∈ t.fab.feed)) ∧
    (s.domOn d = true → s.domReady d = false → s.notYet (.domainReady d) = false → Does (.domainReady d) s (fun t =>
      t.domReady d = true ∧ t.domOn d = true ∧
      (∀ i : Fin 4, d.val = 76 + i.val → s.flag (rLk i 0) 0 = true → t.lkState i = 1) ∧ (d.val < 36 → t.cycled.getLsbD d = true ∧ t.tested.getLsbD d = false ∧
        (t.core (coreId d.val)).testEnd = some (s.now + s.coreTb d.val 56576)))) ∧
    ((s.domOn d = false ∨ s.domReady d = true ∨ s.notYet (.domainReady d) = true) → exec (.domainReady d) s = .next s) ∧
    (s.domOn d = true → s.notYet (.domainReady d) = false → (∀ e ∈ s.faultDue, e.2 ≠ d) → Does (.switchFault d) s (fun t => t.domOn d = false ∧ t.domReady d = false ∧ t.faulted.getLsbD d = true ∧
      t.flag rPwrStat 1 = true ∧ t.fld rPwrStat 8 7 = d.val ∧ 988 ∈ t.fab.feed ∧ t.flag rShCause 2 = true)) ∧
    (∀ e, s.domOn d = true → s.due = [(e, .domainReady d)] → s.now < e → (∀ e ∈ s.faultDue, e.2 ≠ d) → Does (.switchFault d) s (fun t =>
      t = { s with due := [], faultDue := s.faultDue ++ [(e + 64000, d)] })) ∧
    ((s.domOn d = false ∨ ∃ e ∈ s.faultDue, e.2 = d) → exec (.switchFault d) s = .next s) ∧
    (∀ e, s.domReady n = true → (s.core (coreId n)).run = .halted → (s.core (coreId n)).testEnd = some e → e ≤ s.now →
      Does (.startupSelfTestComplete n true) s (fun t => t.bitOf rPwrBist n = true ∧ t.tested.getLsbD n = true ∧
        t.core (coreId n) = { s.core (coreId n) with testEnd := none } ∧ ∀ o, o < localSize → t.memByte (locAddr n o) = 0) ∧
      Does (.startupSelfTestComplete n false) s (fun t => t.bitOf rPwrBist n = false ∧ t.fenced n = true ∧ t.mem = s.mem)) ∧
    (s.domReady n = false ∨ (s.core (coreId n)).testEnd = none → exec (.startupSelfTestComplete n pass) s = .next s) ∧
    Does .powerOnReset s (fun t => sys t ∧ t.flag rSysReset 0 = true ∧ t.fenced n = s.fenced n) ∧
    Does .pinReset s (fun t => sys t ∧ t.flag rSysReset 2 = true ∧ t.fenced n = s.fenced n) ∧
    Does .alwaysOnSupplyReset s (fun t => sys t ∧ t.flag rSysReset 0 = true ∧ t.flag rSysReset 1 = true ∧ t.fenced n = false) ∧
    (s.protPend = true → Does .protectionLoweringReset s (fun t => sys t ∧ t.flag rSysReset 4 = true ∧ t.flash = [] ∧ t.flUndef = [] ∧
      t.prot = s.protNew ∧ t.protPend = false)) ∧
    (s.protPend = false → exec .protectionLoweringReset s = .next s) ∧
    (s.mode ≠ 1 → exec (.powerGood f) s = .next s ∧ exec .bootEnd s = .next s) ∧
    (s.mode = 1 → s.boot.ready = false → s.otpLoaded = false → s.protPend = false → s.otpLoad.fld rTbCtl 0 2 ≠ 1 →
      Does (.powerGood f) s (fun t => t.otpLoaded = true ∧ t.boot.ready = !scFails f ∧ t.flag rTbStat 0 = true ∧
        t.flag rBootStat 6 = (f.checkerFailQ != 0 || f.checkerFailL != 0) ∧
        t.flag rBootStat 7 = !(bootLost f).isEmpty ∧ (f.coreFail.getLsbD n = true → t.fenced n = true))) ∧
    (s.mode = 1 → s.boot.ready = true → Does .bootEnd s (fun t => t.mode = 2 ∧ t.flag rFrameCtl 24 = true ∧ 984 ∈ t.fab.feed ∧
      (s.boot.start = [(c.val, a)] → (t.core c).pc = a ∧ (t.core c).run = .running))) ∧
    (s.mode = 0 → s.modeNext ≠ some 0 → s.mayWake w = true → Does (.wake w) s (fun t => t.mode = 1 ∧ t.rg rWakeStat = wakeWord w ∧ t.flag rSysReset 5 = true ∧
      t.boot.woken = true ∧ t.ts64 = s.ts64)) ∧
    (s.mode ≠ 0 → s.modeNext = some 0 → s.dormant.mayWake w = true → Does (.wake w) s (fun t => t.mode = 1 ∧ t.rg rWakeStat = wakeWord w ∧
      t.ts64 = s.ts64)) ∧
    (s.modeNext ≠ some 0 → (s.mode ≠ 0 ∨ s.mayWake w = false) → exec (.wake w) s = .next s) ∧
    (let slot := s.flag rBootStat 2
     ∀ z e b, s.scRestartOver = true → s.flUndef = [] → s.flag rBootStat 5 = false → s.boot.start.find? (fun e => e.1 == 36) = some (36, a) → s.manifest slot = some z →
      (slotEntries z).find? (fun e => e.core == 36) = some e → s.slotBytes (slotBase slot + e.off) e.len = some b → sha256 b = e.digest →
      Does (.scRestartComplete true ok) s (fun t => t.boot.scDown = false ∧ t.bitOf rPwrBist 36 = true ∧ (t.core 36).pc = a ∧
        (t.core 36).run = .running)) ∧
    (s.scRestartOver = true → s.flag rBootStat 5 = true → s.boot.start = [] → s.boot.scOk = true → Does (.scRestartComplete true ok) s (fun t =>
      t.boot.scDown = false ∧ t.bitOf rPwrBist 36 = true ∧ (t.core 36).pc = 0 ∧ (t.core 36).run = .running)) ∧
    (s.scRestartOver = true → Does (.scRestartComplete false ok) s (fun t => t.boot.scDown = false ∧ t.bitOf rPwrBist 36 = false ∧
      (t.core 36).run = (s.core 36).run ∧ (t.core 36).pc = (s.core 36).pc)) ∧
    (s.scRestartOver = false → exec (.scRestartComplete pass ok) s = .next s)

/-! ## Debug and JTAG (chapter 18) -/

/-- R298, R454 to R460, R486: HALT, RESUME and STEP act on a core through the debug port and are refused where it is shut; DBGACC
reads and writes memory, a halted core's registers, its private space and its debug registers, and says why it cannot;
SAMPLE/PRELOAD and EXTEST capture and load the chain (whose order is the model's, log entry 33), EXTEST and CLAMP drive the pins in
DIAGNOSE, and all but the PWM pins in DORMANT; BYPASS and IDCODE select their registers. -/
def Obligations.DebugPortReachesCoresAndPins : Prop :=
  ∀ (s : State) (c : CoreId) (n : Fin 48) (b : Bool) (a v : Word) (chain : List Bool) (sp : DbgSpace),
    let k := s.core c
    let may := s.debugShut true = false ∧ s.domReady c = true ∧ s.role c = .solo
    let opened := s.jtag.stat ≠ 1 ∧ s.otpLoaded = true ∧ s.prot ≠ 2
    let plain := s.ecc = [] ∧ s.poison = [] ∧ s.collided = none
    let word := a.toNat % 4 = 0 ∧ isSram a.toNat = true ∧ s.sramBad a.toNat = false
    let reach := s.domReady c = true ∧ s.role c = .solo
    let answer := fun (t : State) (stat : Nat) => t.jtag.stat = stat ∧ t.jtag.ir = 8
    let jtagOnly := fun (t : State) => t = { s with jtag := t.jtag, free := t.free }
    (may → k.run = .running → k.noInt = false → Does (.halt c) s (fun t => (t.core c).run = .halted ∧ (t.core c).pc = k.pc ∧
      t.fld (rDbg c 4) 1 3 = 1 ∧ t.resp = ⟨none, 0⟩)) ∧
    (may → k.run = .running → k.noInt = true → Does (.halt c) s (fun t => t.core c = { k with haltReq := true } ∧ t.resp = ⟨none, 0⟩)) ∧
    (may → k.run = .halted → s.pairStopped c = false →
      Does (.resume c) s (fun t => t.core c = { k with run := .running, haltReq := false, stepping := false, resumed := true } ∧ t.resp = ⟨none, 0⟩) ∧
      Does (.step c) s (fun t => t.core c = { k with run := .running, haltReq := false, stepping := true, resumed := true } ∧ t.resp = ⟨none, 0⟩)) ∧
    ((s.debugShut true = true ∨ s.domReady c = false) → exec (.halt c) s = .next (s.refuse .denied) ∧
      exec (.resume c) s = .next (s.refuse .denied) ∧ exec (.step c) s = .next (s.refuse .denied)) ∧
    (s.jtag.stat = 1 → exec (.dbgaccRead c sp a) s = .next s ∧ exec (.dbgaccWrite c sp a v) s = .next s) ∧
    (s.jtag.stat ≠ 1 → s.otpLoaded = true → s.prot = 2 →
      Does (.dbgaccRead c sp a) s (fun t => answer t 5 ∧ t.jtag.data = s.jtag.data ∧ jtagOnly t) ∧
      Does (.dbgaccWrite c sp a v) s (fun t => answer t 5 ∧ jtagOnly t)) ∧
    (opened → plain → word → Does (.dbgaccRead c .mem a) s (fun t => answer t 0 ∧ t.jtag.data = s.memWord a.toNat ∧ t.mem = s.mem)) ∧
    (opened → s.mode ≠ 1 → plain → word → Does (.dbgaccWrite c .mem a v) s (fun t => answer t 0 ∧ t.memWord a.toNat = v ∧
      ∀ i, (i < a.toNat ∨ a.toNat + 4 ≤ i) → t.memByte i = s.memByte i)) ∧
    (opened → s.mode = 1 → Does (.dbgaccWrite c sp a v) s (fun t => answer t 2 ∧ jtagOnly t)) ∧
    (opened → a.toNat % 4 ≠ 0 → sp ≠ .reg → Does (.dbgaccRead c sp a) s (fun t => answer t 2 ∧ jtagOnly t)) ∧
    (opened → reach → k.run = .halted → a.toNat ≤ 84 →
      Does (.dbgaccRead c .reg a) s (fun t => answer t 0 ∧ t.jtag.data = k.dbgGet a.toNat ∧ jtagOnly t) ∧
      (s.mode ≠ 1 → Does (.dbgaccWrite c .reg a v) s (fun t => answer t 0 ∧ t.core c = k.dbgPut a.toNat v ∧ t.regs = s.regs ∧ t.mem = s.mem))) ∧
    (opened → reach → k.run ≠ .halted → Does (.dbgaccRead c .reg a) s (fun t => answer t 4 ∧ jtagOnly t)) ∧
    (opened → s.role c = .solo → s.domReady c = false → Does (.dbgaccRead c .reg a) s (fun t => answer t 3 ∧ jtagOnly t)) ∧
    (opened → reach → a.toNat % 4 = 0 → Does (.dbgaccRead c .dbg a) s (fun t => answer t 0 ∧ t.jtag.data = s.dbgRegRead c a.toNat ∧ jtagOnly t) ∧
      (s.mode ≠ 1 → a = 0x10 → Does (.dbgaccWrite c .dbg a v) s (fun t => answer t 0 ∧ t.rg (rDbg c 0x10) = v ∧ s.regsBut t [rDbg c 0x10]))) ∧
    (∀ w, opened → reach → a.toNat % 4 = 0 → regionOf a.toNat = .priv → s.privRead c k.world true a.toNat = .ok w →
      Does (.dbgaccRead c .priv a) s (fun t => answer t 0 ∧ t.jtag.data = w ∧ jtagOnly t)) ∧
    Does (.samplePreload chain) s (fun t => t.jtag.ir = 2 ∧ t.jtag.dr = s.scanCells ∧ t.jtag.chain = chain ∧ jtagOnly t ∧
      t.padPwm n b = if b then (s.pt n).pinB else (s.pt n).pinA) ∧
    Does (.extest chain) s (fun t => t.jtag.ir = 3 ∧ t.jtag.dr = s.scanCells ∧ t.jtag.chain = chain ∧ jtagOnly t ∧
      t.padPwm n b = (if s.mode = 5 then chain[2 * n.val + b2n b]? else if b then (s.pt n).pinB else (s.pt n).pinA) ∧
      (∀ i : Fin 32, t.padPio i = if s.mode = 5 ∨ s.mode = 0 then chain[96 + i.val]?
        else if s.pio.dir.getLsbD i then some (s.pio.out.getLsbD i) else none) ∧
      ∀ k : Fin 51, t.padPin k = if s.mode = 5 ∨ s.mode = 0 then chain[128 + k.val]? else s.pinOwn k) ∧
    Does .clamp s (fun t => t.jtag.ir = 4 ∧ t.jtag.chain = s.jtag.chain ∧ jtagOnly t ∧
      t.padPwm n b = (if s.mode = 5 then s.jtag.chain[2 * n.val + b2n b]? else if b then (s.pt n).pinB else (s.pt n).pinA) ∧
      (∀ i : Fin 32, t.padPio i = if s.mode = 5 ∨ s.mode = 0 then s.jtag.chain[96 + i.val]?
        else if s.pio.dir.getLsbD i then some (s.pio.out.getLsbD i) else none) ∧
      ∀ k : Fin 51, t.padPin k = if s.mode = 5 ∨ s.mode = 0 then s.jtag.chain[128 + k.val]? else s.pinOwn k) ∧
    Does .bypass s (fun t => t.jtag.ir = 0xF ∧ t.jtag.dr = [false] ∧ t.jtag.drive = false ∧ jtagOnly t) ∧
    Does .idcode s (fun t => t.jtag.ir = 1 ∧ t.jtag.dr.length = 32 ∧ (∀ i, i < 32 → t.jtag.dr[i]? = some (bit 0x18840A5F i)) ∧
      t.jtag.drive = false ∧ jtagOnly t)

/-! ## What every step keeps -/

/-- The memory keeps its canonical form: from every state whose memory has it, whatever command stands at the front of the queue or
none, the step answers a state whose memory has it. The form is the model's own (log entry 7). -/
def Obligations.EveryStepKeepsMemoryCanonical : Prop :=
  ∀ (s t : State), Memory.wf s.mem = true → step s = .next t → Memory.wf t.mem = true

/-- R368: OTP bits go from 0 to 1 only: no step, of any command or of the timebase, clears a programmed bit. -/
def Obligations.EveryStepKeepsOtpBits : Prop := ∀ (s t : State), step s = .next t → s.otpKept t
end

