-- ==== Sys2Proof/Laws/Bits.lean ====
section
/-! SUPPORT. Laws of bits and bit fields: what a field reads as after a field or bit of the word has been written. -/

namespace Sys2Proof.Machine

theorem bit_lt (w : Word) (i : Nat) (h : 32 ≤ i) : bit w i = false := by simp [bit, h]

theorem testBit_bits (w : Word) (lo len i : Nat) : (bits w lo len).testBit i = (decide (i < len) && bit w (lo + i)) := by
  unfold bits bit
  rw [Nat.testBit_mod_two_pow, Nat.testBit_shiftRight, BitVec.testBit_toNat]

/-- A bit written reads as written, every other as before. -/
theorem bit_setBit (w : Word) (i j : Nat) (b : Bool) (hi : i < 32) : bit (setBit w i b) j = if j = i then b else bit w j := by
  have ht : (1 <<< i).testBit j = decide (j = i) := by
    rw [Nat.one_shiftLeft, Nat.testBit_two_pow]
    simp [eq_comm]
  unfold bit setBit
  by_cases hj : j < 32
  · cases b <;> simp only [if_true, Bool.false_eq_true, if_false, BitVec.getLsbD_or, BitVec.getLsbD_and, BitVec.getLsbD_not,
      BitVec.getLsbD_ofNat, hj, decide_true, Bool.true_and, ht] <;> by_cases h : j = i <;> simp [h]
  · have : j ≠ i := by omega
    simp [this, BitVec.getLsbD_of_ge _ _ (Nat.le_of_not_lt hj)]

theorem bit_mask (lo len i : Nat) (h : i < 32) : (mask lo len).getLsbD i = (decide (lo ≤ i) && decide (i < lo + len)) := by
  unfold mask
  rw [BitVec.getLsbD_ofNat, Nat.testBit_shiftLeft, Nat.testBit_two_pow_sub_one]
  by_cases h1 : lo ≤ i
  · by_cases h2 : i < lo + len
    · have : i - lo < len := by omega
      simp [h, h1, h2, this]
    · have : ¬ i - lo < len := by omega
      simp [h, h1, h2, this]
  · simp [h, h1]

/-- A bit of a word in which a field has been written. -/
theorem bit_setBits (w : Word) (lo len v i : Nat) (h : i < 32) :
    bit (setBits w lo len v) i = if lo ≤ i ∧ i < lo + len then v.testBit (i - lo) else bit w i := by
  unfold bit setBits
  rw [BitVec.getLsbD_or, BitVec.getLsbD_and, BitVec.getLsbD_not, bit_mask lo len i h, BitVec.getLsbD_ofNat,
    Nat.testBit_shiftLeft, Nat.testBit_mod_two_pow]
  by_cases h1 : lo ≤ i
  · by_cases h2 : i < lo + len
    · have : i - lo < len := by omega
      simp [h, h1, h2, this]
    · have : ¬ i - lo < len := by omega
      simp [h, h1, h2, this]
  · simp [h, h1]

/-- A field written reads as the low bits of what was written. -/
theorem bits_setBits_same (w : Word) (lo len v : Nat) (h : lo + len ≤ 32) : bits (setBits w lo len v) lo len = v % 2 ^ len := by
  apply Nat.eq_of_testBit_eq
  intro i
  rw [testBit_bits, Nat.testBit_mod_two_pow]
  by_cases hi : i < len
  · rw [bit_setBits _ _ _ _ _ (by omega)]
    have h1 : lo ≤ lo + i ∧ lo + i < lo + len := by omega
    simp [hi, h1]
  · simp [hi]

/-- A field reads as before where a disjoint one has been written. -/
theorem bits_setBits_other (w : Word) (lo len v lo' len' : Nat) (h : lo' + len' ≤ 32) (hd : lo' + len' ≤ lo ∨ lo + len ≤ lo') :
    bits (setBits w lo len v) lo' len' = bits w lo' len' := by
  apply Nat.eq_of_testBit_eq
  intro i
  rw [testBit_bits, testBit_bits]
  by_cases hi : i < len'
  · rw [bit_setBits _ _ _ _ _ (by omega)]
    have h1 : ¬ (lo ≤ lo' + i ∧ lo' + i < lo + len) := by omega
    simp [hi, h1]
  · simp [hi]

/-- A field reads as before where a bit outside it has been written. -/
theorem bits_setBit_other (w : Word) (i : Nat) (b : Bool) (lo len : Nat) (h : i < 32) (hd : i < lo ∨ lo + len ≤ i) :
    bits (setBit w i b) lo len = bits w lo len := by
  apply Nat.eq_of_testBit_eq
  intro j
  rw [testBit_bits, testBit_bits]
  by_cases hj : j < len
  · rw [bit_setBit _ _ _ _ h]
    have h1 : ¬ lo + j = i := by omega
    simp [h1]
  · simp [hj]

theorem bit_setBits_other (w : Word) (lo len v i : Nat) (h : i < 32) (hd : i < lo ∨ lo + len ≤ i) :
    bit (setBits w lo len v) i = bit w i := by
  rw [bit_setBits _ _ _ _ _ h]
  have h1 : ¬ (lo ≤ i ∧ i < lo + len) := by omega
  simp [h1]

theorem word_ext (a b : Word) (h : ∀ i, i < 32 → bit a i = bit b i) : a = b := by
  apply BitVec.eq_of_getLsbD_eq
  exact h

end Sys2Proof.Machine
end

