-- ==== Sys2Proof/Laws/Sparse.lean ====
section
/-! SUPPORT. Laws of sparse storage: what a read gives after a write, an erasure or a clearing, and that each keeps the canonical
form. -/

namespace Sys2Proof.Machine

variable {α : Type}

@[simp] theorem sfind_nil (k : Nat) : sfind ([] : Sparse α) k = none := rfl

@[simp] theorem sget_nil (d : α) (k : Nat) : sget d ([] : Sparse α) k = d := rfl

theorem sfind_filter (p : Nat → Bool) (l : Sparse α) (k : Nat) :
    sfind (l.filter (fun e => p e.1)) k = if p k then sfind l k else none := by
  induction l with
  | nil => simp [sfind]
  | cons e r ih =>
    simp only [List.filter_cons]
    by_cases hk : e.1 = k
    · subst hk
      cases hp : p e.1 <;> simp [hp, sfind, ih]
    · cases hp : p e.1 <;> simp [sfind, hk, ih]

theorem sfind_serase (l : Sparse α) (k j : Nat) : sfind (serase l k) j = if j = k then none else sfind l j := by
  have h := sfind_filter (fun x => x != k) l j
  unfold serase
  rw [h]
  by_cases hj : j = k <;> simp [hj]

theorem sfind_sinsert (k : Nat) (v : α) (l : Sparse α) (j : Nat) (h : sfind l k = none) :
    sfind (sinsert k v l) j = if j = k then some v else sfind l j := by
  induction l with
  | nil => by_cases hj : k = j <;> simp [sinsert, sfind, hj, eq_comm]
  | cons e r ih =>
    have hk : ¬ e.1 = k := by intro he; simp [sfind, he] at h
    have hr : sfind r k = none := by simpa [sfind, hk] using h
    by_cases hlt : k < e.1
    · rw [sinsert, if_pos hlt]
      by_cases hj : k = j <;> simp [sfind, hj, eq_comm]
    · rw [sinsert, if_neg hlt]
      by_cases hj : j = k
      · subst hj
        have hjk : ¬ e.1 = j := hk
        simp [sfind, hjk, ih hr]
      · by_cases he : e.1 = j <;> simp [sfind, hj, he, ih hr]

/-- What a key reads as after a write: the value at the key written, and as before at every other. -/
theorem sget_sput [DecidableEq α] (d e : α) (l : Sparse α) (k j : Nat) (v : α) (h : j = k → e = d) :
    sget e (sput d l k v) j = if j = k then v else sget e l j := by
  have hn : sfind (serase l k) k = none := by simp [sfind_serase]
  by_cases hv : v = d
  · by_cases hj : j = k
    · simp [sget, sput, hv, hj, sfind_serase, h hj]
    · simp [sget, sput, hv, hj, sfind_serase]
  · by_cases hj : j = k
    · simp [sget, sput, hv, hj, sfind_sinsert k v _ k hn]
    · simp [sget, sput, hv, hj, sfind_sinsert k v _ j hn, sfind_serase]

@[simp] theorem sget_sput_same [DecidableEq α] (d : α) (l : Sparse α) (k : Nat) (v : α) : sget d (sput d l k v) k = v := by
  simp [sget_sput d d l k k v (fun _ => rfl)]

theorem sget_sput_other [DecidableEq α] (d e : α) (l : Sparse α) {k j : Nat} (v : α) (h : j ≠ k) :
    sget e (sput d l k v) j = sget e l j := by
  simp [sget_sput d e l k j v (fun hj => absurd hj h), h]

/-- Outside the range cleared a key reads as before, inside it as its default. -/
theorem sget_sclear (d : α) (l : Sparse α) (lo n j : Nat) :
    sget d (sclear l lo n) j = if lo ≤ j ∧ j < lo + n then d else sget d l j := by
  have h := sfind_filter (fun x => decide (x < lo) || decide (lo + n ≤ x)) l j
  unfold sget sclear
  rw [h]
  by_cases hin : lo ≤ j ∧ j < lo + n
  · have h1 : ¬ j < lo := by omega
    have h2 : ¬ lo + n ≤ j := by omega
    simp [hin, h1, h2]
  · have h3 : j < lo ∨ lo + n ≤ j := by omega
    simp [hin, h3]

/-! ## The canonical form -/

theorem skeysRise_iff (l : Sparse α) : skeysRise l = true ↔ (l.map Prod.fst).Pairwise (· < ·) := by
  induction l with
  | nil => simp [skeysRise]
  | cons p r ih =>
    cases r with
    | nil => simp [skeysRise]
    | cons q r =>
      simp only [skeysRise, Bool.and_eq_true, decide_eq_true_eq, ih, List.map_cons, List.pairwise_cons]
      refine ⟨fun h => ⟨?_, h.2⟩, fun h => ⟨h.1 q.1 (by simp), h.2⟩⟩
      intro x hx
      rcases List.mem_cons.mp hx with h' | hx
      · rw [h']; exact h.1
      · exact Nat.lt_trans h.1 (h.2.1 x hx)

theorem swf_iff [DecidableEq α] (d : Nat → α) (l : Sparse α) :
    swf d l = true ↔ (l.map Prod.fst).Pairwise (· < ·) ∧ ∀ p ∈ l, p.2 ≠ d p.1 := by
  simp [swf, skeysRise_iff]

theorem swf_filter [DecidableEq α] (d : Nat → α) (p : Nat × α → Bool) (l : Sparse α) (h : swf d l = true) :
    swf d (l.filter p) = true := by
  rw [swf_iff] at *
  exact ⟨h.1.sublist (List.filter_sublist.map _), fun e he => h.2 e (List.mem_filter.mp he).1⟩

theorem mem_sinsert (k : Nat) (v : α) (l : Sparse α) (e : Nat × α) : e ∈ sinsert k v l → e = (k, v) ∨ e ∈ l := by
  induction l with
  | nil => simp [sinsert]
  | cons q r ih =>
    by_cases hlt : k < q.1 <;> simp only [sinsert, hlt, if_true, if_false, List.mem_cons]
    · exact id
    · rintro (h | h)
      · exact .inr (.inl h)
      · rcases ih h with h | h
        · exact .inl h
        · exact .inr (.inr h)

theorem swf_sinsert [DecidableEq α] (d : Nat → α) (k : Nat) (v : α) (l : Sparse α) (hv : v ≠ d k)
    (hk : ∀ p ∈ l, p.1 ≠ k) (h : swf d l = true) : swf d (sinsert k v l) = true := by
  rw [swf_iff] at *
  refine ⟨?_, fun e he => ?_⟩
  · obtain ⟨hp, -⟩ := h
    induction l with
    | nil => simp [sinsert]
    | cons q r ih =>
      have hqk : q.1 ≠ k := hk q (by simp)
      have hpr := List.pairwise_cons.mp hp
      by_cases hlt : k < q.1
      · simp only [sinsert, hlt, if_true, List.map_cons, List.pairwise_cons]
        refine ⟨fun x hx => ?_, hpr⟩
        rcases List.mem_cons.mp hx with h' | hx
        · rw [h']; exact hlt
        · exact Nat.lt_trans hlt (hpr.1 x hx)
      · simp only [sinsert, hlt, if_false, List.map_cons, List.pairwise_cons]
        refine ⟨fun x hx => ?_, ih (fun p hp' => hk p (by simp [hp'])) hpr.2⟩
        obtain ⟨e, he, rfl⟩ := List.mem_map.mp hx
        rcases mem_sinsert k v r e he with rfl | he
        · exact Nat.lt_of_le_of_ne (Nat.le_of_not_lt hlt) hqk
        · exact hpr.1 _ (List.mem_map.mpr ⟨e, he, rfl⟩)
  · rcases mem_sinsert k v l e he with rfl | he
    · exact hv
    · exact h.2 e he

/-- A write keeps the canonical form. -/
theorem swf_sput [DecidableEq α] (d : Nat → α) (l : Sparse α) (k : Nat) (v : α) (h : swf d l = true) :
    swf d (sput (d k) l k v) = true := by
  unfold sput
  split
  · exact swf_filter d _ l h
  · next hv =>
    refine swf_sinsert d k v _ hv (fun p hp => ?_) (swf_filter d _ l h)
    simpa using (List.mem_filter.mp hp).2

theorem swf_sclear [DecidableEq α] (d : Nat → α) (l : Sparse α) (lo n : Nat) (h : swf d l = true) :
    swf d (sclear l lo n) = true := swf_filter d _ l h

end Sys2Proof.Machine
end

