-- ==== Sys2Proof/Laws/State.lean ====
section
/-! SUPPORT. Laws of State: what each named update leaves in every field that it does not write (one lemma a field, true by rfl), and
what a unit or register reads as after an update of it. -/

namespace Sys2Proof.Machine

/-! ## setRg -/

@[simp] theorem State.setRg_pending (s : State) (k : Nat) (w : Word) : (s.setRg k w).pending = s.pending := rfl
@[simp] theorem State.setRg_now (s : State) (k : Nat) (w : Word) : (s.setRg k w).now = s.now := rfl
@[simp] theorem State.setRg_free (s : State) (k : Nat) (w : Word) : (s.setRg k w).free = s.free := rfl
@[simp] theorem State.setRg_due (s : State) (k : Nat) (w : Word) : (s.setRg k w).due = s.due := rfl
@[simp] theorem State.setRg_hwSet (s : State) (k : Nat) (w : Word) : (s.setRg k w).hwSet = s.hwSet := rfl
@[simp] theorem State.setRg_wrote (s : State) (k : Nat) (w : Word) : (s.setRg k w).wrote = s.wrote := rfl
@[simp] theorem State.setRg_resp (s : State) (k : Nat) (w : Word) : (s.setRg k w).resp = s.resp := rfl
@[simp] theorem State.setRg_active (s : State) (k : Nat) (w : Word) : (s.setRg k w).active = s.active := rfl
@[simp] theorem State.setRg_shadow (s : State) (k : Nat) (w : Word) : (s.setRg k w).shadow = s.shadow := rfl
@[simp] theorem State.setRg_swapTick (s : State) (k : Nat) (w : Word) : (s.setRg k w).swapTick = s.swapTick := rfl
@[simp] theorem State.setRg_swapCut (s : State) (k : Nat) (w : Word) : (s.setRg k w).swapCut = s.swapCut := rfl
@[simp] theorem State.setRg_framePeriod (s : State) (k : Nat) (w : Word) : (s.setRg k w).framePeriod = s.framePeriod := rfl
@[simp] theorem State.setRg_lostAt (s : State) (k : Nat) (w : Word) : (s.setRg k w).lostAt = s.lostAt := rfl
@[simp] theorem State.setRg_tickOut (s : State) (k : Nat) (w : Word) : (s.setRg k w).tickOut = s.tickOut := rfl
@[simp] theorem State.setRg_markNum (s : State) (k : Nat) (w : Word) : (s.setRg k w).markNum = s.markNum := rfl
@[simp] theorem State.setRg_slewLeft (s : State) (k : Nat) (w : Word) : (s.setRg k w).slewLeft = s.slewLeft := rfl
@[simp] theorem State.setRg_otpLoaded (s : State) (k : Nat) (w : Word) : (s.setRg k w).otpLoaded = s.otpLoaded := rfl
@[simp] theorem State.setRg_ts64 (s : State) (k : Nat) (w : Word) : (s.setRg k w).ts64 = s.ts64 := rfl
@[simp] theorem State.setRg_snaps (s : State) (k : Nat) (w : Word) : (s.setRg k w).snaps = s.snaps := rfl
@[simp] theorem State.setRg_pts (s : State) (k : Nat) (w : Word) : (s.setRg k w).pts = s.pts := rfl
@[simp] theorem State.setRg_gts (s : State) (k : Nat) (w : Word) : (s.setRg k w).gts = s.gts := rfl
@[simp] theorem State.setRg_holdOvr (s : State) (k : Nat) (w : Word) : (s.setRg k w).holdOvr = s.holdOvr := rfl
@[simp] theorem State.setRg_holdNew (s : State) (k : Nat) (w : Word) : (s.setRg k w).holdNew = s.holdNew := rfl
@[simp] theorem State.setRg_holdRed (s : State) (k : Nat) (w : Word) : (s.setRg k w).holdRed = s.holdRed := rfl
@[simp] theorem State.setRg_holdRedNew (s : State) (k : Nat) (w : Word) : (s.setRg k w).holdRedNew = s.holdRedNew := rfl
@[simp] theorem State.setRg_holdPins (s : State) (k : Nat) (w : Word) : (s.setRg k w).holdPins = s.holdPins := rfl
@[simp] theorem State.setRg_adcs (s : State) (k : Nat) (w : Word) : (s.setRg k w).adcs = s.adcs := rfl
@[simp] theorem State.setRg_reliefs (s : State) (k : Nat) (w : Word) : (s.setRg k w).reliefs = s.reliefs := rfl
@[simp] theorem State.setRg_sds (s : State) (k : Nat) (w : Word) : (s.setRg k w).sds = s.sds := rfl
@[simp] theorem State.setRg_cmps (s : State) (k : Nat) (w : Word) : (s.setRg k w).cmps = s.cmps := rfl
@[simp] theorem State.setRg_fab (s : State) (k : Nat) (w : Word) : (s.setRg k w).fab = s.fab := rfl
@[simp] theorem State.setRg_cores (s : State) (k : Nat) (w : Word) : (s.setRg k w).cores = s.cores := rfl
@[simp] theorem State.setRg_pairs (s : State) (k : Nat) (w : Word) : (s.setRg k w).pairs = s.pairs := rfl
@[simp] theorem State.setRg_entering (s : State) (k : Nat) (w : Word) : (s.setRg k w).entering = s.entering := rfl
@[simp] theorem State.setRg_mem (s : State) (k : Nat) (w : Word) : (s.setRg k w).mem = s.mem := rfl
@[simp] theorem State.setRg_poison (s : State) (k : Nat) (w : Word) : (s.setRg k w).poison = s.poison := rfl
@[simp] theorem State.setRg_rebind (s : State) (k : Nat) (w : Word) : (s.setRg k w).rebind = s.rebind := rfl
@[simp] theorem State.setRg_ecc (s : State) (k : Nat) (w : Word) : (s.setRg k w).ecc = s.ecc := rfl
@[simp] theorem State.setRg_eccNew (s : State) (k : Nat) (w : Word) : (s.setRg k w).eccNew = s.eccNew := rfl
@[simp] theorem State.setRg_wbq (s : State) (k : Nat) (w : Word) : (s.setRg k w).wbq = s.wbq := rfl
@[simp] theorem State.setRg_remap (s : State) (k : Nat) (w : Word) : (s.setRg k w).remap = s.remap := rfl
@[simp] theorem State.setRg_collided (s : State) (k : Nat) (w : Word) : (s.setRg k w).collided = s.collided := rfl
@[simp] theorem State.setRg_dmas (s : State) (k : Nat) (w : Word) : (s.setRg k w).dmas = s.dmas := rfl
@[simp] theorem State.setRg_sparges (s : State) (k : Nat) (w : Word) : (s.setRg k w).sparges = s.sparges := rfl
@[simp] theorem State.setRg_flash (s : State) (k : Nat) (w : Word) : (s.setRg k w).flash = s.flash := rfl
@[simp] theorem State.setRg_flUndef (s : State) (k : Nat) (w : Word) : (s.setRg k w).flUndef = s.flUndef := rfl
@[simp] theorem State.setRg_flEcc (s : State) (k : Nat) (w : Word) : (s.setRg k w).flEcc = s.flEcc := rfl
@[simp] theorem State.setRg_flProg (s : State) (k : Nat) (w : Word) : (s.setRg k w).flProg = s.flProg := rfl
@[simp] theorem State.setRg_flBanks (s : State) (k : Nat) (w : Word) : (s.setRg k w).flBanks = s.flBanks := rfl
@[simp] theorem State.setRg_dfSecs (s : State) (k : Nat) (w : Word) : (s.setRg k w).dfSecs = s.dfSecs := rfl
@[simp] theorem State.setRg_dfQueue (s : State) (k : Nat) (w : Word) : (s.setRg k w).dfQueue = s.dfQueue := rfl
@[simp] theorem State.setRg_dfBg (s : State) (k : Nat) (w : Word) : (s.setRg k w).dfBg = s.dfBg := rfl
@[simp] theorem State.setRg_dfSeq (s : State) (k : Nat) (w : Word) : (s.setRg k w).dfSeq = s.dfSeq := rfl
@[simp] theorem State.setRg_dfTop (s : State) (k : Nat) (w : Word) : (s.setRg k w).dfTop = s.dfTop := rfl
@[simp] theorem State.setRg_prot (s : State) (k : Nat) (w : Word) : (s.setRg k w).prot = s.prot := rfl
@[simp] theorem State.setRg_protPend (s : State) (k : Nat) (w : Word) : (s.setRg k w).protPend = s.protPend := rfl
@[simp] theorem State.setRg_protNew (s : State) (k : Nat) (w : Word) : (s.setRg k w).protNew = s.protNew := rfl
@[simp] theorem State.setRg_otp (s : State) (k : Nat) (w : Word) : (s.setRg k w).otp = s.otp := rfl
@[simp] theorem State.setRg_otpOp (s : State) (k : Nat) (w : Word) : (s.setRg k w).otpOp = s.otpOp := rfl
@[simp] theorem State.setRg_pes (s : State) (k : Nat) (w : Word) : (s.setRg k w).pes = s.pes := rfl
@[simp] theorem State.setRg_pio (s : State) (k : Nat) (w : Word) : (s.setRg k w).pio = s.pio := rfl
@[simp] theorem State.setRg_oz (s : State) (k : Nat) (w : Word) : (s.setRg k w).oz = s.oz := rfl
@[simp] theorem State.setRg_links (s : State) (k : Nat) (w : Word) : (s.setRg k w).links = s.links := rfl
@[simp] theorem State.setRg_remotes (s : State) (k : Nat) (w : Word) : (s.setRg k w).remotes = s.remotes := rfl
@[simp] theorem State.setRg_stalls (s : State) (k : Nat) (w : Word) : (s.setRg k w).stalls = s.stalls := rfl
@[simp] theorem State.setRg_nextTag (s : State) (k : Nat) (w : Word) : (s.setRg k w).nextTag = s.nextTag := rfl
@[simp] theorem State.setRg_lkUsed (s : State) (k : Nat) (w : Word) : (s.setRg k w).lkUsed = s.lkUsed := rfl
@[simp] theorem State.setRg_lkAsk (s : State) (k : Nat) (w : Word) : (s.setRg k w).lkAsk = s.lkAsk := rfl
@[simp] theorem State.setRg_eths (s : State) (k : Nat) (w : Word) : (s.setRg k w).eths = s.eths := rfl
@[simp] theorem State.setRg_cans (s : State) (k : Nat) (w : Word) : (s.setRg k w).cans = s.cans := rfl
@[simp] theorem State.setRg_uarts (s : State) (k : Nat) (w : Word) : (s.setRg k w).uarts = s.uarts := rfl
@[simp] theorem State.setRg_boot (s : State) (k : Nat) (w : Word) : (s.setRg k w).boot = s.boot := rfl
@[simp] theorem State.setRg_jtag (s : State) (k : Nat) (w : Word) : (s.setRg k w).jtag = s.jtag := rfl
@[simp] theorem State.setRg_modeReq (s : State) (k : Nat) (w : Word) : (s.setRg k w).modeReq = s.modeReq := rfl
@[simp] theorem State.setRg_shDue (s : State) (k : Nat) (w : Word) : (s.setRg k w).shDue = s.shDue := rfl
@[simp] theorem State.setRg_offDue (s : State) (k : Nat) (w : Word) : (s.setRg k w).offDue = s.offDue := rfl
@[simp] theorem State.setRg_faultDue (s : State) (k : Nat) (w : Word) : (s.setRg k w).faultDue = s.faultDue := rfl
@[simp] theorem State.setRg_clkAt (s : State) (k : Nat) (w : Word) : (s.setRg k w).clkAt = s.clkAt := rfl
@[simp] theorem State.setRg_rateDue (s : State) (k : Nat) (w : Word) : (s.setRg k w).rateDue = s.rateDue := rfl
@[simp] theorem State.setRg_swfOwn (s : State) (k : Nat) (w : Word) : (s.setRg k w).swfOwn = s.swfOwn := rfl
@[simp] theorem State.setRg_bankWorld (s : State) (k : Nat) (w : Word) : (s.setRg k w).bankWorld = s.bankWorld := rfl
@[simp] theorem State.setRg_faulted (s : State) (k : Nat) (w : Word) : (s.setRg k w).faulted = s.faulted := rfl
@[simp] theorem State.setRg_cycled (s : State) (k : Nat) (w : Word) : (s.setRg k w).cycled = s.cycled := rfl
@[simp] theorem State.setRg_tested (s : State) (k : Nat) (w : Word) : (s.setRg k w).tested = s.tested := rfl

/-! ## setFld -/

@[simp] theorem State.setFld_pending (s : State) (k lo len v : Nat) : (s.setFld k lo len v).pending = s.pending := rfl
@[simp] theorem State.setFld_now (s : State) (k lo len v : Nat) : (s.setFld k lo len v).now = s.now := rfl
@[simp] theorem State.setFld_free (s : State) (k lo len v : Nat) : (s.setFld k lo len v).free = s.free := rfl
@[simp] theorem State.setFld_due (s : State) (k lo len v : Nat) : (s.setFld k lo len v).due = s.due := rfl
@[simp] theorem State.setFld_hwSet (s : State) (k lo len v : Nat) : (s.setFld k lo len v).hwSet = s.hwSet := rfl
@[simp] theorem State.setFld_wrote (s : State) (k lo len v : Nat) : (s.setFld k lo len v).wrote = s.wrote := rfl
@[simp] theorem State.setFld_resp (s : State) (k lo len v : Nat) : (s.setFld k lo len v).resp = s.resp := rfl
@[simp] theorem State.setFld_active (s : State) (k lo len v : Nat) : (s.setFld k lo len v).active = s.active := rfl
@[simp] theorem State.setFld_shadow (s : State) (k lo len v : Nat) : (s.setFld k lo len v).shadow = s.shadow := rfl
@[simp] theorem State.setFld_swapTick (s : State) (k lo len v : Nat) : (s.setFld k lo len v).swapTick = s.swapTick := rfl
@[simp] theorem State.setFld_swapCut (s : State) (k lo len v : Nat) : (s.setFld k lo len v).swapCut = s.swapCut := rfl
@[simp] theorem State.setFld_framePeriod (s : State) (k lo len v : Nat) : (s.setFld k lo len v).framePeriod = s.framePeriod := rfl
@[simp] theorem State.setFld_lostAt (s : State) (k lo len v : Nat) : (s.setFld k lo len v).lostAt = s.lostAt := rfl
@[simp] theorem State.setFld_tickOut (s : State) (k lo len v : Nat) : (s.setFld k lo len v).tickOut = s.tickOut := rfl
@[simp] theorem State.setFld_markNum (s : State) (k lo len v : Nat) : (s.setFld k lo len v).markNum = s.markNum := rfl
@[simp] theorem State.setFld_slewLeft (s : State) (k lo len v : Nat) : (s.setFld k lo len v).slewLeft = s.slewLeft := rfl
@[simp] theorem State.setFld_otpLoaded (s : State) (k lo len v : Nat) : (s.setFld k lo len v).otpLoaded = s.otpLoaded := rfl
@[simp] theorem State.setFld_ts64 (s : State) (k lo len v : Nat) : (s.setFld k lo len v).ts64 = s.ts64 := rfl
@[simp] theorem State.setFld_snaps (s : State) (k lo len v : Nat) : (s.setFld k lo len v).snaps = s.snaps := rfl
@[simp] theorem State.setFld_pts (s : State) (k lo len v : Nat) : (s.setFld k lo len v).pts = s.pts := rfl
@[simp] theorem State.setFld_gts (s : State) (k lo len v : Nat) : (s.setFld k lo len v).gts = s.gts := rfl
@[simp] theorem State.setFld_holdOvr (s : State) (k lo len v : Nat) : (s.setFld k lo len v).holdOvr = s.holdOvr := rfl
@[simp] theorem State.setFld_holdNew (s : State) (k lo len v : Nat) : (s.setFld k lo len v).holdNew = s.holdNew := rfl
@[simp] theorem State.setFld_holdRed (s : State) (k lo len v : Nat) : (s.setFld k lo len v).holdRed = s.holdRed := rfl
@[simp] theorem State.setFld_holdRedNew (s : State) (k lo len v : Nat) : (s.setFld k lo len v).holdRedNew = s.holdRedNew := rfl
@[simp] theorem State.setFld_holdPins (s : State) (k lo len v : Nat) : (s.setFld k lo len v).holdPins = s.holdPins := rfl
@[simp] theorem State.setFld_adcs (s : State) (k lo len v : Nat) : (s.setFld k lo len v).adcs = s.adcs := rfl
@[simp] theorem State.setFld_reliefs (s : State) (k lo len v : Nat) : (s.setFld k lo len v).reliefs = s.reliefs := rfl
@[simp] theorem State.setFld_sds (s : State) (k lo len v : Nat) : (s.setFld k lo len v).sds = s.sds := rfl
@[simp] theorem State.setFld_cmps (s : State) (k lo len v : Nat) : (s.setFld k lo len v).cmps = s.cmps := rfl
@[simp] theorem State.setFld_fab (s : State) (k lo len v : Nat) : (s.setFld k lo len v).fab = s.fab := rfl
@[simp] theorem State.setFld_cores (s : State) (k lo len v : Nat) : (s.setFld k lo len v).cores = s.cores := rfl
@[simp] theorem State.setFld_pairs (s : State) (k lo len v : Nat) : (s.setFld k lo len v).pairs = s.pairs := rfl
@[simp] theorem State.setFld_entering (s : State) (k lo len v : Nat) : (s.setFld k lo len v).entering = s.entering := rfl
@[simp] theorem State.setFld_mem (s : State) (k lo len v : Nat) : (s.setFld k lo len v).mem = s.mem := rfl
@[simp] theorem State.setFld_poison (s : State) (k lo len v : Nat) : (s.setFld k lo len v).poison = s.poison := rfl
@[simp] theorem State.setFld_rebind (s : State) (k lo len v : Nat) : (s.setFld k lo len v).rebind = s.rebind := rfl
@[simp] theorem State.setFld_ecc (s : State) (k lo len v : Nat) : (s.setFld k lo len v).ecc = s.ecc := rfl
@[simp] theorem State.setFld_eccNew (s : State) (k lo len v : Nat) : (s.setFld k lo len v).eccNew = s.eccNew := rfl
@[simp] theorem State.setFld_wbq (s : State) (k lo len v : Nat) : (s.setFld k lo len v).wbq = s.wbq := rfl
@[simp] theorem State.setFld_remap (s : State) (k lo len v : Nat) : (s.setFld k lo len v).remap = s.remap := rfl
@[simp] theorem State.setFld_collided (s : State) (k lo len v : Nat) : (s.setFld k lo len v).collided = s.collided := rfl
@[simp] theorem State.setFld_dmas (s : State) (k lo len v : Nat) : (s.setFld k lo len v).dmas = s.dmas := rfl
@[simp] theorem State.setFld_sparges (s : State) (k lo len v : Nat) : (s.setFld k lo len v).sparges = s.sparges := rfl
@[simp] theorem State.setFld_flash (s : State) (k lo len v : Nat) : (s.setFld k lo len v).flash = s.flash := rfl
@[simp] theorem State.setFld_flUndef (s : State) (k lo len v : Nat) : (s.setFld k lo len v).flUndef = s.flUndef := rfl
@[simp] theorem State.setFld_flEcc (s : State) (k lo len v : Nat) : (s.setFld k lo len v).flEcc = s.flEcc := rfl
@[simp] theorem State.setFld_flProg (s : State) (k lo len v : Nat) : (s.setFld k lo len v).flProg = s.flProg := rfl
@[simp] theorem State.setFld_flBanks (s : State) (k lo len v : Nat) : (s.setFld k lo len v).flBanks = s.flBanks := rfl
@[simp] theorem State.setFld_dfSecs (s : State) (k lo len v : Nat) : (s.setFld k lo len v).dfSecs = s.dfSecs := rfl
@[simp] theorem State.setFld_dfQueue (s : State) (k lo len v : Nat) : (s.setFld k lo len v).dfQueue = s.dfQueue := rfl
@[simp] theorem State.setFld_dfBg (s : State) (k lo len v : Nat) : (s.setFld k lo len v).dfBg = s.dfBg := rfl
@[simp] theorem State.setFld_dfSeq (s : State) (k lo len v : Nat) : (s.setFld k lo len v).dfSeq = s.dfSeq := rfl
@[simp] theorem State.setFld_dfTop (s : State) (k lo len v : Nat) : (s.setFld k lo len v).dfTop = s.dfTop := rfl
@[simp] theorem State.setFld_prot (s : State) (k lo len v : Nat) : (s.setFld k lo len v).prot = s.prot := rfl
@[simp] theorem State.setFld_protPend (s : State) (k lo len v : Nat) : (s.setFld k lo len v).protPend = s.protPend := rfl
@[simp] theorem State.setFld_protNew (s : State) (k lo len v : Nat) : (s.setFld k lo len v).protNew = s.protNew := rfl
@[simp] theorem State.setFld_otp (s : State) (k lo len v : Nat) : (s.setFld k lo len v).otp = s.otp := rfl
@[simp] theorem State.setFld_otpOp (s : State) (k lo len v : Nat) : (s.setFld k lo len v).otpOp = s.otpOp := rfl
@[simp] theorem State.setFld_pes (s : State) (k lo len v : Nat) : (s.setFld k lo len v).pes = s.pes := rfl
@[simp] theorem State.setFld_pio (s : State) (k lo len v : Nat) : (s.setFld k lo len v).pio = s.pio := rfl
@[simp] theorem State.setFld_oz (s : State) (k lo len v : Nat) : (s.setFld k lo len v).oz = s.oz := rfl
@[simp] theorem State.setFld_links (s : State) (k lo len v : Nat) : (s.setFld k lo len v).links = s.links := rfl
@[simp] theorem State.setFld_remotes (s : State) (k lo len v : Nat) : (s.setFld k lo len v).remotes = s.remotes := rfl
@[simp] theorem State.setFld_stalls (s : State) (k lo len v : Nat) : (s.setFld k lo len v).stalls = s.stalls := rfl
@[simp] theorem State.setFld_nextTag (s : State) (k lo len v : Nat) : (s.setFld k lo len v).nextTag = s.nextTag := rfl
@[simp] theorem State.setFld_lkUsed (s : State) (k lo len v : Nat) : (s.setFld k lo len v).lkUsed = s.lkUsed := rfl
@[simp] theorem State.setFld_lkAsk (s : State) (k lo len v : Nat) : (s.setFld k lo len v).lkAsk = s.lkAsk := rfl
@[simp] theorem State.setFld_eths (s : State) (k lo len v : Nat) : (s.setFld k lo len v).eths = s.eths := rfl
@[simp] theorem State.setFld_cans (s : State) (k lo len v : Nat) : (s.setFld k lo len v).cans = s.cans := rfl
@[simp] theorem State.setFld_uarts (s : State) (k lo len v : Nat) : (s.setFld k lo len v).uarts = s.uarts := rfl
@[simp] theorem State.setFld_boot (s : State) (k lo len v : Nat) : (s.setFld k lo len v).boot = s.boot := rfl
@[simp] theorem State.setFld_jtag (s : State) (k lo len v : Nat) : (s.setFld k lo len v).jtag = s.jtag := rfl
@[simp] theorem State.setFld_modeReq (s : State) (k lo len v : Nat) : (s.setFld k lo len v).modeReq = s.modeReq := rfl
@[simp] theorem State.setFld_shDue (s : State) (k lo len v : Nat) : (s.setFld k lo len v).shDue = s.shDue := rfl
@[simp] theorem State.setFld_offDue (s : State) (k lo len v : Nat) : (s.setFld k lo len v).offDue = s.offDue := rfl
@[simp] theorem State.setFld_faultDue (s : State) (k lo len v : Nat) : (s.setFld k lo len v).faultDue = s.faultDue := rfl
@[simp] theorem State.setFld_clkAt (s : State) (k lo len v : Nat) : (s.setFld k lo len v).clkAt = s.clkAt := rfl
@[simp] theorem State.setFld_rateDue (s : State) (k lo len v : Nat) : (s.setFld k lo len v).rateDue = s.rateDue := rfl
@[simp] theorem State.setFld_swfOwn (s : State) (k lo len v : Nat) : (s.setFld k lo len v).swfOwn = s.swfOwn := rfl
@[simp] theorem State.setFld_bankWorld (s : State) (k lo len v : Nat) : (s.setFld k lo len v).bankWorld = s.bankWorld := rfl
@[simp] theorem State.setFld_faulted (s : State) (k lo len v : Nat) : (s.setFld k lo len v).faulted = s.faulted := rfl
@[simp] theorem State.setFld_cycled (s : State) (k lo len v : Nat) : (s.setFld k lo len v).cycled = s.cycled := rfl
@[simp] theorem State.setFld_tested (s : State) (k lo len v : Nat) : (s.setFld k lo len v).tested = s.tested := rfl

/-! ## setFlag -/

@[simp] theorem State.setFlag_pending (s : State) (k i : Nat) (b : Bool) : (s.setFlag k i b).pending = s.pending := rfl
@[simp] theorem State.setFlag_now (s : State) (k i : Nat) (b : Bool) : (s.setFlag k i b).now = s.now := rfl
@[simp] theorem State.setFlag_free (s : State) (k i : Nat) (b : Bool) : (s.setFlag k i b).free = s.free := rfl
@[simp] theorem State.setFlag_due (s : State) (k i : Nat) (b : Bool) : (s.setFlag k i b).due = s.due := rfl
@[simp] theorem State.setFlag_hwSet (s : State) (k i : Nat) (b : Bool) : (s.setFlag k i b).hwSet = s.hwSet := rfl
@[simp] theorem State.setFlag_wrote (s : State) (k i : Nat) (b : Bool) : (s.setFlag k i b).wrote = s.wrote := rfl
@[simp] theorem State.setFlag_resp (s : State) (k i : Nat) (b : Bool) : (s.setFlag k i b).resp = s.resp := rfl
@[simp] theorem State.setFlag_active (s : State) (k i : Nat) (b : Bool) : (s.setFlag k i b).active = s.active := rfl
@[simp] theorem State.setFlag_shadow (s : State) (k i : Nat) (b : Bool) : (s.setFlag k i b).shadow = s.shadow := rfl
@[simp] theorem State.setFlag_swapTick (s : State) (k i : Nat) (b : Bool) : (s.setFlag k i b).swapTick = s.swapTick := rfl
@[simp] theorem State.setFlag_swapCut (s : State) (k i : Nat) (b : Bool) : (s.setFlag k i b).swapCut = s.swapCut := rfl
@[simp] theorem State.setFlag_framePeriod (s : State) (k i : Nat) (b : Bool) : (s.setFlag k i b).framePeriod = s.framePeriod := rfl
@[simp] theorem State.setFlag_lostAt (s : State) (k i : Nat) (b : Bool) : (s.setFlag k i b).lostAt = s.lostAt := rfl
@[simp] theorem State.setFlag_tickOut (s : State) (k i : Nat) (b : Bool) : (s.setFlag k i b).tickOut = s.tickOut := rfl
@[simp] theorem State.setFlag_markNum (s : State) (k i : Nat) (b : Bool) : (s.setFlag k i b).markNum = s.markNum := rfl
@[simp] theorem State.setFlag_slewLeft (s : State) (k i : Nat) (b : Bool) : (s.setFlag k i b).slewLeft = s.slewLeft := rfl
@[simp] theorem State.setFlag_otpLoaded (s : State) (k i : Nat) (b : Bool) : (s.setFlag k i b).otpLoaded = s.otpLoaded := rfl
@[simp] theorem State.setFlag_ts64 (s : State) (k i : Nat) (b : Bool) : (s.setFlag k i b).ts64 = s.ts64 := rfl
@[simp] theorem State.setFlag_snaps (s : State) (k i : Nat) (b : Bool) : (s.setFlag k i b).snaps = s.snaps := rfl
@[simp] theorem State.setFlag_pts (s : State) (k i : Nat) (b : Bool) : (s.setFlag k i b).pts = s.pts := rfl
@[simp] theorem State.setFlag_gts (s : State) (k i : Nat) (b : Bool) : (s.setFlag k i b).gts = s.gts := rfl
@[simp] theorem State.setFlag_holdOvr (s : State) (k i : Nat) (b : Bool) : (s.setFlag k i b).holdOvr = s.holdOvr := rfl
@[simp] theorem State.setFlag_holdNew (s : State) (k i : Nat) (b : Bool) : (s.setFlag k i b).holdNew = s.holdNew := rfl
@[simp] theorem State.setFlag_holdRed (s : State) (k i : Nat) (b : Bool) : (s.setFlag k i b).holdRed = s.holdRed := rfl
@[simp] theorem State.setFlag_holdRedNew (s : State) (k i : Nat) (b : Bool) : (s.setFlag k i b).holdRedNew = s.holdRedNew := rfl
@[simp] theorem State.setFlag_holdPins (s : State) (k i : Nat) (b : Bool) : (s.setFlag k i b).holdPins = s.holdPins := rfl
@[simp] theorem State.setFlag_adcs (s : State) (k i : Nat) (b : Bool) : (s.setFlag k i b).adcs = s.adcs := rfl
@[simp] theorem State.setFlag_reliefs (s : State) (k i : Nat) (b : Bool) : (s.setFlag k i b).reliefs = s.reliefs := rfl
@[simp] theorem State.setFlag_sds (s : State) (k i : Nat) (b : Bool) : (s.setFlag k i b).sds = s.sds := rfl
@[simp] theorem State.setFlag_cmps (s : State) (k i : Nat) (b : Bool) : (s.setFlag k i b).cmps = s.cmps := rfl
@[simp] theorem State.setFlag_fab (s : State) (k i : Nat) (b : Bool) : (s.setFlag k i b).fab = s.fab := rfl
@[simp] theorem State.setFlag_cores (s : State) (k i : Nat) (b : Bool) : (s.setFlag k i b).cores = s.cores := rfl
@[simp] theorem State.setFlag_pairs (s : State) (k i : Nat) (b : Bool) : (s.setFlag k i b).pairs = s.pairs := rfl
@[simp] theorem State.setFlag_entering (s : State) (k i : Nat) (b : Bool) : (s.setFlag k i b).entering = s.entering := rfl
@[simp] theorem State.setFlag_mem (s : State) (k i : Nat) (b : Bool) : (s.setFlag k i b).mem = s.mem := rfl
@[simp] theorem State.setFlag_poison (s : State) (k i : Nat) (b : Bool) : (s.setFlag k i b).poison = s.poison := rfl
@[simp] theorem State.setFlag_rebind (s : State) (k i : Nat) (b : Bool) : (s.setFlag k i b).rebind = s.rebind := rfl
@[simp] theorem State.setFlag_ecc (s : State) (k i : Nat) (b : Bool) : (s.setFlag k i b).ecc = s.ecc := rfl
@[simp] theorem State.setFlag_eccNew (s : State) (k i : Nat) (b : Bool) : (s.setFlag k i b).eccNew = s.eccNew := rfl
@[simp] theorem State.setFlag_wbq (s : State) (k i : Nat) (b : Bool) : (s.setFlag k i b).wbq = s.wbq := rfl
@[simp] theorem State.setFlag_remap (s : State) (k i : Nat) (b : Bool) : (s.setFlag k i b).remap = s.remap := rfl
@[simp] theorem State.setFlag_collided (s : State) (k i : Nat) (b : Bool) : (s.setFlag k i b).collided = s.collided := rfl
@[simp] theorem State.setFlag_dmas (s : State) (k i : Nat) (b : Bool) : (s.setFlag k i b).dmas = s.dmas := rfl
@[simp] theorem State.setFlag_sparges (s : State) (k i : Nat) (b : Bool) : (s.setFlag k i b).sparges = s.sparges := rfl
@[simp] theorem State.setFlag_flash (s : State) (k i : Nat) (b : Bool) : (s.setFlag k i b).flash = s.flash := rfl
@[simp] theorem State.setFlag_flUndef (s : State) (k i : Nat) (b : Bool) : (s.setFlag k i b).flUndef = s.flUndef := rfl
@[simp] theorem State.setFlag_flEcc (s : State) (k i : Nat) (b : Bool) : (s.setFlag k i b).flEcc = s.flEcc := rfl
@[simp] theorem State.setFlag_flProg (s : State) (k i : Nat) (b : Bool) : (s.setFlag k i b).flProg = s.flProg := rfl
@[simp] theorem State.setFlag_flBanks (s : State) (k i : Nat) (b : Bool) : (s.setFlag k i b).flBanks = s.flBanks := rfl
@[simp] theorem State.setFlag_dfSecs (s : State) (k i : Nat) (b : Bool) : (s.setFlag k i b).dfSecs = s.dfSecs := rfl
@[simp] theorem State.setFlag_dfQueue (s : State) (k i : Nat) (b : Bool) : (s.setFlag k i b).dfQueue = s.dfQueue := rfl
@[simp] theorem State.setFlag_dfBg (s : State) (k i : Nat) (b : Bool) : (s.setFlag k i b).dfBg = s.dfBg := rfl
@[simp] theorem State.setFlag_dfSeq (s : State) (k i : Nat) (b : Bool) : (s.setFlag k i b).dfSeq = s.dfSeq := rfl
@[simp] theorem State.setFlag_dfTop (s : State) (k i : Nat) (b : Bool) : (s.setFlag k i b).dfTop = s.dfTop := rfl
@[simp] theorem State.setFlag_prot (s : State) (k i : Nat) (b : Bool) : (s.setFlag k i b).prot = s.prot := rfl
@[simp] theorem State.setFlag_protPend (s : State) (k i : Nat) (b : Bool) : (s.setFlag k i b).protPend = s.protPend := rfl
@[simp] theorem State.setFlag_protNew (s : State) (k i : Nat) (b : Bool) : (s.setFlag k i b).protNew = s.protNew := rfl
@[simp] theorem State.setFlag_otp (s : State) (k i : Nat) (b : Bool) : (s.setFlag k i b).otp = s.otp := rfl
@[simp] theorem State.setFlag_otpOp (s : State) (k i : Nat) (b : Bool) : (s.setFlag k i b).otpOp = s.otpOp := rfl
@[simp] theorem State.setFlag_pes (s : State) (k i : Nat) (b : Bool) : (s.setFlag k i b).pes = s.pes := rfl
@[simp] theorem State.setFlag_pio (s : State) (k i : Nat) (b : Bool) : (s.setFlag k i b).pio = s.pio := rfl
@[simp] theorem State.setFlag_oz (s : State) (k i : Nat) (b : Bool) : (s.setFlag k i b).oz = s.oz := rfl
@[simp] theorem State.setFlag_links (s : State) (k i : Nat) (b : Bool) : (s.setFlag k i b).links = s.links := rfl
@[simp] theorem State.setFlag_remotes (s : State) (k i : Nat) (b : Bool) : (s.setFlag k i b).remotes = s.remotes := rfl
@[simp] theorem State.setFlag_stalls (s : State) (k i : Nat) (b : Bool) : (s.setFlag k i b).stalls = s.stalls := rfl
@[simp] theorem State.setFlag_nextTag (s : State) (k i : Nat) (b : Bool) : (s.setFlag k i b).nextTag = s.nextTag := rfl
@[simp] theorem State.setFlag_lkUsed (s : State) (k i : Nat) (b : Bool) : (s.setFlag k i b).lkUsed = s.lkUsed := rfl
@[simp] theorem State.setFlag_lkAsk (s : State) (k i : Nat) (b : Bool) : (s.setFlag k i b).lkAsk = s.lkAsk := rfl
@[simp] theorem State.setFlag_eths (s : State) (k i : Nat) (b : Bool) : (s.setFlag k i b).eths = s.eths := rfl
@[simp] theorem State.setFlag_cans (s : State) (k i : Nat) (b : Bool) : (s.setFlag k i b).cans = s.cans := rfl
@[simp] theorem State.setFlag_uarts (s : State) (k i : Nat) (b : Bool) : (s.setFlag k i b).uarts = s.uarts := rfl
@[simp] theorem State.setFlag_boot (s : State) (k i : Nat) (b : Bool) : (s.setFlag k i b).boot = s.boot := rfl
@[simp] theorem State.setFlag_jtag (s : State) (k i : Nat) (b : Bool) : (s.setFlag k i b).jtag = s.jtag := rfl
@[simp] theorem State.setFlag_modeReq (s : State) (k i : Nat) (b : Bool) : (s.setFlag k i b).modeReq = s.modeReq := rfl
@[simp] theorem State.setFlag_shDue (s : State) (k i : Nat) (b : Bool) : (s.setFlag k i b).shDue = s.shDue := rfl
@[simp] theorem State.setFlag_offDue (s : State) (k i : Nat) (b : Bool) : (s.setFlag k i b).offDue = s.offDue := rfl
@[simp] theorem State.setFlag_faultDue (s : State) (k i : Nat) (b : Bool) : (s.setFlag k i b).faultDue = s.faultDue := rfl
@[simp] theorem State.setFlag_clkAt (s : State) (k i : Nat) (b : Bool) : (s.setFlag k i b).clkAt = s.clkAt := rfl
@[simp] theorem State.setFlag_rateDue (s : State) (k i : Nat) (b : Bool) : (s.setFlag k i b).rateDue = s.rateDue := rfl
@[simp] theorem State.setFlag_swfOwn (s : State) (k i : Nat) (b : Bool) : (s.setFlag k i b).swfOwn = s.swfOwn := rfl
@[simp] theorem State.setFlag_bankWorld (s : State) (k i : Nat) (b : Bool) : (s.setFlag k i b).bankWorld = s.bankWorld := rfl
@[simp] theorem State.setFlag_faulted (s : State) (k i : Nat) (b : Bool) : (s.setFlag k i b).faulted = s.faulted := rfl
@[simp] theorem State.setFlag_cycled (s : State) (k i : Nat) (b : Bool) : (s.setFlag k i b).cycled = s.cycled := rfl
@[simp] theorem State.setFlag_tested (s : State) (k i : Nat) (b : Bool) : (s.setFlag k i b).tested = s.tested := rfl

/-! ## count -/

@[simp] theorem State.count_pending (s : State) (k lo len n : Nat) : (s.count k lo len n).pending = s.pending := rfl
@[simp] theorem State.count_now (s : State) (k lo len n : Nat) : (s.count k lo len n).now = s.now := rfl
@[simp] theorem State.count_free (s : State) (k lo len n : Nat) : (s.count k lo len n).free = s.free := rfl
@[simp] theorem State.count_due (s : State) (k lo len n : Nat) : (s.count k lo len n).due = s.due := rfl
@[simp] theorem State.count_hwSet (s : State) (k lo len n : Nat) : (s.count k lo len n).hwSet = s.hwSet := rfl
@[simp] theorem State.count_wrote (s : State) (k lo len n : Nat) : (s.count k lo len n).wrote = s.wrote := rfl
@[simp] theorem State.count_resp (s : State) (k lo len n : Nat) : (s.count k lo len n).resp = s.resp := rfl
@[simp] theorem State.count_active (s : State) (k lo len n : Nat) : (s.count k lo len n).active = s.active := rfl
@[simp] theorem State.count_shadow (s : State) (k lo len n : Nat) : (s.count k lo len n).shadow = s.shadow := rfl
@[simp] theorem State.count_swapTick (s : State) (k lo len n : Nat) : (s.count k lo len n).swapTick = s.swapTick := rfl
@[simp] theorem State.count_swapCut (s : State) (k lo len n : Nat) : (s.count k lo len n).swapCut = s.swapCut := rfl
@[simp] theorem State.count_framePeriod (s : State) (k lo len n : Nat) : (s.count k lo len n).framePeriod = s.framePeriod := rfl
@[simp] theorem State.count_lostAt (s : State) (k lo len n : Nat) : (s.count k lo len n).lostAt = s.lostAt := rfl
@[simp] theorem State.count_tickOut (s : State) (k lo len n : Nat) : (s.count k lo len n).tickOut = s.tickOut := rfl
@[simp] theorem State.count_markNum (s : State) (k lo len n : Nat) : (s.count k lo len n).markNum = s.markNum := rfl
@[simp] theorem State.count_slewLeft (s : State) (k lo len n : Nat) : (s.count k lo len n).slewLeft = s.slewLeft := rfl
@[simp] theorem State.count_otpLoaded (s : State) (k lo len n : Nat) : (s.count k lo len n).otpLoaded = s.otpLoaded := rfl
@[simp] theorem State.count_ts64 (s : State) (k lo len n : Nat) : (s.count k lo len n).ts64 = s.ts64 := rfl
@[simp] theorem State.count_snaps (s : State) (k lo len n : Nat) : (s.count k lo len n).snaps = s.snaps := rfl
@[simp] theorem State.count_pts (s : State) (k lo len n : Nat) : (s.count k lo len n).pts = s.pts := rfl
@[simp] theorem State.count_gts (s : State) (k lo len n : Nat) : (s.count k lo len n).gts = s.gts := rfl
@[simp] theorem State.count_holdOvr (s : State) (k lo len n : Nat) : (s.count k lo len n).holdOvr = s.holdOvr := rfl
@[simp] theorem State.count_holdNew (s : State) (k lo len n : Nat) : (s.count k lo len n).holdNew = s.holdNew := rfl
@[simp] theorem State.count_holdRed (s : State) (k lo len n : Nat) : (s.count k lo len n).holdRed = s.holdRed := rfl
@[simp] theorem State.count_holdRedNew (s : State) (k lo len n : Nat) : (s.count k lo len n).holdRedNew = s.holdRedNew := rfl
@[simp] theorem State.count_holdPins (s : State) (k lo len n : Nat) : (s.count k lo len n).holdPins = s.holdPins := rfl
@[simp] theorem State.count_adcs (s : State) (k lo len n : Nat) : (s.count k lo len n).adcs = s.adcs := rfl
@[simp] theorem State.count_reliefs (s : State) (k lo len n : Nat) : (s.count k lo len n).reliefs = s.reliefs := rfl
@[simp] theorem State.count_sds (s : State) (k lo len n : Nat) : (s.count k lo len n).sds = s.sds := rfl
@[simp] theorem State.count_cmps (s : State) (k lo len n : Nat) : (s.count k lo len n).cmps = s.cmps := rfl
@[simp] theorem State.count_fab (s : State) (k lo len n : Nat) : (s.count k lo len n).fab = s.fab := rfl
@[simp] theorem State.count_cores (s : State) (k lo len n : Nat) : (s.count k lo len n).cores = s.cores := rfl
@[simp] theorem State.count_pairs (s : State) (k lo len n : Nat) : (s.count k lo len n).pairs = s.pairs := rfl
@[simp] theorem State.count_entering (s : State) (k lo len n : Nat) : (s.count k lo len n).entering = s.entering := rfl
@[simp] theorem State.count_mem (s : State) (k lo len n : Nat) : (s.count k lo len n).mem = s.mem := rfl
@[simp] theorem State.count_poison (s : State) (k lo len n : Nat) : (s.count k lo len n).poison = s.poison := rfl
@[simp] theorem State.count_rebind (s : State) (k lo len n : Nat) : (s.count k lo len n).rebind = s.rebind := rfl
@[simp] theorem State.count_ecc (s : State) (k lo len n : Nat) : (s.count k lo len n).ecc = s.ecc := rfl
@[simp] theorem State.count_eccNew (s : State) (k lo len n : Nat) : (s.count k lo len n).eccNew = s.eccNew := rfl
@[simp] theorem State.count_wbq (s : State) (k lo len n : Nat) : (s.count k lo len n).wbq = s.wbq := rfl
@[simp] theorem State.count_remap (s : State) (k lo len n : Nat) : (s.count k lo len n).remap = s.remap := rfl
@[simp] theorem State.count_collided (s : State) (k lo len n : Nat) : (s.count k lo len n).collided = s.collided := rfl
@[simp] theorem State.count_dmas (s : State) (k lo len n : Nat) : (s.count k lo len n).dmas = s.dmas := rfl
@[simp] theorem State.count_sparges (s : State) (k lo len n : Nat) : (s.count k lo len n).sparges = s.sparges := rfl
@[simp] theorem State.count_flash (s : State) (k lo len n : Nat) : (s.count k lo len n).flash = s.flash := rfl
@[simp] theorem State.count_flUndef (s : State) (k lo len n : Nat) : (s.count k lo len n).flUndef = s.flUndef := rfl
@[simp] theorem State.count_flEcc (s : State) (k lo len n : Nat) : (s.count k lo len n).flEcc = s.flEcc := rfl
@[simp] theorem State.count_flProg (s : State) (k lo len n : Nat) : (s.count k lo len n).flProg = s.flProg := rfl
@[simp] theorem State.count_flBanks (s : State) (k lo len n : Nat) : (s.count k lo len n).flBanks = s.flBanks := rfl
@[simp] theorem State.count_dfSecs (s : State) (k lo len n : Nat) : (s.count k lo len n).dfSecs = s.dfSecs := rfl
@[simp] theorem State.count_dfQueue (s : State) (k lo len n : Nat) : (s.count k lo len n).dfQueue = s.dfQueue := rfl
@[simp] theorem State.count_dfBg (s : State) (k lo len n : Nat) : (s.count k lo len n).dfBg = s.dfBg := rfl
@[simp] theorem State.count_dfSeq (s : State) (k lo len n : Nat) : (s.count k lo len n).dfSeq = s.dfSeq := rfl
@[simp] theorem State.count_dfTop (s : State) (k lo len n : Nat) : (s.count k lo len n).dfTop = s.dfTop := rfl
@[simp] theorem State.count_prot (s : State) (k lo len n : Nat) : (s.count k lo len n).prot = s.prot := rfl
@[simp] theorem State.count_protPend (s : State) (k lo len n : Nat) : (s.count k lo len n).protPend = s.protPend := rfl
@[simp] theorem State.count_protNew (s : State) (k lo len n : Nat) : (s.count k lo len n).protNew = s.protNew := rfl
@[simp] theorem State.count_otp (s : State) (k lo len n : Nat) : (s.count k lo len n).otp = s.otp := rfl
@[simp] theorem State.count_otpOp (s : State) (k lo len n : Nat) : (s.count k lo len n).otpOp = s.otpOp := rfl
@[simp] theorem State.count_pes (s : State) (k lo len n : Nat) : (s.count k lo len n).pes = s.pes := rfl
@[simp] theorem State.count_pio (s : State) (k lo len n : Nat) : (s.count k lo len n).pio = s.pio := rfl
@[simp] theorem State.count_oz (s : State) (k lo len n : Nat) : (s.count k lo len n).oz = s.oz := rfl
@[simp] theorem State.count_links (s : State) (k lo len n : Nat) : (s.count k lo len n).links = s.links := rfl
@[simp] theorem State.count_remotes (s : State) (k lo len n : Nat) : (s.count k lo len n).remotes = s.remotes := rfl
@[simp] theorem State.count_stalls (s : State) (k lo len n : Nat) : (s.count k lo len n).stalls = s.stalls := rfl
@[simp] theorem State.count_nextTag (s : State) (k lo len n : Nat) : (s.count k lo len n).nextTag = s.nextTag := rfl
@[simp] theorem State.count_lkUsed (s : State) (k lo len n : Nat) : (s.count k lo len n).lkUsed = s.lkUsed := rfl
@[simp] theorem State.count_lkAsk (s : State) (k lo len n : Nat) : (s.count k lo len n).lkAsk = s.lkAsk := rfl
@[simp] theorem State.count_eths (s : State) (k lo len n : Nat) : (s.count k lo len n).eths = s.eths := rfl
@[simp] theorem State.count_cans (s : State) (k lo len n : Nat) : (s.count k lo len n).cans = s.cans := rfl
@[simp] theorem State.count_uarts (s : State) (k lo len n : Nat) : (s.count k lo len n).uarts = s.uarts := rfl
@[simp] theorem State.count_boot (s : State) (k lo len n : Nat) : (s.count k lo len n).boot = s.boot := rfl
@[simp] theorem State.count_jtag (s : State) (k lo len n : Nat) : (s.count k lo len n).jtag = s.jtag := rfl
@[simp] theorem State.count_modeReq (s : State) (k lo len n : Nat) : (s.count k lo len n).modeReq = s.modeReq := rfl
@[simp] theorem State.count_shDue (s : State) (k lo len n : Nat) : (s.count k lo len n).shDue = s.shDue := rfl
@[simp] theorem State.count_offDue (s : State) (k lo len n : Nat) : (s.count k lo len n).offDue = s.offDue := rfl
@[simp] theorem State.count_faultDue (s : State) (k lo len n : Nat) : (s.count k lo len n).faultDue = s.faultDue := rfl
@[simp] theorem State.count_clkAt (s : State) (k lo len n : Nat) : (s.count k lo len n).clkAt = s.clkAt := rfl
@[simp] theorem State.count_rateDue (s : State) (k lo len n : Nat) : (s.count k lo len n).rateDue = s.rateDue := rfl
@[simp] theorem State.count_swfOwn (s : State) (k lo len n : Nat) : (s.count k lo len n).swfOwn = s.swfOwn := rfl
@[simp] theorem State.count_bankWorld (s : State) (k lo len n : Nat) : (s.count k lo len n).bankWorld = s.bankWorld := rfl
@[simp] theorem State.count_faulted (s : State) (k lo len n : Nat) : (s.count k lo len n).faulted = s.faulted := rfl
@[simp] theorem State.count_cycled (s : State) (k lo len n : Nat) : (s.count k lo len n).cycled = s.cycled := rfl
@[simp] theorem State.count_tested (s : State) (k lo len n : Nat) : (s.count k lo len n).tested = s.tested := rfl

/-! ## writeRg -/

@[simp] theorem State.writeRg_pending (s : State) (l : Bool) (k : Nat) (v : Word) : (s.writeRg l k v).pending = s.pending := rfl
@[simp] theorem State.writeRg_now (s : State) (l : Bool) (k : Nat) (v : Word) : (s.writeRg l k v).now = s.now := rfl
@[simp] theorem State.writeRg_free (s : State) (l : Bool) (k : Nat) (v : Word) : (s.writeRg l k v).free = s.free := rfl
@[simp] theorem State.writeRg_due (s : State) (l : Bool) (k : Nat) (v : Word) : (s.writeRg l k v).due = s.due := rfl
@[simp] theorem State.writeRg_hwSet (s : State) (l : Bool) (k : Nat) (v : Word) : (s.writeRg l k v).hwSet = s.hwSet := rfl
@[simp] theorem State.writeRg_wrote (s : State) (l : Bool) (k : Nat) (v : Word) : (s.writeRg l k v).wrote = s.wrote := rfl
@[simp] theorem State.writeRg_resp (s : State) (l : Bool) (k : Nat) (v : Word) : (s.writeRg l k v).resp = s.resp := rfl
@[simp] theorem State.writeRg_active (s : State) (l : Bool) (k : Nat) (v : Word) : (s.writeRg l k v).active = s.active := rfl
@[simp] theorem State.writeRg_shadow (s : State) (l : Bool) (k : Nat) (v : Word) : (s.writeRg l k v).shadow = s.shadow := rfl
@[simp] theorem State.writeRg_swapTick (s : State) (l : Bool) (k : Nat) (v : Word) : (s.writeRg l k v).swapTick = s.swapTick := rfl
@[simp] theorem State.writeRg_swapCut (s : State) (l : Bool) (k : Nat) (v : Word) : (s.writeRg l k v).swapCut = s.swapCut := rfl
@[simp] theorem State.writeRg_framePeriod (s : State) (l : Bool) (k : Nat) (v : Word) : (s.writeRg l k v).framePeriod = s.framePeriod := rfl
@[simp] theorem State.writeRg_lostAt (s : State) (l : Bool) (k : Nat) (v : Word) : (s.writeRg l k v).lostAt = s.lostAt := rfl
@[simp] theorem State.writeRg_tickOut (s : State) (l : Bool) (k : Nat) (v : Word) : (s.writeRg l k v).tickOut = s.tickOut := rfl
@[simp] theorem State.writeRg_markNum (s : State) (l : Bool) (k : Nat) (v : Word) : (s.writeRg l k v).markNum = s.markNum := rfl
@[simp] theorem State.writeRg_slewLeft (s : State) (l : Bool) (k : Nat) (v : Word) : (s.writeRg l k v).slewLeft = s.slewLeft := rfl
@[simp] theorem State.writeRg_otpLoaded (s : State) (l : Bool) (k : Nat) (v : Word) : (s.writeRg l k v).otpLoaded = s.otpLoaded := rfl
@[simp] theorem State.writeRg_ts64 (s : State) (l : Bool) (k : Nat) (v : Word) : (s.writeRg l k v).ts64 = s.ts64 := rfl
@[simp] theorem State.writeRg_snaps (s : State) (l : Bool) (k : Nat) (v : Word) : (s.writeRg l k v).snaps = s.snaps := rfl
@[simp] theorem State.writeRg_pts (s : State) (l : Bool) (k : Nat) (v : Word) : (s.writeRg l k v).pts = s.pts := rfl
@[simp] theorem State.writeRg_gts (s : State) (l : Bool) (k : Nat) (v : Word) : (s.writeRg l k v).gts = s.gts := rfl
@[simp] theorem State.writeRg_holdOvr (s : State) (l : Bool) (k : Nat) (v : Word) : (s.writeRg l k v).holdOvr = s.holdOvr := rfl
@[simp] theorem State.writeRg_holdNew (s : State) (l : Bool) (k : Nat) (v : Word) : (s.writeRg l k v).holdNew = s.holdNew := rfl
@[simp] theorem State.writeRg_holdRed (s : State) (l : Bool) (k : Nat) (v : Word) : (s.writeRg l k v).holdRed = s.holdRed := rfl
@[simp] theorem State.writeRg_holdRedNew (s : State) (l : Bool) (k : Nat) (v : Word) : (s.writeRg l k v).holdRedNew = s.holdRedNew := rfl
@[simp] theorem State.writeRg_holdPins (s : State) (l : Bool) (k : Nat) (v : Word) : (s.writeRg l k v).holdPins = s.holdPins := rfl
@[simp] theorem State.writeRg_adcs (s : State) (l : Bool) (k : Nat) (v : Word) : (s.writeRg l k v).adcs = s.adcs := rfl
@[simp] theorem State.writeRg_reliefs (s : State) (l : Bool) (k : Nat) (v : Word) : (s.writeRg l k v).reliefs = s.reliefs := rfl
@[simp] theorem State.writeRg_sds (s : State) (l : Bool) (k : Nat) (v : Word) : (s.writeRg l k v).sds = s.sds := rfl
@[simp] theorem State.writeRg_cmps (s : State) (l : Bool) (k : Nat) (v : Word) : (s.writeRg l k v).cmps = s.cmps := rfl
@[simp] theorem State.writeRg_fab (s : State) (l : Bool) (k : Nat) (v : Word) : (s.writeRg l k v).fab = s.fab := rfl
@[simp] theorem State.writeRg_cores (s : State) (l : Bool) (k : Nat) (v : Word) : (s.writeRg l k v).cores = s.cores := rfl
@[simp] theorem State.writeRg_pairs (s : State) (l : Bool) (k : Nat) (v : Word) : (s.writeRg l k v).pairs = s.pairs := rfl
@[simp] theorem State.writeRg_entering (s : State) (l : Bool) (k : Nat) (v : Word) : (s.writeRg l k v).entering = s.entering := rfl
@[simp] theorem State.writeRg_mem (s : State) (l : Bool) (k : Nat) (v : Word) : (s.writeRg l k v).mem = s.mem := rfl
@[simp] theorem State.writeRg_poison (s : State) (l : Bool) (k : Nat) (v : Word) : (s.writeRg l k v).poison = s.poison := rfl
@[simp] theorem State.writeRg_rebind (s : State) (l : Bool) (k : Nat) (v : Word) : (s.writeRg l k v).rebind = s.rebind := rfl
@[simp] theorem State.writeRg_ecc (s : State) (l : Bool) (k : Nat) (v : Word) : (s.writeRg l k v).ecc = s.ecc := rfl
@[simp] theorem State.writeRg_eccNew (s : State) (l : Bool) (k : Nat) (v : Word) : (s.writeRg l k v).eccNew = s.eccNew := rfl
@[simp] theorem State.writeRg_wbq (s : State) (l : Bool) (k : Nat) (v : Word) : (s.writeRg l k v).wbq = s.wbq := rfl
@[simp] theorem State.writeRg_remap (s : State) (l : Bool) (k : Nat) (v : Word) : (s.writeRg l k v).remap = s.remap := rfl
@[simp] theorem State.writeRg_collided (s : State) (l : Bool) (k : Nat) (v : Word) : (s.writeRg l k v).collided = s.collided := rfl
@[simp] theorem State.writeRg_dmas (s : State) (l : Bool) (k : Nat) (v : Word) : (s.writeRg l k v).dmas = s.dmas := rfl
@[simp] theorem State.writeRg_sparges (s : State) (l : Bool) (k : Nat) (v : Word) : (s.writeRg l k v).sparges = s.sparges := rfl
@[simp] theorem State.writeRg_flash (s : State) (l : Bool) (k : Nat) (v : Word) : (s.writeRg l k v).flash = s.flash := rfl
@[simp] theorem State.writeRg_flUndef (s : State) (l : Bool) (k : Nat) (v : Word) : (s.writeRg l k v).flUndef = s.flUndef := rfl
@[simp] theorem State.writeRg_flEcc (s : State) (l : Bool) (k : Nat) (v : Word) : (s.writeRg l k v).flEcc = s.flEcc := rfl
@[simp] theorem State.writeRg_flProg (s : State) (l : Bool) (k : Nat) (v : Word) : (s.writeRg l k v).flProg = s.flProg := rfl
@[simp] theorem State.writeRg_flBanks (s : State) (l : Bool) (k : Nat) (v : Word) : (s.writeRg l k v).flBanks = s.flBanks := rfl
@[simp] theorem State.writeRg_dfSecs (s : State) (l : Bool) (k : Nat) (v : Word) : (s.writeRg l k v).dfSecs = s.dfSecs := rfl
@[simp] theorem State.writeRg_dfQueue (s : State) (l : Bool) (k : Nat) (v : Word) : (s.writeRg l k v).dfQueue = s.dfQueue := rfl
@[simp] theorem State.writeRg_dfBg (s : State) (l : Bool) (k : Nat) (v : Word) : (s.writeRg l k v).dfBg = s.dfBg := rfl
@[simp] theorem State.writeRg_dfSeq (s : State) (l : Bool) (k : Nat) (v : Word) : (s.writeRg l k v).dfSeq = s.dfSeq := rfl
@[simp] theorem State.writeRg_dfTop (s : State) (l : Bool) (k : Nat) (v : Word) : (s.writeRg l k v).dfTop = s.dfTop := rfl
@[simp] theorem State.writeRg_prot (s : State) (l : Bool) (k : Nat) (v : Word) : (s.writeRg l k v).prot = s.prot := rfl
@[simp] theorem State.writeRg_protPend (s : State) (l : Bool) (k : Nat) (v : Word) : (s.writeRg l k v).protPend = s.protPend := rfl
@[simp] theorem State.writeRg_protNew (s : State) (l : Bool) (k : Nat) (v : Word) : (s.writeRg l k v).protNew = s.protNew := rfl
@[simp] theorem State.writeRg_otp (s : State) (l : Bool) (k : Nat) (v : Word) : (s.writeRg l k v).otp = s.otp := rfl
@[simp] theorem State.writeRg_otpOp (s : State) (l : Bool) (k : Nat) (v : Word) : (s.writeRg l k v).otpOp = s.otpOp := rfl
@[simp] theorem State.writeRg_pes (s : State) (l : Bool) (k : Nat) (v : Word) : (s.writeRg l k v).pes = s.pes := rfl
@[simp] theorem State.writeRg_pio (s : State) (l : Bool) (k : Nat) (v : Word) : (s.writeRg l k v).pio = s.pio := rfl
@[simp] theorem State.writeRg_oz (s : State) (l : Bool) (k : Nat) (v : Word) : (s.writeRg l k v).oz = s.oz := rfl
@[simp] theorem State.writeRg_links (s : State) (l : Bool) (k : Nat) (v : Word) : (s.writeRg l k v).links = s.links := rfl
@[simp] theorem State.writeRg_remotes (s : State) (l : Bool) (k : Nat) (v : Word) : (s.writeRg l k v).remotes = s.remotes := rfl
@[simp] theorem State.writeRg_stalls (s : State) (l : Bool) (k : Nat) (v : Word) : (s.writeRg l k v).stalls = s.stalls := rfl
@[simp] theorem State.writeRg_nextTag (s : State) (l : Bool) (k : Nat) (v : Word) : (s.writeRg l k v).nextTag = s.nextTag := rfl
@[simp] theorem State.writeRg_lkUsed (s : State) (l : Bool) (k : Nat) (v : Word) : (s.writeRg l k v).lkUsed = s.lkUsed := rfl
@[simp] theorem State.writeRg_lkAsk (s : State) (l : Bool) (k : Nat) (v : Word) : (s.writeRg l k v).lkAsk = s.lkAsk := rfl
@[simp] theorem State.writeRg_eths (s : State) (l : Bool) (k : Nat) (v : Word) : (s.writeRg l k v).eths = s.eths := rfl
@[simp] theorem State.writeRg_cans (s : State) (l : Bool) (k : Nat) (v : Word) : (s.writeRg l k v).cans = s.cans := rfl
@[simp] theorem State.writeRg_uarts (s : State) (l : Bool) (k : Nat) (v : Word) : (s.writeRg l k v).uarts = s.uarts := rfl
@[simp] theorem State.writeRg_boot (s : State) (l : Bool) (k : Nat) (v : Word) : (s.writeRg l k v).boot = s.boot := rfl
@[simp] theorem State.writeRg_jtag (s : State) (l : Bool) (k : Nat) (v : Word) : (s.writeRg l k v).jtag = s.jtag := rfl
@[simp] theorem State.writeRg_modeReq (s : State) (l : Bool) (k : Nat) (v : Word) : (s.writeRg l k v).modeReq = s.modeReq := rfl
@[simp] theorem State.writeRg_shDue (s : State) (l : Bool) (k : Nat) (v : Word) : (s.writeRg l k v).shDue = s.shDue := rfl
@[simp] theorem State.writeRg_offDue (s : State) (l : Bool) (k : Nat) (v : Word) : (s.writeRg l k v).offDue = s.offDue := rfl
@[simp] theorem State.writeRg_faultDue (s : State) (l : Bool) (k : Nat) (v : Word) : (s.writeRg l k v).faultDue = s.faultDue := rfl
@[simp] theorem State.writeRg_clkAt (s : State) (l : Bool) (k : Nat) (v : Word) : (s.writeRg l k v).clkAt = s.clkAt := rfl
@[simp] theorem State.writeRg_rateDue (s : State) (l : Bool) (k : Nat) (v : Word) : (s.writeRg l k v).rateDue = s.rateDue := rfl
@[simp] theorem State.writeRg_swfOwn (s : State) (l : Bool) (k : Nat) (v : Word) : (s.writeRg l k v).swfOwn = s.swfOwn := rfl
@[simp] theorem State.writeRg_bankWorld (s : State) (l : Bool) (k : Nat) (v : Word) : (s.writeRg l k v).bankWorld = s.bankWorld := rfl
@[simp] theorem State.writeRg_faulted (s : State) (l : Bool) (k : Nat) (v : Word) : (s.writeRg l k v).faulted = s.faulted := rfl
@[simp] theorem State.writeRg_cycled (s : State) (l : Bool) (k : Nat) (v : Word) : (s.writeRg l k v).cycled = s.cycled := rfl
@[simp] theorem State.writeRg_tested (s : State) (l : Bool) (k : Nat) (v : Word) : (s.writeRg l k v).tested = s.tested := rfl

/-! ## putBit -/

@[simp] theorem State.putBit_pending (s : State) (k d : Nat) (b : Bool) : (s.putBit k d b).pending = s.pending := rfl
@[simp] theorem State.putBit_now (s : State) (k d : Nat) (b : Bool) : (s.putBit k d b).now = s.now := rfl
@[simp] theorem State.putBit_free (s : State) (k d : Nat) (b : Bool) : (s.putBit k d b).free = s.free := rfl
@[simp] theorem State.putBit_due (s : State) (k d : Nat) (b : Bool) : (s.putBit k d b).due = s.due := rfl
@[simp] theorem State.putBit_hwSet (s : State) (k d : Nat) (b : Bool) : (s.putBit k d b).hwSet = s.hwSet := rfl
@[simp] theorem State.putBit_wrote (s : State) (k d : Nat) (b : Bool) : (s.putBit k d b).wrote = s.wrote := rfl
@[simp] theorem State.putBit_resp (s : State) (k d : Nat) (b : Bool) : (s.putBit k d b).resp = s.resp := rfl
@[simp] theorem State.putBit_active (s : State) (k d : Nat) (b : Bool) : (s.putBit k d b).active = s.active := rfl
@[simp] theorem State.putBit_shadow (s : State) (k d : Nat) (b : Bool) : (s.putBit k d b).shadow = s.shadow := rfl
@[simp] theorem State.putBit_swapTick (s : State) (k d : Nat) (b : Bool) : (s.putBit k d b).swapTick = s.swapTick := rfl
@[simp] theorem State.putBit_swapCut (s : State) (k d : Nat) (b : Bool) : (s.putBit k d b).swapCut = s.swapCut := rfl
@[simp] theorem State.putBit_framePeriod (s : State) (k d : Nat) (b : Bool) : (s.putBit k d b).framePeriod = s.framePeriod := rfl
@[simp] theorem State.putBit_lostAt (s : State) (k d : Nat) (b : Bool) : (s.putBit k d b).lostAt = s.lostAt := rfl
@[simp] theorem State.putBit_tickOut (s : State) (k d : Nat) (b : Bool) : (s.putBit k d b).tickOut = s.tickOut := rfl
@[simp] theorem State.putBit_markNum (s : State) (k d : Nat) (b : Bool) : (s.putBit k d b).markNum = s.markNum := rfl
@[simp] theorem State.putBit_slewLeft (s : State) (k d : Nat) (b : Bool) : (s.putBit k d b).slewLeft = s.slewLeft := rfl
@[simp] theorem State.putBit_otpLoaded (s : State) (k d : Nat) (b : Bool) : (s.putBit k d b).otpLoaded = s.otpLoaded := rfl
@[simp] theorem State.putBit_ts64 (s : State) (k d : Nat) (b : Bool) : (s.putBit k d b).ts64 = s.ts64 := rfl
@[simp] theorem State.putBit_snaps (s : State) (k d : Nat) (b : Bool) : (s.putBit k d b).snaps = s.snaps := rfl
@[simp] theorem State.putBit_pts (s : State) (k d : Nat) (b : Bool) : (s.putBit k d b).pts = s.pts := rfl
@[simp] theorem State.putBit_gts (s : State) (k d : Nat) (b : Bool) : (s.putBit k d b).gts = s.gts := rfl
@[simp] theorem State.putBit_holdOvr (s : State) (k d : Nat) (b : Bool) : (s.putBit k d b).holdOvr = s.holdOvr := rfl
@[simp] theorem State.putBit_holdNew (s : State) (k d : Nat) (b : Bool) : (s.putBit k d b).holdNew = s.holdNew := rfl
@[simp] theorem State.putBit_holdRed (s : State) (k d : Nat) (b : Bool) : (s.putBit k d b).holdRed = s.holdRed := rfl
@[simp] theorem State.putBit_holdRedNew (s : State) (k d : Nat) (b : Bool) : (s.putBit k d b).holdRedNew = s.holdRedNew := rfl
@[simp] theorem State.putBit_holdPins (s : State) (k d : Nat) (b : Bool) : (s.putBit k d b).holdPins = s.holdPins := rfl
@[simp] theorem State.putBit_adcs (s : State) (k d : Nat) (b : Bool) : (s.putBit k d b).adcs = s.adcs := rfl
@[simp] theorem State.putBit_reliefs (s : State) (k d : Nat) (b : Bool) : (s.putBit k d b).reliefs = s.reliefs := rfl
@[simp] theorem State.putBit_sds (s : State) (k d : Nat) (b : Bool) : (s.putBit k d b).sds = s.sds := rfl
@[simp] theorem State.putBit_cmps (s : State) (k d : Nat) (b : Bool) : (s.putBit k d b).cmps = s.cmps := rfl
@[simp] theorem State.putBit_fab (s : State) (k d : Nat) (b : Bool) : (s.putBit k d b).fab = s.fab := rfl
@[simp] theorem State.putBit_cores (s : State) (k d : Nat) (b : Bool) : (s.putBit k d b).cores = s.cores := rfl
@[simp] theorem State.putBit_pairs (s : State) (k d : Nat) (b : Bool) : (s.putBit k d b).pairs = s.pairs := rfl
@[simp] theorem State.putBit_entering (s : State) (k d : Nat) (b : Bool) : (s.putBit k d b).entering = s.entering := rfl
@[simp] theorem State.putBit_mem (s : State) (k d : Nat) (b : Bool) : (s.putBit k d b).mem = s.mem := rfl
@[simp] theorem State.putBit_poison (s : State) (k d : Nat) (b : Bool) : (s.putBit k d b).poison = s.poison := rfl
@[simp] theorem State.putBit_rebind (s : State) (k d : Nat) (b : Bool) : (s.putBit k d b).rebind = s.rebind := rfl
@[simp] theorem State.putBit_ecc (s : State) (k d : Nat) (b : Bool) : (s.putBit k d b).ecc = s.ecc := rfl
@[simp] theorem State.putBit_eccNew (s : State) (k d : Nat) (b : Bool) : (s.putBit k d b).eccNew = s.eccNew := rfl
@[simp] theorem State.putBit_wbq (s : State) (k d : Nat) (b : Bool) : (s.putBit k d b).wbq = s.wbq := rfl
@[simp] theorem State.putBit_remap (s : State) (k d : Nat) (b : Bool) : (s.putBit k d b).remap = s.remap := rfl
@[simp] theorem State.putBit_collided (s : State) (k d : Nat) (b : Bool) : (s.putBit k d b).collided = s.collided := rfl
@[simp] theorem State.putBit_dmas (s : State) (k d : Nat) (b : Bool) : (s.putBit k d b).dmas = s.dmas := rfl
@[simp] theorem State.putBit_sparges (s : State) (k d : Nat) (b : Bool) : (s.putBit k d b).sparges = s.sparges := rfl
@[simp] theorem State.putBit_flash (s : State) (k d : Nat) (b : Bool) : (s.putBit k d b).flash = s.flash := rfl
@[simp] theorem State.putBit_flUndef (s : State) (k d : Nat) (b : Bool) : (s.putBit k d b).flUndef = s.flUndef := rfl
@[simp] theorem State.putBit_flEcc (s : State) (k d : Nat) (b : Bool) : (s.putBit k d b).flEcc = s.flEcc := rfl
@[simp] theorem State.putBit_flProg (s : State) (k d : Nat) (b : Bool) : (s.putBit k d b).flProg = s.flProg := rfl
@[simp] theorem State.putBit_flBanks (s : State) (k d : Nat) (b : Bool) : (s.putBit k d b).flBanks = s.flBanks := rfl
@[simp] theorem State.putBit_dfSecs (s : State) (k d : Nat) (b : Bool) : (s.putBit k d b).dfSecs = s.dfSecs := rfl
@[simp] theorem State.putBit_dfQueue (s : State) (k d : Nat) (b : Bool) : (s.putBit k d b).dfQueue = s.dfQueue := rfl
@[simp] theorem State.putBit_dfBg (s : State) (k d : Nat) (b : Bool) : (s.putBit k d b).dfBg = s.dfBg := rfl
@[simp] theorem State.putBit_dfSeq (s : State) (k d : Nat) (b : Bool) : (s.putBit k d b).dfSeq = s.dfSeq := rfl
@[simp] theorem State.putBit_dfTop (s : State) (k d : Nat) (b : Bool) : (s.putBit k d b).dfTop = s.dfTop := rfl
@[simp] theorem State.putBit_prot (s : State) (k d : Nat) (b : Bool) : (s.putBit k d b).prot = s.prot := rfl
@[simp] theorem State.putBit_protPend (s : State) (k d : Nat) (b : Bool) : (s.putBit k d b).protPend = s.protPend := rfl
@[simp] theorem State.putBit_protNew (s : State) (k d : Nat) (b : Bool) : (s.putBit k d b).protNew = s.protNew := rfl
@[simp] theorem State.putBit_otp (s : State) (k d : Nat) (b : Bool) : (s.putBit k d b).otp = s.otp := rfl
@[simp] theorem State.putBit_otpOp (s : State) (k d : Nat) (b : Bool) : (s.putBit k d b).otpOp = s.otpOp := rfl
@[simp] theorem State.putBit_pes (s : State) (k d : Nat) (b : Bool) : (s.putBit k d b).pes = s.pes := rfl
@[simp] theorem State.putBit_pio (s : State) (k d : Nat) (b : Bool) : (s.putBit k d b).pio = s.pio := rfl
@[simp] theorem State.putBit_oz (s : State) (k d : Nat) (b : Bool) : (s.putBit k d b).oz = s.oz := rfl
@[simp] theorem State.putBit_links (s : State) (k d : Nat) (b : Bool) : (s.putBit k d b).links = s.links := rfl
@[simp] theorem State.putBit_remotes (s : State) (k d : Nat) (b : Bool) : (s.putBit k d b).remotes = s.remotes := rfl
@[simp] theorem State.putBit_stalls (s : State) (k d : Nat) (b : Bool) : (s.putBit k d b).stalls = s.stalls := rfl
@[simp] theorem State.putBit_nextTag (s : State) (k d : Nat) (b : Bool) : (s.putBit k d b).nextTag = s.nextTag := rfl
@[simp] theorem State.putBit_lkUsed (s : State) (k d : Nat) (b : Bool) : (s.putBit k d b).lkUsed = s.lkUsed := rfl
@[simp] theorem State.putBit_lkAsk (s : State) (k d : Nat) (b : Bool) : (s.putBit k d b).lkAsk = s.lkAsk := rfl
@[simp] theorem State.putBit_eths (s : State) (k d : Nat) (b : Bool) : (s.putBit k d b).eths = s.eths := rfl
@[simp] theorem State.putBit_cans (s : State) (k d : Nat) (b : Bool) : (s.putBit k d b).cans = s.cans := rfl
@[simp] theorem State.putBit_uarts (s : State) (k d : Nat) (b : Bool) : (s.putBit k d b).uarts = s.uarts := rfl
@[simp] theorem State.putBit_boot (s : State) (k d : Nat) (b : Bool) : (s.putBit k d b).boot = s.boot := rfl
@[simp] theorem State.putBit_jtag (s : State) (k d : Nat) (b : Bool) : (s.putBit k d b).jtag = s.jtag := rfl
@[simp] theorem State.putBit_modeReq (s : State) (k d : Nat) (b : Bool) : (s.putBit k d b).modeReq = s.modeReq := rfl
@[simp] theorem State.putBit_shDue (s : State) (k d : Nat) (b : Bool) : (s.putBit k d b).shDue = s.shDue := rfl
@[simp] theorem State.putBit_offDue (s : State) (k d : Nat) (b : Bool) : (s.putBit k d b).offDue = s.offDue := rfl
@[simp] theorem State.putBit_faultDue (s : State) (k d : Nat) (b : Bool) : (s.putBit k d b).faultDue = s.faultDue := rfl
@[simp] theorem State.putBit_clkAt (s : State) (k d : Nat) (b : Bool) : (s.putBit k d b).clkAt = s.clkAt := rfl
@[simp] theorem State.putBit_rateDue (s : State) (k d : Nat) (b : Bool) : (s.putBit k d b).rateDue = s.rateDue := rfl
@[simp] theorem State.putBit_swfOwn (s : State) (k d : Nat) (b : Bool) : (s.putBit k d b).swfOwn = s.swfOwn := rfl
@[simp] theorem State.putBit_bankWorld (s : State) (k d : Nat) (b : Bool) : (s.putBit k d b).bankWorld = s.bankWorld := rfl
@[simp] theorem State.putBit_faulted (s : State) (k d : Nat) (b : Bool) : (s.putBit k d b).faulted = s.faulted := rfl
@[simp] theorem State.putBit_cycled (s : State) (k d : Nat) (b : Bool) : (s.putBit k d b).cycled = s.cycled := rfl
@[simp] theorem State.putBit_tested (s : State) (k d : Nat) (b : Bool) : (s.putBit k d b).tested = s.tested := rfl

/-! ## hwFlag -/

@[simp] theorem State.hwFlag_pending (s : State) (k i : Nat) : (s.hwFlag k i).pending = s.pending := rfl
@[simp] theorem State.hwFlag_now (s : State) (k i : Nat) : (s.hwFlag k i).now = s.now := rfl
@[simp] theorem State.hwFlag_free (s : State) (k i : Nat) : (s.hwFlag k i).free = s.free := rfl
@[simp] theorem State.hwFlag_due (s : State) (k i : Nat) : (s.hwFlag k i).due = s.due := rfl
@[simp] theorem State.hwFlag_wrote (s : State) (k i : Nat) : (s.hwFlag k i).wrote = s.wrote := rfl
@[simp] theorem State.hwFlag_resp (s : State) (k i : Nat) : (s.hwFlag k i).resp = s.resp := rfl
@[simp] theorem State.hwFlag_active (s : State) (k i : Nat) : (s.hwFlag k i).active = s.active := rfl
@[simp] theorem State.hwFlag_shadow (s : State) (k i : Nat) : (s.hwFlag k i).shadow = s.shadow := rfl
@[simp] theorem State.hwFlag_swapTick (s : State) (k i : Nat) : (s.hwFlag k i).swapTick = s.swapTick := rfl
@[simp] theorem State.hwFlag_swapCut (s : State) (k i : Nat) : (s.hwFlag k i).swapCut = s.swapCut := rfl
@[simp] theorem State.hwFlag_framePeriod (s : State) (k i : Nat) : (s.hwFlag k i).framePeriod = s.framePeriod := rfl
@[simp] theorem State.hwFlag_lostAt (s : State) (k i : Nat) : (s.hwFlag k i).lostAt = s.lostAt := rfl
@[simp] theorem State.hwFlag_tickOut (s : State) (k i : Nat) : (s.hwFlag k i).tickOut = s.tickOut := rfl
@[simp] theorem State.hwFlag_markNum (s : State) (k i : Nat) : (s.hwFlag k i).markNum = s.markNum := rfl
@[simp] theorem State.hwFlag_slewLeft (s : State) (k i : Nat) : (s.hwFlag k i).slewLeft = s.slewLeft := rfl
@[simp] theorem State.hwFlag_otpLoaded (s : State) (k i : Nat) : (s.hwFlag k i).otpLoaded = s.otpLoaded := rfl
@[simp] theorem State.hwFlag_ts64 (s : State) (k i : Nat) : (s.hwFlag k i).ts64 = s.ts64 := rfl
@[simp] theorem State.hwFlag_snaps (s : State) (k i : Nat) : (s.hwFlag k i).snaps = s.snaps := rfl
@[simp] theorem State.hwFlag_pts (s : State) (k i : Nat) : (s.hwFlag k i).pts = s.pts := rfl
@[simp] theorem State.hwFlag_gts (s : State) (k i : Nat) : (s.hwFlag k i).gts = s.gts := rfl
@[simp] theorem State.hwFlag_holdOvr (s : State) (k i : Nat) : (s.hwFlag k i).holdOvr = s.holdOvr := rfl
@[simp] theorem State.hwFlag_holdNew (s : State) (k i : Nat) : (s.hwFlag k i).holdNew = s.holdNew := rfl
@[simp] theorem State.hwFlag_holdRed (s : State) (k i : Nat) : (s.hwFlag k i).holdRed = s.holdRed := rfl
@[simp] theorem State.hwFlag_holdRedNew (s : State) (k i : Nat) : (s.hwFlag k i).holdRedNew = s.holdRedNew := rfl
@[simp] theorem State.hwFlag_holdPins (s : State) (k i : Nat) : (s.hwFlag k i).holdPins = s.holdPins := rfl
@[simp] theorem State.hwFlag_adcs (s : State) (k i : Nat) : (s.hwFlag k i).adcs = s.adcs := rfl
@[simp] theorem State.hwFlag_reliefs (s : State) (k i : Nat) : (s.hwFlag k i).reliefs = s.reliefs := rfl
@[simp] theorem State.hwFlag_sds (s : State) (k i : Nat) : (s.hwFlag k i).sds = s.sds := rfl
@[simp] theorem State.hwFlag_cmps (s : State) (k i : Nat) : (s.hwFlag k i).cmps = s.cmps := rfl
@[simp] theorem State.hwFlag_fab (s : State) (k i : Nat) : (s.hwFlag k i).fab = s.fab := rfl
@[simp] theorem State.hwFlag_cores (s : State) (k i : Nat) : (s.hwFlag k i).cores = s.cores := rfl
@[simp] theorem State.hwFlag_pairs (s : State) (k i : Nat) : (s.hwFlag k i).pairs = s.pairs := rfl
@[simp] theorem State.hwFlag_entering (s : State) (k i : Nat) : (s.hwFlag k i).entering = s.entering := rfl
@[simp] theorem State.hwFlag_mem (s : State) (k i : Nat) : (s.hwFlag k i).mem = s.mem := rfl
@[simp] theorem State.hwFlag_poison (s : State) (k i : Nat) : (s.hwFlag k i).poison = s.poison := rfl
@[simp] theorem State.hwFlag_rebind (s : State) (k i : Nat) : (s.hwFlag k i).rebind = s.rebind := rfl
@[simp] theorem State.hwFlag_ecc (s : State) (k i : Nat) : (s.hwFlag k i).ecc = s.ecc := rfl
@[simp] theorem State.hwFlag_eccNew (s : State) (k i : Nat) : (s.hwFlag k i).eccNew = s.eccNew := rfl
@[simp] theorem State.hwFlag_wbq (s : State) (k i : Nat) : (s.hwFlag k i).wbq = s.wbq := rfl
@[simp] theorem State.hwFlag_remap (s : State) (k i : Nat) : (s.hwFlag k i).remap = s.remap := rfl
@[simp] theorem State.hwFlag_collided (s : State) (k i : Nat) : (s.hwFlag k i).collided = s.collided := rfl
@[simp] theorem State.hwFlag_dmas (s : State) (k i : Nat) : (s.hwFlag k i).dmas = s.dmas := rfl
@[simp] theorem State.hwFlag_sparges (s : State) (k i : Nat) : (s.hwFlag k i).sparges = s.sparges := rfl
@[simp] theorem State.hwFlag_flash (s : State) (k i : Nat) : (s.hwFlag k i).flash = s.flash := rfl
@[simp] theorem State.hwFlag_flUndef (s : State) (k i : Nat) : (s.hwFlag k i).flUndef = s.flUndef := rfl
@[simp] theorem State.hwFlag_flEcc (s : State) (k i : Nat) : (s.hwFlag k i).flEcc = s.flEcc := rfl
@[simp] theorem State.hwFlag_flProg (s : State) (k i : Nat) : (s.hwFlag k i).flProg = s.flProg := rfl
@[simp] theorem State.hwFlag_flBanks (s : State) (k i : Nat) : (s.hwFlag k i).flBanks = s.flBanks := rfl
@[simp] theorem State.hwFlag_dfSecs (s : State) (k i : Nat) : (s.hwFlag k i).dfSecs = s.dfSecs := rfl
@[simp] theorem State.hwFlag_dfQueue (s : State) (k i : Nat) : (s.hwFlag k i).dfQueue = s.dfQueue := rfl
@[simp] theorem State.hwFlag_dfBg (s : State) (k i : Nat) : (s.hwFlag k i).dfBg = s.dfBg := rfl
@[simp] theorem State.hwFlag_dfSeq (s : State) (k i : Nat) : (s.hwFlag k i).dfSeq = s.dfSeq := rfl
@[simp] theorem State.hwFlag_dfTop (s : State) (k i : Nat) : (s.hwFlag k i).dfTop = s.dfTop := rfl
@[simp] theorem State.hwFlag_prot (s : State) (k i : Nat) : (s.hwFlag k i).prot = s.prot := rfl
@[simp] theorem State.hwFlag_protPend (s : State) (k i : Nat) : (s.hwFlag k i).protPend = s.protPend := rfl
@[simp] theorem State.hwFlag_protNew (s : State) (k i : Nat) : (s.hwFlag k i).protNew = s.protNew := rfl
@[simp] theorem State.hwFlag_otp (s : State) (k i : Nat) : (s.hwFlag k i).otp = s.otp := rfl
@[simp] theorem State.hwFlag_otpOp (s : State) (k i : Nat) : (s.hwFlag k i).otpOp = s.otpOp := rfl
@[simp] theorem State.hwFlag_pes (s : State) (k i : Nat) : (s.hwFlag k i).pes = s.pes := rfl
@[simp] theorem State.hwFlag_pio (s : State) (k i : Nat) : (s.hwFlag k i).pio = s.pio := rfl
@[simp] theorem State.hwFlag_oz (s : State) (k i : Nat) : (s.hwFlag k i).oz = s.oz := rfl
@[simp] theorem State.hwFlag_links (s : State) (k i : Nat) : (s.hwFlag k i).links = s.links := rfl
@[simp] theorem State.hwFlag_remotes (s : State) (k i : Nat) : (s.hwFlag k i).remotes = s.remotes := rfl
@[simp] theorem State.hwFlag_stalls (s : State) (k i : Nat) : (s.hwFlag k i).stalls = s.stalls := rfl
@[simp] theorem State.hwFlag_nextTag (s : State) (k i : Nat) : (s.hwFlag k i).nextTag = s.nextTag := rfl
@[simp] theorem State.hwFlag_lkUsed (s : State) (k i : Nat) : (s.hwFlag k i).lkUsed = s.lkUsed := rfl
@[simp] theorem State.hwFlag_lkAsk (s : State) (k i : Nat) : (s.hwFlag k i).lkAsk = s.lkAsk := rfl
@[simp] theorem State.hwFlag_eths (s : State) (k i : Nat) : (s.hwFlag k i).eths = s.eths := rfl
@[simp] theorem State.hwFlag_cans (s : State) (k i : Nat) : (s.hwFlag k i).cans = s.cans := rfl
@[simp] theorem State.hwFlag_uarts (s : State) (k i : Nat) : (s.hwFlag k i).uarts = s.uarts := rfl
@[simp] theorem State.hwFlag_boot (s : State) (k i : Nat) : (s.hwFlag k i).boot = s.boot := rfl
@[simp] theorem State.hwFlag_jtag (s : State) (k i : Nat) : (s.hwFlag k i).jtag = s.jtag := rfl
@[simp] theorem State.hwFlag_modeReq (s : State) (k i : Nat) : (s.hwFlag k i).modeReq = s.modeReq := rfl
@[simp] theorem State.hwFlag_shDue (s : State) (k i : Nat) : (s.hwFlag k i).shDue = s.shDue := rfl
@[simp] theorem State.hwFlag_offDue (s : State) (k i : Nat) : (s.hwFlag k i).offDue = s.offDue := rfl
@[simp] theorem State.hwFlag_faultDue (s : State) (k i : Nat) : (s.hwFlag k i).faultDue = s.faultDue := rfl
@[simp] theorem State.hwFlag_clkAt (s : State) (k i : Nat) : (s.hwFlag k i).clkAt = s.clkAt := rfl
@[simp] theorem State.hwFlag_rateDue (s : State) (k i : Nat) : (s.hwFlag k i).rateDue = s.rateDue := rfl
@[simp] theorem State.hwFlag_swfOwn (s : State) (k i : Nat) : (s.hwFlag k i).swfOwn = s.swfOwn := rfl
@[simp] theorem State.hwFlag_bankWorld (s : State) (k i : Nat) : (s.hwFlag k i).bankWorld = s.bankWorld := rfl
@[simp] theorem State.hwFlag_faulted (s : State) (k i : Nat) : (s.hwFlag k i).faulted = s.faulted := rfl
@[simp] theorem State.hwFlag_cycled (s : State) (k i : Nat) : (s.hwFlag k i).cycled = s.cycled := rfl
@[simp] theorem State.hwFlag_tested (s : State) (k i : Nat) : (s.hwFlag k i).tested = s.tested := rfl

/-! ## refuse -/

@[simp] theorem State.refuse_pending (s : State) (c : BusCause) : (s.refuse c).pending = s.pending := rfl
@[simp] theorem State.refuse_now (s : State) (c : BusCause) : (s.refuse c).now = s.now := rfl
@[simp] theorem State.refuse_free (s : State) (c : BusCause) : (s.refuse c).free = s.free := rfl
@[simp] theorem State.refuse_due (s : State) (c : BusCause) : (s.refuse c).due = s.due := rfl
@[simp] theorem State.refuse_regs (s : State) (c : BusCause) : (s.refuse c).regs = s.regs := rfl
@[simp] theorem State.refuse_hwSet (s : State) (c : BusCause) : (s.refuse c).hwSet = s.hwSet := rfl
@[simp] theorem State.refuse_wrote (s : State) (c : BusCause) : (s.refuse c).wrote = s.wrote := rfl
@[simp] theorem State.refuse_active (s : State) (c : BusCause) : (s.refuse c).active = s.active := rfl
@[simp] theorem State.refuse_shadow (s : State) (c : BusCause) : (s.refuse c).shadow = s.shadow := rfl
@[simp] theorem State.refuse_swapTick (s : State) (c : BusCause) : (s.refuse c).swapTick = s.swapTick := rfl
@[simp] theorem State.refuse_swapCut (s : State) (c : BusCause) : (s.refuse c).swapCut = s.swapCut := rfl
@[simp] theorem State.refuse_framePeriod (s : State) (c : BusCause) : (s.refuse c).framePeriod = s.framePeriod := rfl
@[simp] theorem State.refuse_lostAt (s : State) (c : BusCause) : (s.refuse c).lostAt = s.lostAt := rfl
@[simp] theorem State.refuse_tickOut (s : State) (c : BusCause) : (s.refuse c).tickOut = s.tickOut := rfl
@[simp] theorem State.refuse_markNum (s : State) (c : BusCause) : (s.refuse c).markNum = s.markNum := rfl
@[simp] theorem State.refuse_slewLeft (s : State) (c : BusCause) : (s.refuse c).slewLeft = s.slewLeft := rfl
@[simp] theorem State.refuse_otpLoaded (s : State) (c : BusCause) : (s.refuse c).otpLoaded = s.otpLoaded := rfl
@[simp] theorem State.refuse_ts64 (s : State) (c : BusCause) : (s.refuse c).ts64 = s.ts64 := rfl
@[simp] theorem State.refuse_snaps (s : State) (c : BusCause) : (s.refuse c).snaps = s.snaps := rfl
@[simp] theorem State.refuse_pts (s : State) (c : BusCause) : (s.refuse c).pts = s.pts := rfl
@[simp] theorem State.refuse_gts (s : State) (c : BusCause) : (s.refuse c).gts = s.gts := rfl
@[simp] theorem State.refuse_holdOvr (s : State) (c : BusCause) : (s.refuse c).holdOvr = s.holdOvr := rfl
@[simp] theorem State.refuse_holdNew (s : State) (c : BusCause) : (s.refuse c).holdNew = s.holdNew := rfl
@[simp] theorem State.refuse_holdRed (s : State) (c : BusCause) : (s.refuse c).holdRed = s.holdRed := rfl
@[simp] theorem State.refuse_holdRedNew (s : State) (c : BusCause) : (s.refuse c).holdRedNew = s.holdRedNew := rfl
@[simp] theorem State.refuse_holdPins (s : State) (c : BusCause) : (s.refuse c).holdPins = s.holdPins := rfl
@[simp] theorem State.refuse_adcs (s : State) (c : BusCause) : (s.refuse c).adcs = s.adcs := rfl
@[simp] theorem State.refuse_reliefs (s : State) (c : BusCause) : (s.refuse c).reliefs = s.reliefs := rfl
@[simp] theorem State.refuse_sds (s : State) (c : BusCause) : (s.refuse c).sds = s.sds := rfl
@[simp] theorem State.refuse_cmps (s : State) (c : BusCause) : (s.refuse c).cmps = s.cmps := rfl
@[simp] theorem State.refuse_fab (s : State) (c : BusCause) : (s.refuse c).fab = s.fab := rfl
@[simp] theorem State.refuse_cores (s : State) (c : BusCause) : (s.refuse c).cores = s.cores := rfl
@[simp] theorem State.refuse_pairs (s : State) (c : BusCause) : (s.refuse c).pairs = s.pairs := rfl
@[simp] theorem State.refuse_entering (s : State) (c : BusCause) : (s.refuse c).entering = s.entering := rfl
@[simp] theorem State.refuse_mem (s : State) (c : BusCause) : (s.refuse c).mem = s.mem := rfl
@[simp] theorem State.refuse_poison (s : State) (c : BusCause) : (s.refuse c).poison = s.poison := rfl
@[simp] theorem State.refuse_rebind (s : State) (c : BusCause) : (s.refuse c).rebind = s.rebind := rfl
@[simp] theorem State.refuse_ecc (s : State) (c : BusCause) : (s.refuse c).ecc = s.ecc := rfl
@[simp] theorem State.refuse_eccNew (s : State) (c : BusCause) : (s.refuse c).eccNew = s.eccNew := rfl
@[simp] theorem State.refuse_wbq (s : State) (c : BusCause) : (s.refuse c).wbq = s.wbq := rfl
@[simp] theorem State.refuse_remap (s : State) (c : BusCause) : (s.refuse c).remap = s.remap := rfl
@[simp] theorem State.refuse_collided (s : State) (c : BusCause) : (s.refuse c).collided = s.collided := rfl
@[simp] theorem State.refuse_dmas (s : State) (c : BusCause) : (s.refuse c).dmas = s.dmas := rfl
@[simp] theorem State.refuse_sparges (s : State) (c : BusCause) : (s.refuse c).sparges = s.sparges := rfl
@[simp] theorem State.refuse_flash (s : State) (c : BusCause) : (s.refuse c).flash = s.flash := rfl
@[simp] theorem State.refuse_flUndef (s : State) (c : BusCause) : (s.refuse c).flUndef = s.flUndef := rfl
@[simp] theorem State.refuse_flEcc (s : State) (c : BusCause) : (s.refuse c).flEcc = s.flEcc := rfl
@[simp] theorem State.refuse_flProg (s : State) (c : BusCause) : (s.refuse c).flProg = s.flProg := rfl
@[simp] theorem State.refuse_flBanks (s : State) (c : BusCause) : (s.refuse c).flBanks = s.flBanks := rfl
@[simp] theorem State.refuse_dfSecs (s : State) (c : BusCause) : (s.refuse c).dfSecs = s.dfSecs := rfl
@[simp] theorem State.refuse_dfQueue (s : State) (c : BusCause) : (s.refuse c).dfQueue = s.dfQueue := rfl
@[simp] theorem State.refuse_dfBg (s : State) (c : BusCause) : (s.refuse c).dfBg = s.dfBg := rfl
@[simp] theorem State.refuse_dfSeq (s : State) (c : BusCause) : (s.refuse c).dfSeq = s.dfSeq := rfl
@[simp] theorem State.refuse_dfTop (s : State) (c : BusCause) : (s.refuse c).dfTop = s.dfTop := rfl
@[simp] theorem State.refuse_prot (s : State) (c : BusCause) : (s.refuse c).prot = s.prot := rfl
@[simp] theorem State.refuse_protPend (s : State) (c : BusCause) : (s.refuse c).protPend = s.protPend := rfl
@[simp] theorem State.refuse_protNew (s : State) (c : BusCause) : (s.refuse c).protNew = s.protNew := rfl
@[simp] theorem State.refuse_otp (s : State) (c : BusCause) : (s.refuse c).otp = s.otp := rfl
@[simp] theorem State.refuse_otpOp (s : State) (c : BusCause) : (s.refuse c).otpOp = s.otpOp := rfl
@[simp] theorem State.refuse_pes (s : State) (c : BusCause) : (s.refuse c).pes = s.pes := rfl
@[simp] theorem State.refuse_pio (s : State) (c : BusCause) : (s.refuse c).pio = s.pio := rfl
@[simp] theorem State.refuse_oz (s : State) (c : BusCause) : (s.refuse c).oz = s.oz := rfl
@[simp] theorem State.refuse_links (s : State) (c : BusCause) : (s.refuse c).links = s.links := rfl
@[simp] theorem State.refuse_remotes (s : State) (c : BusCause) : (s.refuse c).remotes = s.remotes := rfl
@[simp] theorem State.refuse_stalls (s : State) (c : BusCause) : (s.refuse c).stalls = s.stalls := rfl
@[simp] theorem State.refuse_nextTag (s : State) (c : BusCause) : (s.refuse c).nextTag = s.nextTag := rfl
@[simp] theorem State.refuse_lkUsed (s : State) (c : BusCause) : (s.refuse c).lkUsed = s.lkUsed := rfl
@[simp] theorem State.refuse_lkAsk (s : State) (c : BusCause) : (s.refuse c).lkAsk = s.lkAsk := rfl
@[simp] theorem State.refuse_eths (s : State) (c : BusCause) : (s.refuse c).eths = s.eths := rfl
@[simp] theorem State.refuse_cans (s : State) (c : BusCause) : (s.refuse c).cans = s.cans := rfl
@[simp] theorem State.refuse_uarts (s : State) (c : BusCause) : (s.refuse c).uarts = s.uarts := rfl
@[simp] theorem State.refuse_boot (s : State) (c : BusCause) : (s.refuse c).boot = s.boot := rfl
@[simp] theorem State.refuse_jtag (s : State) (c : BusCause) : (s.refuse c).jtag = s.jtag := rfl
@[simp] theorem State.refuse_modeReq (s : State) (c : BusCause) : (s.refuse c).modeReq = s.modeReq := rfl
@[simp] theorem State.refuse_shDue (s : State) (c : BusCause) : (s.refuse c).shDue = s.shDue := rfl
@[simp] theorem State.refuse_offDue (s : State) (c : BusCause) : (s.refuse c).offDue = s.offDue := rfl
@[simp] theorem State.refuse_faultDue (s : State) (c : BusCause) : (s.refuse c).faultDue = s.faultDue := rfl
@[simp] theorem State.refuse_clkAt (s : State) (c : BusCause) : (s.refuse c).clkAt = s.clkAt := rfl
@[simp] theorem State.refuse_rateDue (s : State) (c : BusCause) : (s.refuse c).rateDue = s.rateDue := rfl
@[simp] theorem State.refuse_swfOwn (s : State) (c : BusCause) : (s.refuse c).swfOwn = s.swfOwn := rfl
@[simp] theorem State.refuse_bankWorld (s : State) (c : BusCause) : (s.refuse c).bankWorld = s.bankWorld := rfl
@[simp] theorem State.refuse_faulted (s : State) (c : BusCause) : (s.refuse c).faulted = s.faulted := rfl
@[simp] theorem State.refuse_cycled (s : State) (c : BusCause) : (s.refuse c).cycled = s.cycled := rfl
@[simp] theorem State.refuse_tested (s : State) (c : BusCause) : (s.refuse c).tested = s.tested := rfl

/-! ## answer -/

@[simp] theorem State.answer_pending (s : State) (w : Word) : (s.answer w).pending = s.pending := rfl
@[simp] theorem State.answer_now (s : State) (w : Word) : (s.answer w).now = s.now := rfl
@[simp] theorem State.answer_free (s : State) (w : Word) : (s.answer w).free = s.free := rfl
@[simp] theorem State.answer_due (s : State) (w : Word) : (s.answer w).due = s.due := rfl
@[simp] theorem State.answer_regs (s : State) (w : Word) : (s.answer w).regs = s.regs := rfl
@[simp] theorem State.answer_hwSet (s : State) (w : Word) : (s.answer w).hwSet = s.hwSet := rfl
@[simp] theorem State.answer_wrote (s : State) (w : Word) : (s.answer w).wrote = s.wrote := rfl
@[simp] theorem State.answer_active (s : State) (w : Word) : (s.answer w).active = s.active := rfl
@[simp] theorem State.answer_shadow (s : State) (w : Word) : (s.answer w).shadow = s.shadow := rfl
@[simp] theorem State.answer_swapTick (s : State) (w : Word) : (s.answer w).swapTick = s.swapTick := rfl
@[simp] theorem State.answer_swapCut (s : State) (w : Word) : (s.answer w).swapCut = s.swapCut := rfl
@[simp] theorem State.answer_framePeriod (s : State) (w : Word) : (s.answer w).framePeriod = s.framePeriod := rfl
@[simp] theorem State.answer_lostAt (s : State) (w : Word) : (s.answer w).lostAt = s.lostAt := rfl
@[simp] theorem State.answer_tickOut (s : State) (w : Word) : (s.answer w).tickOut = s.tickOut := rfl
@[simp] theorem State.answer_markNum (s : State) (w : Word) : (s.answer w).markNum = s.markNum := rfl
@[simp] theorem State.answer_slewLeft (s : State) (w : Word) : (s.answer w).slewLeft = s.slewLeft := rfl
@[simp] theorem State.answer_otpLoaded (s : State) (w : Word) : (s.answer w).otpLoaded = s.otpLoaded := rfl
@[simp] theorem State.answer_ts64 (s : State) (w : Word) : (s.answer w).ts64 = s.ts64 := rfl
@[simp] theorem State.answer_snaps (s : State) (w : Word) : (s.answer w).snaps = s.snaps := rfl
@[simp] theorem State.answer_pts (s : State) (w : Word) : (s.answer w).pts = s.pts := rfl
@[simp] theorem State.answer_gts (s : State) (w : Word) : (s.answer w).gts = s.gts := rfl
@[simp] theorem State.answer_holdOvr (s : State) (w : Word) : (s.answer w).holdOvr = s.holdOvr := rfl
@[simp] theorem State.answer_holdNew (s : State) (w : Word) : (s.answer w).holdNew = s.holdNew := rfl
@[simp] theorem State.answer_holdRed (s : State) (w : Word) : (s.answer w).holdRed = s.holdRed := rfl
@[simp] theorem State.answer_holdRedNew (s : State) (w : Word) : (s.answer w).holdRedNew = s.holdRedNew := rfl
@[simp] theorem State.answer_holdPins (s : State) (w : Word) : (s.answer w).holdPins = s.holdPins := rfl
@[simp] theorem State.answer_adcs (s : State) (w : Word) : (s.answer w).adcs = s.adcs := rfl
@[simp] theorem State.answer_reliefs (s : State) (w : Word) : (s.answer w).reliefs = s.reliefs := rfl
@[simp] theorem State.answer_sds (s : State) (w : Word) : (s.answer w).sds = s.sds := rfl
@[simp] theorem State.answer_cmps (s : State) (w : Word) : (s.answer w).cmps = s.cmps := rfl
@[simp] theorem State.answer_fab (s : State) (w : Word) : (s.answer w).fab = s.fab := rfl
@[simp] theorem State.answer_cores (s : State) (w : Word) : (s.answer w).cores = s.cores := rfl
@[simp] theorem State.answer_pairs (s : State) (w : Word) : (s.answer w).pairs = s.pairs := rfl
@[simp] theorem State.answer_entering (s : State) (w : Word) : (s.answer w).entering = s.entering := rfl
@[simp] theorem State.answer_mem (s : State) (w : Word) : (s.answer w).mem = s.mem := rfl
@[simp] theorem State.answer_poison (s : State) (w : Word) : (s.answer w).poison = s.poison := rfl
@[simp] theorem State.answer_rebind (s : State) (w : Word) : (s.answer w).rebind = s.rebind := rfl
@[simp] theorem State.answer_ecc (s : State) (w : Word) : (s.answer w).ecc = s.ecc := rfl
@[simp] theorem State.answer_eccNew (s : State) (w : Word) : (s.answer w).eccNew = s.eccNew := rfl
@[simp] theorem State.answer_wbq (s : State) (w : Word) : (s.answer w).wbq = s.wbq := rfl
@[simp] theorem State.answer_remap (s : State) (w : Word) : (s.answer w).remap = s.remap := rfl
@[simp] theorem State.answer_collided (s : State) (w : Word) : (s.answer w).collided = s.collided := rfl
@[simp] theorem State.answer_dmas (s : State) (w : Word) : (s.answer w).dmas = s.dmas := rfl
@[simp] theorem State.answer_sparges (s : State) (w : Word) : (s.answer w).sparges = s.sparges := rfl
@[simp] theorem State.answer_flash (s : State) (w : Word) : (s.answer w).flash = s.flash := rfl
@[simp] theorem State.answer_flUndef (s : State) (w : Word) : (s.answer w).flUndef = s.flUndef := rfl
@[simp] theorem State.answer_flEcc (s : State) (w : Word) : (s.answer w).flEcc = s.flEcc := rfl
@[simp] theorem State.answer_flProg (s : State) (w : Word) : (s.answer w).flProg = s.flProg := rfl
@[simp] theorem State.answer_flBanks (s : State) (w : Word) : (s.answer w).flBanks = s.flBanks := rfl
@[simp] theorem State.answer_dfSecs (s : State) (w : Word) : (s.answer w).dfSecs = s.dfSecs := rfl
@[simp] theorem State.answer_dfQueue (s : State) (w : Word) : (s.answer w).dfQueue = s.dfQueue := rfl
@[simp] theorem State.answer_dfBg (s : State) (w : Word) : (s.answer w).dfBg = s.dfBg := rfl
@[simp] theorem State.answer_dfSeq (s : State) (w : Word) : (s.answer w).dfSeq = s.dfSeq := rfl
@[simp] theorem State.answer_dfTop (s : State) (w : Word) : (s.answer w).dfTop = s.dfTop := rfl
@[simp] theorem State.answer_prot (s : State) (w : Word) : (s.answer w).prot = s.prot := rfl
@[simp] theorem State.answer_protPend (s : State) (w : Word) : (s.answer w).protPend = s.protPend := rfl
@[simp] theorem State.answer_protNew (s : State) (w : Word) : (s.answer w).protNew = s.protNew := rfl
@[simp] theorem State.answer_otp (s : State) (w : Word) : (s.answer w).otp = s.otp := rfl
@[simp] theorem State.answer_otpOp (s : State) (w : Word) : (s.answer w).otpOp = s.otpOp := rfl
@[simp] theorem State.answer_pes (s : State) (w : Word) : (s.answer w).pes = s.pes := rfl
@[simp] theorem State.answer_pio (s : State) (w : Word) : (s.answer w).pio = s.pio := rfl
@[simp] theorem State.answer_oz (s : State) (w : Word) : (s.answer w).oz = s.oz := rfl
@[simp] theorem State.answer_links (s : State) (w : Word) : (s.answer w).links = s.links := rfl
@[simp] theorem State.answer_remotes (s : State) (w : Word) : (s.answer w).remotes = s.remotes := rfl
@[simp] theorem State.answer_stalls (s : State) (w : Word) : (s.answer w).stalls = s.stalls := rfl
@[simp] theorem State.answer_nextTag (s : State) (w : Word) : (s.answer w).nextTag = s.nextTag := rfl
@[simp] theorem State.answer_lkUsed (s : State) (w : Word) : (s.answer w).lkUsed = s.lkUsed := rfl
@[simp] theorem State.answer_lkAsk (s : State) (w : Word) : (s.answer w).lkAsk = s.lkAsk := rfl
@[simp] theorem State.answer_eths (s : State) (w : Word) : (s.answer w).eths = s.eths := rfl
@[simp] theorem State.answer_cans (s : State) (w : Word) : (s.answer w).cans = s.cans := rfl
@[simp] theorem State.answer_uarts (s : State) (w : Word) : (s.answer w).uarts = s.uarts := rfl
@[simp] theorem State.answer_boot (s : State) (w : Word) : (s.answer w).boot = s.boot := rfl
@[simp] theorem State.answer_jtag (s : State) (w : Word) : (s.answer w).jtag = s.jtag := rfl
@[simp] theorem State.answer_modeReq (s : State) (w : Word) : (s.answer w).modeReq = s.modeReq := rfl
@[simp] theorem State.answer_shDue (s : State) (w : Word) : (s.answer w).shDue = s.shDue := rfl
@[simp] theorem State.answer_offDue (s : State) (w : Word) : (s.answer w).offDue = s.offDue := rfl
@[simp] theorem State.answer_faultDue (s : State) (w : Word) : (s.answer w).faultDue = s.faultDue := rfl
@[simp] theorem State.answer_clkAt (s : State) (w : Word) : (s.answer w).clkAt = s.clkAt := rfl
@[simp] theorem State.answer_rateDue (s : State) (w : Word) : (s.answer w).rateDue = s.rateDue := rfl
@[simp] theorem State.answer_swfOwn (s : State) (w : Word) : (s.answer w).swfOwn = s.swfOwn := rfl
@[simp] theorem State.answer_bankWorld (s : State) (w : Word) : (s.answer w).bankWorld = s.bankWorld := rfl
@[simp] theorem State.answer_faulted (s : State) (w : Word) : (s.answer w).faulted = s.faulted := rfl
@[simp] theorem State.answer_cycled (s : State) (w : Word) : (s.answer w).cycled = s.cycled := rfl
@[simp] theorem State.answer_tested (s : State) (w : Word) : (s.answer w).tested = s.tested := rfl

/-! ## after -/

@[simp] theorem State.after_pending (s : State) (n : Nat) (i : Instr) : (s.after n i).pending = s.pending := rfl
@[simp] theorem State.after_now (s : State) (n : Nat) (i : Instr) : (s.after n i).now = s.now := rfl
@[simp] theorem State.after_free (s : State) (n : Nat) (i : Instr) : (s.after n i).free = s.free := rfl
@[simp] theorem State.after_regs (s : State) (n : Nat) (i : Instr) : (s.after n i).regs = s.regs := rfl
@[simp] theorem State.after_hwSet (s : State) (n : Nat) (i : Instr) : (s.after n i).hwSet = s.hwSet := rfl
@[simp] theorem State.after_wrote (s : State) (n : Nat) (i : Instr) : (s.after n i).wrote = s.wrote := rfl
@[simp] theorem State.after_resp (s : State) (n : Nat) (i : Instr) : (s.after n i).resp = s.resp := rfl
@[simp] theorem State.after_active (s : State) (n : Nat) (i : Instr) : (s.after n i).active = s.active := rfl
@[simp] theorem State.after_shadow (s : State) (n : Nat) (i : Instr) : (s.after n i).shadow = s.shadow := rfl
@[simp] theorem State.after_swapTick (s : State) (n : Nat) (i : Instr) : (s.after n i).swapTick = s.swapTick := rfl
@[simp] theorem State.after_swapCut (s : State) (n : Nat) (i : Instr) : (s.after n i).swapCut = s.swapCut := rfl
@[simp] theorem State.after_framePeriod (s : State) (n : Nat) (i : Instr) : (s.after n i).framePeriod = s.framePeriod := rfl
@[simp] theorem State.after_lostAt (s : State) (n : Nat) (i : Instr) : (s.after n i).lostAt = s.lostAt := rfl
@[simp] theorem State.after_tickOut (s : State) (n : Nat) (i : Instr) : (s.after n i).tickOut = s.tickOut := rfl
@[simp] theorem State.after_markNum (s : State) (n : Nat) (i : Instr) : (s.after n i).markNum = s.markNum := rfl
@[simp] theorem State.after_slewLeft (s : State) (n : Nat) (i : Instr) : (s.after n i).slewLeft = s.slewLeft := rfl
@[simp] theorem State.after_otpLoaded (s : State) (n : Nat) (i : Instr) : (s.after n i).otpLoaded = s.otpLoaded := rfl
@[simp] theorem State.after_ts64 (s : State) (n : Nat) (i : Instr) : (s.after n i).ts64 = s.ts64 := rfl
@[simp] theorem State.after_snaps (s : State) (n : Nat) (i : Instr) : (s.after n i).snaps = s.snaps := rfl
@[simp] theorem State.after_pts (s : State) (n : Nat) (i : Instr) : (s.after n i).pts = s.pts := rfl
@[simp] theorem State.after_gts (s : State) (n : Nat) (i : Instr) : (s.after n i).gts = s.gts := rfl
@[simp] theorem State.after_holdOvr (s : State) (n : Nat) (i : Instr) : (s.after n i).holdOvr = s.holdOvr := rfl
@[simp] theorem State.after_holdNew (s : State) (n : Nat) (i : Instr) : (s.after n i).holdNew = s.holdNew := rfl
@[simp] theorem State.after_holdRed (s : State) (n : Nat) (i : Instr) : (s.after n i).holdRed = s.holdRed := rfl
@[simp] theorem State.after_holdRedNew (s : State) (n : Nat) (i : Instr) : (s.after n i).holdRedNew = s.holdRedNew := rfl
@[simp] theorem State.after_holdPins (s : State) (n : Nat) (i : Instr) : (s.after n i).holdPins = s.holdPins := rfl
@[simp] theorem State.after_adcs (s : State) (n : Nat) (i : Instr) : (s.after n i).adcs = s.adcs := rfl
@[simp] theorem State.after_reliefs (s : State) (n : Nat) (i : Instr) : (s.after n i).reliefs = s.reliefs := rfl
@[simp] theorem State.after_sds (s : State) (n : Nat) (i : Instr) : (s.after n i).sds = s.sds := rfl
@[simp] theorem State.after_cmps (s : State) (n : Nat) (i : Instr) : (s.after n i).cmps = s.cmps := rfl
@[simp] theorem State.after_fab (s : State) (n : Nat) (i : Instr) : (s.after n i).fab = s.fab := rfl
@[simp] theorem State.after_cores (s : State) (n : Nat) (i : Instr) : (s.after n i).cores = s.cores := rfl
@[simp] theorem State.after_pairs (s : State) (n : Nat) (i : Instr) : (s.after n i).pairs = s.pairs := rfl
@[simp] theorem State.after_entering (s : State) (n : Nat) (i : Instr) : (s.after n i).entering = s.entering := rfl
@[simp] theorem State.after_mem (s : State) (n : Nat) (i : Instr) : (s.after n i).mem = s.mem := rfl
@[simp] theorem State.after_poison (s : State) (n : Nat) (i : Instr) : (s.after n i).poison = s.poison := rfl
@[simp] theorem State.after_rebind (s : State) (n : Nat) (i : Instr) : (s.after n i).rebind = s.rebind := rfl
@[simp] theorem State.after_ecc (s : State) (n : Nat) (i : Instr) : (s.after n i).ecc = s.ecc := rfl
@[simp] theorem State.after_eccNew (s : State) (n : Nat) (i : Instr) : (s.after n i).eccNew = s.eccNew := rfl
@[simp] theorem State.after_wbq (s : State) (n : Nat) (i : Instr) : (s.after n i).wbq = s.wbq := rfl
@[simp] theorem State.after_remap (s : State) (n : Nat) (i : Instr) : (s.after n i).remap = s.remap := rfl
@[simp] theorem State.after_collided (s : State) (n : Nat) (i : Instr) : (s.after n i).collided = s.collided := rfl
@[simp] theorem State.after_dmas (s : State) (n : Nat) (i : Instr) : (s.after n i).dmas = s.dmas := rfl
@[simp] theorem State.after_sparges (s : State) (n : Nat) (i : Instr) : (s.after n i).sparges = s.sparges := rfl
@[simp] theorem State.after_flash (s : State) (n : Nat) (i : Instr) : (s.after n i).flash = s.flash := rfl
@[simp] theorem State.after_flUndef (s : State) (n : Nat) (i : Instr) : (s.after n i).flUndef = s.flUndef := rfl
@[simp] theorem State.after_flEcc (s : State) (n : Nat) (i : Instr) : (s.after n i).flEcc = s.flEcc := rfl
@[simp] theorem State.after_flProg (s : State) (n : Nat) (i : Instr) : (s.after n i).flProg = s.flProg := rfl
@[simp] theorem State.after_flBanks (s : State) (n : Nat) (i : Instr) : (s.after n i).flBanks = s.flBanks := rfl
@[simp] theorem State.after_dfSecs (s : State) (n : Nat) (i : Instr) : (s.after n i).dfSecs = s.dfSecs := rfl
@[simp] theorem State.after_dfQueue (s : State) (n : Nat) (i : Instr) : (s.after n i).dfQueue = s.dfQueue := rfl
@[simp] theorem State.after_dfBg (s : State) (n : Nat) (i : Instr) : (s.after n i).dfBg = s.dfBg := rfl
@[simp] theorem State.after_dfSeq (s : State) (n : Nat) (i : Instr) : (s.after n i).dfSeq = s.dfSeq := rfl
@[simp] theorem State.after_dfTop (s : State) (n : Nat) (i : Instr) : (s.after n i).dfTop = s.dfTop := rfl
@[simp] theorem State.after_prot (s : State) (n : Nat) (i : Instr) : (s.after n i).prot = s.prot := rfl
@[simp] theorem State.after_protPend (s : State) (n : Nat) (i : Instr) : (s.after n i).protPend = s.protPend := rfl
@[simp] theorem State.after_protNew (s : State) (n : Nat) (i : Instr) : (s.after n i).protNew = s.protNew := rfl
@[simp] theorem State.after_otp (s : State) (n : Nat) (i : Instr) : (s.after n i).otp = s.otp := rfl
@[simp] theorem State.after_otpOp (s : State) (n : Nat) (i : Instr) : (s.after n i).otpOp = s.otpOp := rfl
@[simp] theorem State.after_pes (s : State) (n : Nat) (i : Instr) : (s.after n i).pes = s.pes := rfl
@[simp] theorem State.after_pio (s : State) (n : Nat) (i : Instr) : (s.after n i).pio = s.pio := rfl
@[simp] theorem State.after_oz (s : State) (n : Nat) (i : Instr) : (s.after n i).oz = s.oz := rfl
@[simp] theorem State.after_links (s : State) (n : Nat) (i : Instr) : (s.after n i).links = s.links := rfl
@[simp] theorem State.after_remotes (s : State) (n : Nat) (i : Instr) : (s.after n i).remotes = s.remotes := rfl
@[simp] theorem State.after_stalls (s : State) (n : Nat) (i : Instr) : (s.after n i).stalls = s.stalls := rfl
@[simp] theorem State.after_nextTag (s : State) (n : Nat) (i : Instr) : (s.after n i).nextTag = s.nextTag := rfl
@[simp] theorem State.after_lkUsed (s : State) (n : Nat) (i : Instr) : (s.after n i).lkUsed = s.lkUsed := rfl
@[simp] theorem State.after_lkAsk (s : State) (n : Nat) (i : Instr) : (s.after n i).lkAsk = s.lkAsk := rfl
@[simp] theorem State.after_eths (s : State) (n : Nat) (i : Instr) : (s.after n i).eths = s.eths := rfl
@[simp] theorem State.after_cans (s : State) (n : Nat) (i : Instr) : (s.after n i).cans = s.cans := rfl
@[simp] theorem State.after_uarts (s : State) (n : Nat) (i : Instr) : (s.after n i).uarts = s.uarts := rfl
@[simp] theorem State.after_boot (s : State) (n : Nat) (i : Instr) : (s.after n i).boot = s.boot := rfl
@[simp] theorem State.after_jtag (s : State) (n : Nat) (i : Instr) : (s.after n i).jtag = s.jtag := rfl
@[simp] theorem State.after_modeReq (s : State) (n : Nat) (i : Instr) : (s.after n i).modeReq = s.modeReq := rfl
@[simp] theorem State.after_shDue (s : State) (n : Nat) (i : Instr) : (s.after n i).shDue = s.shDue := rfl
@[simp] theorem State.after_offDue (s : State) (n : Nat) (i : Instr) : (s.after n i).offDue = s.offDue := rfl
@[simp] theorem State.after_faultDue (s : State) (n : Nat) (i : Instr) : (s.after n i).faultDue = s.faultDue := rfl
@[simp] theorem State.after_clkAt (s : State) (n : Nat) (i : Instr) : (s.after n i).clkAt = s.clkAt := rfl
@[simp] theorem State.after_rateDue (s : State) (n : Nat) (i : Instr) : (s.after n i).rateDue = s.rateDue := rfl
@[simp] theorem State.after_swfOwn (s : State) (n : Nat) (i : Instr) : (s.after n i).swfOwn = s.swfOwn := rfl
@[simp] theorem State.after_bankWorld (s : State) (n : Nat) (i : Instr) : (s.after n i).bankWorld = s.bankWorld := rfl
@[simp] theorem State.after_faulted (s : State) (n : Nat) (i : Instr) : (s.after n i).faulted = s.faulted := rfl
@[simp] theorem State.after_cycled (s : State) (n : Nat) (i : Instr) : (s.after n i).cycled = s.cycled := rfl
@[simp] theorem State.after_tested (s : State) (n : Nat) (i : Instr) : (s.after n i).tested = s.tested := rfl

/-! ## cancelDue -/

@[simp] theorem State.cancelDue_pending (s : State) (i : Instr) : (s.cancelDue i).pending = s.pending := rfl
@[simp] theorem State.cancelDue_now (s : State) (i : Instr) : (s.cancelDue i).now = s.now := rfl
@[simp] theorem State.cancelDue_free (s : State) (i : Instr) : (s.cancelDue i).free = s.free := rfl
@[simp] theorem State.cancelDue_regs (s : State) (i : Instr) : (s.cancelDue i).regs = s.regs := rfl
@[simp] theorem State.cancelDue_hwSet (s : State) (i : Instr) : (s.cancelDue i).hwSet = s.hwSet := rfl
@[simp] theorem State.cancelDue_wrote (s : State) (i : Instr) : (s.cancelDue i).wrote = s.wrote := rfl
@[simp] theorem State.cancelDue_resp (s : State) (i : Instr) : (s.cancelDue i).resp = s.resp := rfl
@[simp] theorem State.cancelDue_active (s : State) (i : Instr) : (s.cancelDue i).active = s.active := rfl
@[simp] theorem State.cancelDue_shadow (s : State) (i : Instr) : (s.cancelDue i).shadow = s.shadow := rfl
@[simp] theorem State.cancelDue_swapTick (s : State) (i : Instr) : (s.cancelDue i).swapTick = s.swapTick := rfl
@[simp] theorem State.cancelDue_swapCut (s : State) (i : Instr) : (s.cancelDue i).swapCut = s.swapCut := rfl
@[simp] theorem State.cancelDue_framePeriod (s : State) (i : Instr) : (s.cancelDue i).framePeriod = s.framePeriod := rfl
@[simp] theorem State.cancelDue_lostAt (s : State) (i : Instr) : (s.cancelDue i).lostAt = s.lostAt := rfl
@[simp] theorem State.cancelDue_tickOut (s : State) (i : Instr) : (s.cancelDue i).tickOut = s.tickOut := rfl
@[simp] theorem State.cancelDue_markNum (s : State) (i : Instr) : (s.cancelDue i).markNum = s.markNum := rfl
@[simp] theorem State.cancelDue_slewLeft (s : State) (i : Instr) : (s.cancelDue i).slewLeft = s.slewLeft := rfl
@[simp] theorem State.cancelDue_otpLoaded (s : State) (i : Instr) : (s.cancelDue i).otpLoaded = s.otpLoaded := rfl
@[simp] theorem State.cancelDue_ts64 (s : State) (i : Instr) : (s.cancelDue i).ts64 = s.ts64 := rfl
@[simp] theorem State.cancelDue_snaps (s : State) (i : Instr) : (s.cancelDue i).snaps = s.snaps := rfl
@[simp] theorem State.cancelDue_pts (s : State) (i : Instr) : (s.cancelDue i).pts = s.pts := rfl
@[simp] theorem State.cancelDue_gts (s : State) (i : Instr) : (s.cancelDue i).gts = s.gts := rfl
@[simp] theorem State.cancelDue_holdOvr (s : State) (i : Instr) : (s.cancelDue i).holdOvr = s.holdOvr := rfl
@[simp] theorem State.cancelDue_holdNew (s : State) (i : Instr) : (s.cancelDue i).holdNew = s.holdNew := rfl
@[simp] theorem State.cancelDue_holdRed (s : State) (i : Instr) : (s.cancelDue i).holdRed = s.holdRed := rfl
@[simp] theorem State.cancelDue_holdRedNew (s : State) (i : Instr) : (s.cancelDue i).holdRedNew = s.holdRedNew := rfl
@[simp] theorem State.cancelDue_holdPins (s : State) (i : Instr) : (s.cancelDue i).holdPins = s.holdPins := rfl
@[simp] theorem State.cancelDue_adcs (s : State) (i : Instr) : (s.cancelDue i).adcs = s.adcs := rfl
@[simp] theorem State.cancelDue_reliefs (s : State) (i : Instr) : (s.cancelDue i).reliefs = s.reliefs := rfl
@[simp] theorem State.cancelDue_sds (s : State) (i : Instr) : (s.cancelDue i).sds = s.sds := rfl
@[simp] theorem State.cancelDue_cmps (s : State) (i : Instr) : (s.cancelDue i).cmps = s.cmps := rfl
@[simp] theorem State.cancelDue_fab (s : State) (i : Instr) : (s.cancelDue i).fab = s.fab := rfl
@[simp] theorem State.cancelDue_cores (s : State) (i : Instr) : (s.cancelDue i).cores = s.cores := rfl
@[simp] theorem State.cancelDue_pairs (s : State) (i : Instr) : (s.cancelDue i).pairs = s.pairs := rfl
@[simp] theorem State.cancelDue_entering (s : State) (i : Instr) : (s.cancelDue i).entering = s.entering := rfl
@[simp] theorem State.cancelDue_mem (s : State) (i : Instr) : (s.cancelDue i).mem = s.mem := rfl
@[simp] theorem State.cancelDue_poison (s : State) (i : Instr) : (s.cancelDue i).poison = s.poison := rfl
@[simp] theorem State.cancelDue_rebind (s : State) (i : Instr) : (s.cancelDue i).rebind = s.rebind := rfl
@[simp] theorem State.cancelDue_ecc (s : State) (i : Instr) : (s.cancelDue i).ecc = s.ecc := rfl
@[simp] theorem State.cancelDue_eccNew (s : State) (i : Instr) : (s.cancelDue i).eccNew = s.eccNew := rfl
@[simp] theorem State.cancelDue_wbq (s : State) (i : Instr) : (s.cancelDue i).wbq = s.wbq := rfl
@[simp] theorem State.cancelDue_remap (s : State) (i : Instr) : (s.cancelDue i).remap = s.remap := rfl
@[simp] theorem State.cancelDue_collided (s : State) (i : Instr) : (s.cancelDue i).collided = s.collided := rfl
@[simp] theorem State.cancelDue_dmas (s : State) (i : Instr) : (s.cancelDue i).dmas = s.dmas := rfl
@[simp] theorem State.cancelDue_sparges (s : State) (i : Instr) : (s.cancelDue i).sparges = s.sparges := rfl
@[simp] theorem State.cancelDue_flash (s : State) (i : Instr) : (s.cancelDue i).flash = s.flash := rfl
@[simp] theorem State.cancelDue_flUndef (s : State) (i : Instr) : (s.cancelDue i).flUndef = s.flUndef := rfl
@[simp] theorem State.cancelDue_flEcc (s : State) (i : Instr) : (s.cancelDue i).flEcc = s.flEcc := rfl
@[simp] theorem State.cancelDue_flProg (s : State) (i : Instr) : (s.cancelDue i).flProg = s.flProg := rfl
@[simp] theorem State.cancelDue_flBanks (s : State) (i : Instr) : (s.cancelDue i).flBanks = s.flBanks := rfl
@[simp] theorem State.cancelDue_dfSecs (s : State) (i : Instr) : (s.cancelDue i).dfSecs = s.dfSecs := rfl
@[simp] theorem State.cancelDue_dfQueue (s : State) (i : Instr) : (s.cancelDue i).dfQueue = s.dfQueue := rfl
@[simp] theorem State.cancelDue_dfBg (s : State) (i : Instr) : (s.cancelDue i).dfBg = s.dfBg := rfl
@[simp] theorem State.cancelDue_dfSeq (s : State) (i : Instr) : (s.cancelDue i).dfSeq = s.dfSeq := rfl
@[simp] theorem State.cancelDue_dfTop (s : State) (i : Instr) : (s.cancelDue i).dfTop = s.dfTop := rfl
@[simp] theorem State.cancelDue_prot (s : State) (i : Instr) : (s.cancelDue i).prot = s.prot := rfl
@[simp] theorem State.cancelDue_protPend (s : State) (i : Instr) : (s.cancelDue i).protPend = s.protPend := rfl
@[simp] theorem State.cancelDue_protNew (s : State) (i : Instr) : (s.cancelDue i).protNew = s.protNew := rfl
@[simp] theorem State.cancelDue_otp (s : State) (i : Instr) : (s.cancelDue i).otp = s.otp := rfl
@[simp] theorem State.cancelDue_otpOp (s : State) (i : Instr) : (s.cancelDue i).otpOp = s.otpOp := rfl
@[simp] theorem State.cancelDue_pes (s : State) (i : Instr) : (s.cancelDue i).pes = s.pes := rfl
@[simp] theorem State.cancelDue_pio (s : State) (i : Instr) : (s.cancelDue i).pio = s.pio := rfl
@[simp] theorem State.cancelDue_oz (s : State) (i : Instr) : (s.cancelDue i).oz = s.oz := rfl
@[simp] theorem State.cancelDue_links (s : State) (i : Instr) : (s.cancelDue i).links = s.links := rfl
@[simp] theorem State.cancelDue_remotes (s : State) (i : Instr) : (s.cancelDue i).remotes = s.remotes := rfl
@[simp] theorem State.cancelDue_stalls (s : State) (i : Instr) : (s.cancelDue i).stalls = s.stalls := rfl
@[simp] theorem State.cancelDue_nextTag (s : State) (i : Instr) : (s.cancelDue i).nextTag = s.nextTag := rfl
@[simp] theorem State.cancelDue_lkUsed (s : State) (i : Instr) : (s.cancelDue i).lkUsed = s.lkUsed := rfl
@[simp] theorem State.cancelDue_lkAsk (s : State) (i : Instr) : (s.cancelDue i).lkAsk = s.lkAsk := rfl
@[simp] theorem State.cancelDue_eths (s : State) (i : Instr) : (s.cancelDue i).eths = s.eths := rfl
@[simp] theorem State.cancelDue_cans (s : State) (i : Instr) : (s.cancelDue i).cans = s.cans := rfl
@[simp] theorem State.cancelDue_uarts (s : State) (i : Instr) : (s.cancelDue i).uarts = s.uarts := rfl
@[simp] theorem State.cancelDue_boot (s : State) (i : Instr) : (s.cancelDue i).boot = s.boot := rfl
@[simp] theorem State.cancelDue_jtag (s : State) (i : Instr) : (s.cancelDue i).jtag = s.jtag := rfl
@[simp] theorem State.cancelDue_modeReq (s : State) (i : Instr) : (s.cancelDue i).modeReq = s.modeReq := rfl
@[simp] theorem State.cancelDue_shDue (s : State) (i : Instr) : (s.cancelDue i).shDue = s.shDue := rfl
@[simp] theorem State.cancelDue_offDue (s : State) (i : Instr) : (s.cancelDue i).offDue = s.offDue := rfl
@[simp] theorem State.cancelDue_faultDue (s : State) (i : Instr) : (s.cancelDue i).faultDue = s.faultDue := rfl
@[simp] theorem State.cancelDue_clkAt (s : State) (i : Instr) : (s.cancelDue i).clkAt = s.clkAt := rfl
@[simp] theorem State.cancelDue_rateDue (s : State) (i : Instr) : (s.cancelDue i).rateDue = s.rateDue := rfl
@[simp] theorem State.cancelDue_swfOwn (s : State) (i : Instr) : (s.cancelDue i).swfOwn = s.swfOwn := rfl
@[simp] theorem State.cancelDue_bankWorld (s : State) (i : Instr) : (s.cancelDue i).bankWorld = s.bankWorld := rfl
@[simp] theorem State.cancelDue_faulted (s : State) (i : Instr) : (s.cancelDue i).faulted = s.faulted := rfl
@[simp] theorem State.cancelDue_cycled (s : State) (i : Instr) : (s.cancelDue i).cycled = s.cycled := rfl
@[simp] theorem State.cancelDue_tested (s : State) (i : Instr) : (s.cancelDue i).tested = s.tested := rfl

/-! ## setCore -/

@[simp] theorem State.setCore_pending (s : State) (c : CoreId) (k : CoreState) : (s.setCore c k).pending = s.pending := rfl
@[simp] theorem State.setCore_now (s : State) (c : CoreId) (k : CoreState) : (s.setCore c k).now = s.now := rfl
@[simp] theorem State.setCore_free (s : State) (c : CoreId) (k : CoreState) : (s.setCore c k).free = s.free := rfl
@[simp] theorem State.setCore_due (s : State) (c : CoreId) (k : CoreState) : (s.setCore c k).due = s.due := rfl
@[simp] theorem State.setCore_regs (s : State) (c : CoreId) (k : CoreState) : (s.setCore c k).regs = s.regs := rfl
@[simp] theorem State.setCore_hwSet (s : State) (c : CoreId) (k : CoreState) : (s.setCore c k).hwSet = s.hwSet := rfl
@[simp] theorem State.setCore_wrote (s : State) (c : CoreId) (k : CoreState) : (s.setCore c k).wrote = s.wrote := rfl
@[simp] theorem State.setCore_resp (s : State) (c : CoreId) (k : CoreState) : (s.setCore c k).resp = s.resp := rfl
@[simp] theorem State.setCore_active (s : State) (c : CoreId) (k : CoreState) : (s.setCore c k).active = s.active := rfl
@[simp] theorem State.setCore_shadow (s : State) (c : CoreId) (k : CoreState) : (s.setCore c k).shadow = s.shadow := rfl
@[simp] theorem State.setCore_swapTick (s : State) (c : CoreId) (k : CoreState) : (s.setCore c k).swapTick = s.swapTick := rfl
@[simp] theorem State.setCore_swapCut (s : State) (c : CoreId) (k : CoreState) : (s.setCore c k).swapCut = s.swapCut := rfl
@[simp] theorem State.setCore_framePeriod (s : State) (c : CoreId) (k : CoreState) : (s.setCore c k).framePeriod = s.framePeriod := rfl
@[simp] theorem State.setCore_lostAt (s : State) (c : CoreId) (k : CoreState) : (s.setCore c k).lostAt = s.lostAt := rfl
@[simp] theorem State.setCore_tickOut (s : State) (c : CoreId) (k : CoreState) : (s.setCore c k).tickOut = s.tickOut := rfl
@[simp] theorem State.setCore_markNum (s : State) (c : CoreId) (k : CoreState) : (s.setCore c k).markNum = s.markNum := rfl
@[simp] theorem State.setCore_slewLeft (s : State) (c : CoreId) (k : CoreState) : (s.setCore c k).slewLeft = s.slewLeft := rfl
@[simp] theorem State.setCore_otpLoaded (s : State) (c : CoreId) (k : CoreState) : (s.setCore c k).otpLoaded = s.otpLoaded := rfl
@[simp] theorem State.setCore_ts64 (s : State) (c : CoreId) (k : CoreState) : (s.setCore c k).ts64 = s.ts64 := rfl
@[simp] theorem State.setCore_snaps (s : State) (c : CoreId) (k : CoreState) : (s.setCore c k).snaps = s.snaps := rfl
@[simp] theorem State.setCore_pts (s : State) (c : CoreId) (k : CoreState) : (s.setCore c k).pts = s.pts := rfl
@[simp] theorem State.setCore_gts (s : State) (c : CoreId) (k : CoreState) : (s.setCore c k).gts = s.gts := rfl
@[simp] theorem State.setCore_holdOvr (s : State) (c : CoreId) (k : CoreState) : (s.setCore c k).holdOvr = s.holdOvr := rfl
@[simp] theorem State.setCore_holdNew (s : State) (c : CoreId) (k : CoreState) : (s.setCore c k).holdNew = s.holdNew := rfl
@[simp] theorem State.setCore_holdRed (s : State) (c : CoreId) (k : CoreState) : (s.setCore c k).holdRed = s.holdRed := rfl
@[simp] theorem State.setCore_holdRedNew (s : State) (c : CoreId) (k : CoreState) : (s.setCore c k).holdRedNew = s.holdRedNew := rfl
@[simp] theorem State.setCore_holdPins (s : State) (c : CoreId) (k : CoreState) : (s.setCore c k).holdPins = s.holdPins := rfl
@[simp] theorem State.setCore_adcs (s : State) (c : CoreId) (k : CoreState) : (s.setCore c k).adcs = s.adcs := rfl
@[simp] theorem State.setCore_reliefs (s : State) (c : CoreId) (k : CoreState) : (s.setCore c k).reliefs = s.reliefs := rfl
@[simp] theorem State.setCore_sds (s : State) (c : CoreId) (k : CoreState) : (s.setCore c k).sds = s.sds := rfl
@[simp] theorem State.setCore_cmps (s : State) (c : CoreId) (k : CoreState) : (s.setCore c k).cmps = s.cmps := rfl
@[simp] theorem State.setCore_fab (s : State) (c : CoreId) (k : CoreState) : (s.setCore c k).fab = s.fab := rfl
@[simp] theorem State.setCore_pairs (s : State) (c : CoreId) (k : CoreState) : (s.setCore c k).pairs = s.pairs := rfl
@[simp] theorem State.setCore_entering (s : State) (c : CoreId) (k : CoreState) : (s.setCore c k).entering = s.entering := rfl
@[simp] theorem State.setCore_mem (s : State) (c : CoreId) (k : CoreState) : (s.setCore c k).mem = s.mem := rfl
@[simp] theorem State.setCore_poison (s : State) (c : CoreId) (k : CoreState) : (s.setCore c k).poison = s.poison := rfl
@[simp] theorem State.setCore_rebind (s : State) (c : CoreId) (k : CoreState) : (s.setCore c k).rebind = s.rebind := rfl
@[simp] theorem State.setCore_ecc (s : State) (c : CoreId) (k : CoreState) : (s.setCore c k).ecc = s.ecc := rfl
@[simp] theorem State.setCore_eccNew (s : State) (c : CoreId) (k : CoreState) : (s.setCore c k).eccNew = s.eccNew := rfl
@[simp] theorem State.setCore_wbq (s : State) (c : CoreId) (k : CoreState) : (s.setCore c k).wbq = s.wbq := rfl
@[simp] theorem State.setCore_remap (s : State) (c : CoreId) (k : CoreState) : (s.setCore c k).remap = s.remap := rfl
@[simp] theorem State.setCore_collided (s : State) (c : CoreId) (k : CoreState) : (s.setCore c k).collided = s.collided := rfl
@[simp] theorem State.setCore_dmas (s : State) (c : CoreId) (k : CoreState) : (s.setCore c k).dmas = s.dmas := rfl
@[simp] theorem State.setCore_sparges (s : State) (c : CoreId) (k : CoreState) : (s.setCore c k).sparges = s.sparges := rfl
@[simp] theorem State.setCore_flash (s : State) (c : CoreId) (k : CoreState) : (s.setCore c k).flash = s.flash := rfl
@[simp] theorem State.setCore_flUndef (s : State) (c : CoreId) (k : CoreState) : (s.setCore c k).flUndef = s.flUndef := rfl
@[simp] theorem State.setCore_flEcc (s : State) (c : CoreId) (k : CoreState) : (s.setCore c k).flEcc = s.flEcc := rfl
@[simp] theorem State.setCore_flProg (s : State) (c : CoreId) (k : CoreState) : (s.setCore c k).flProg = s.flProg := rfl
@[simp] theorem State.setCore_flBanks (s : State) (c : CoreId) (k : CoreState) : (s.setCore c k).flBanks = s.flBanks := rfl
@[simp] theorem State.setCore_dfSecs (s : State) (c : CoreId) (k : CoreState) : (s.setCore c k).dfSecs = s.dfSecs := rfl
@[simp] theorem State.setCore_dfQueue (s : State) (c : CoreId) (k : CoreState) : (s.setCore c k).dfQueue = s.dfQueue := rfl
@[simp] theorem State.setCore_dfBg (s : State) (c : CoreId) (k : CoreState) : (s.setCore c k).dfBg = s.dfBg := rfl
@[simp] theorem State.setCore_dfSeq (s : State) (c : CoreId) (k : CoreState) : (s.setCore c k).dfSeq = s.dfSeq := rfl
@[simp] theorem State.setCore_dfTop (s : State) (c : CoreId) (k : CoreState) : (s.setCore c k).dfTop = s.dfTop := rfl
@[simp] theorem State.setCore_prot (s : State) (c : CoreId) (k : CoreState) : (s.setCore c k).prot = s.prot := rfl
@[simp] theorem State.setCore_protPend (s : State) (c : CoreId) (k : CoreState) : (s.setCore c k).protPend = s.protPend := rfl
@[simp] theorem State.setCore_protNew (s : State) (c : CoreId) (k : CoreState) : (s.setCore c k).protNew = s.protNew := rfl
@[simp] theorem State.setCore_otp (s : State) (c : CoreId) (k : CoreState) : (s.setCore c k).otp = s.otp := rfl
@[simp] theorem State.setCore_otpOp (s : State) (c : CoreId) (k : CoreState) : (s.setCore c k).otpOp = s.otpOp := rfl
@[simp] theorem State.setCore_pes (s : State) (c : CoreId) (k : CoreState) : (s.setCore c k).pes = s.pes := rfl
@[simp] theorem State.setCore_pio (s : State) (c : CoreId) (k : CoreState) : (s.setCore c k).pio = s.pio := rfl
@[simp] theorem State.setCore_oz (s : State) (c : CoreId) (k : CoreState) : (s.setCore c k).oz = s.oz := rfl
@[simp] theorem State.setCore_links (s : State) (c : CoreId) (k : CoreState) : (s.setCore c k).links = s.links := rfl
@[simp] theorem State.setCore_remotes (s : State) (c : CoreId) (k : CoreState) : (s.setCore c k).remotes = s.remotes := rfl
@[simp] theorem State.setCore_stalls (s : State) (c : CoreId) (k : CoreState) : (s.setCore c k).stalls = s.stalls := rfl
@[simp] theorem State.setCore_nextTag (s : State) (c : CoreId) (k : CoreState) : (s.setCore c k).nextTag = s.nextTag := rfl
@[simp] theorem State.setCore_lkUsed (s : State) (c : CoreId) (k : CoreState) : (s.setCore c k).lkUsed = s.lkUsed := rfl
@[simp] theorem State.setCore_lkAsk (s : State) (c : CoreId) (k : CoreState) : (s.setCore c k).lkAsk = s.lkAsk := rfl
@[simp] theorem State.setCore_eths (s : State) (c : CoreId) (k : CoreState) : (s.setCore c k).eths = s.eths := rfl
@[simp] theorem State.setCore_cans (s : State) (c : CoreId) (k : CoreState) : (s.setCore c k).cans = s.cans := rfl
@[simp] theorem State.setCore_uarts (s : State) (c : CoreId) (k : CoreState) : (s.setCore c k).uarts = s.uarts := rfl
@[simp] theorem State.setCore_boot (s : State) (c : CoreId) (k : CoreState) : (s.setCore c k).boot = s.boot := rfl
@[simp] theorem State.setCore_jtag (s : State) (c : CoreId) (k : CoreState) : (s.setCore c k).jtag = s.jtag := rfl
@[simp] theorem State.setCore_modeReq (s : State) (c : CoreId) (k : CoreState) : (s.setCore c k).modeReq = s.modeReq := rfl
@[simp] theorem State.setCore_shDue (s : State) (c : CoreId) (k : CoreState) : (s.setCore c k).shDue = s.shDue := rfl
@[simp] theorem State.setCore_offDue (s : State) (c : CoreId) (k : CoreState) : (s.setCore c k).offDue = s.offDue := rfl
@[simp] theorem State.setCore_faultDue (s : State) (c : CoreId) (k : CoreState) : (s.setCore c k).faultDue = s.faultDue := rfl
@[simp] theorem State.setCore_clkAt (s : State) (c : CoreId) (k : CoreState) : (s.setCore c k).clkAt = s.clkAt := rfl
@[simp] theorem State.setCore_rateDue (s : State) (c : CoreId) (k : CoreState) : (s.setCore c k).rateDue = s.rateDue := rfl
@[simp] theorem State.setCore_swfOwn (s : State) (c : CoreId) (k : CoreState) : (s.setCore c k).swfOwn = s.swfOwn := rfl
@[simp] theorem State.setCore_bankWorld (s : State) (c : CoreId) (k : CoreState) : (s.setCore c k).bankWorld = s.bankWorld := rfl
@[simp] theorem State.setCore_faulted (s : State) (c : CoreId) (k : CoreState) : (s.setCore c k).faulted = s.faulted := rfl
@[simp] theorem State.setCore_cycled (s : State) (c : CoreId) (k : CoreState) : (s.setCore c k).cycled = s.cycled := rfl
@[simp] theorem State.setCore_tested (s : State) (c : CoreId) (k : CoreState) : (s.setCore c k).tested = s.tested := rfl

/-! ## setPt -/

@[simp] theorem State.setPt_pending (s : State) (n : Fin 48) (p : PwmState) : (s.setPt n p).pending = s.pending := rfl
@[simp] theorem State.setPt_now (s : State) (n : Fin 48) (p : PwmState) : (s.setPt n p).now = s.now := rfl
@[simp] theorem State.setPt_free (s : State) (n : Fin 48) (p : PwmState) : (s.setPt n p).free = s.free := rfl
@[simp] theorem State.setPt_due (s : State) (n : Fin 48) (p : PwmState) : (s.setPt n p).due = s.due := rfl
@[simp] theorem State.setPt_regs (s : State) (n : Fin 48) (p : PwmState) : (s.setPt n p).regs = s.regs := rfl
@[simp] theorem State.setPt_hwSet (s : State) (n : Fin 48) (p : PwmState) : (s.setPt n p).hwSet = s.hwSet := rfl
@[simp] theorem State.setPt_wrote (s : State) (n : Fin 48) (p : PwmState) : (s.setPt n p).wrote = s.wrote := rfl
@[simp] theorem State.setPt_resp (s : State) (n : Fin 48) (p : PwmState) : (s.setPt n p).resp = s.resp := rfl
@[simp] theorem State.setPt_active (s : State) (n : Fin 48) (p : PwmState) : (s.setPt n p).active = s.active := rfl
@[simp] theorem State.setPt_shadow (s : State) (n : Fin 48) (p : PwmState) : (s.setPt n p).shadow = s.shadow := rfl
@[simp] theorem State.setPt_swapTick (s : State) (n : Fin 48) (p : PwmState) : (s.setPt n p).swapTick = s.swapTick := rfl
@[simp] theorem State.setPt_swapCut (s : State) (n : Fin 48) (p : PwmState) : (s.setPt n p).swapCut = s.swapCut := rfl
@[simp] theorem State.setPt_framePeriod (s : State) (n : Fin 48) (p : PwmState) : (s.setPt n p).framePeriod = s.framePeriod := rfl
@[simp] theorem State.setPt_lostAt (s : State) (n : Fin 48) (p : PwmState) : (s.setPt n p).lostAt = s.lostAt := rfl
@[simp] theorem State.setPt_tickOut (s : State) (n : Fin 48) (p : PwmState) : (s.setPt n p).tickOut = s.tickOut := rfl
@[simp] theorem State.setPt_markNum (s : State) (n : Fin 48) (p : PwmState) : (s.setPt n p).markNum = s.markNum := rfl
@[simp] theorem State.setPt_slewLeft (s : State) (n : Fin 48) (p : PwmState) : (s.setPt n p).slewLeft = s.slewLeft := rfl
@[simp] theorem State.setPt_otpLoaded (s : State) (n : Fin 48) (p : PwmState) : (s.setPt n p).otpLoaded = s.otpLoaded := rfl
@[simp] theorem State.setPt_ts64 (s : State) (n : Fin 48) (p : PwmState) : (s.setPt n p).ts64 = s.ts64 := rfl
@[simp] theorem State.setPt_snaps (s : State) (n : Fin 48) (p : PwmState) : (s.setPt n p).snaps = s.snaps := rfl
@[simp] theorem State.setPt_gts (s : State) (n : Fin 48) (p : PwmState) : (s.setPt n p).gts = s.gts := rfl
@[simp] theorem State.setPt_holdOvr (s : State) (n : Fin 48) (p : PwmState) : (s.setPt n p).holdOvr = s.holdOvr := rfl
@[simp] theorem State.setPt_holdNew (s : State) (n : Fin 48) (p : PwmState) : (s.setPt n p).holdNew = s.holdNew := rfl
@[simp] theorem State.setPt_holdRed (s : State) (n : Fin 48) (p : PwmState) : (s.setPt n p).holdRed = s.holdRed := rfl
@[simp] theorem State.setPt_holdRedNew (s : State) (n : Fin 48) (p : PwmState) : (s.setPt n p).holdRedNew = s.holdRedNew := rfl
@[simp] theorem State.setPt_holdPins (s : State) (n : Fin 48) (p : PwmState) : (s.setPt n p).holdPins = s.holdPins := rfl
@[simp] theorem State.setPt_adcs (s : State) (n : Fin 48) (p : PwmState) : (s.setPt n p).adcs = s.adcs := rfl
@[simp] theorem State.setPt_reliefs (s : State) (n : Fin 48) (p : PwmState) : (s.setPt n p).reliefs = s.reliefs := rfl
@[simp] theorem State.setPt_sds (s : State) (n : Fin 48) (p : PwmState) : (s.setPt n p).sds = s.sds := rfl
@[simp] theorem State.setPt_cmps (s : State) (n : Fin 48) (p : PwmState) : (s.setPt n p).cmps = s.cmps := rfl
@[simp] theorem State.setPt_fab (s : State) (n : Fin 48) (p : PwmState) : (s.setPt n p).fab = s.fab := rfl
@[simp] theorem State.setPt_cores (s : State) (n : Fin 48) (p : PwmState) : (s.setPt n p).cores = s.cores := rfl
@[simp] theorem State.setPt_pairs (s : State) (n : Fin 48) (p : PwmState) : (s.setPt n p).pairs = s.pairs := rfl
@[simp] theorem State.setPt_entering (s : State) (n : Fin 48) (p : PwmState) : (s.setPt n p).entering = s.entering := rfl
@[simp] theorem State.setPt_mem (s : State) (n : Fin 48) (p : PwmState) : (s.setPt n p).mem = s.mem := rfl
@[simp] theorem State.setPt_poison (s : State) (n : Fin 48) (p : PwmState) : (s.setPt n p).poison = s.poison := rfl
@[simp] theorem State.setPt_rebind (s : State) (n : Fin 48) (p : PwmState) : (s.setPt n p).rebind = s.rebind := rfl
@[simp] theorem State.setPt_ecc (s : State) (n : Fin 48) (p : PwmState) : (s.setPt n p).ecc = s.ecc := rfl
@[simp] theorem State.setPt_eccNew (s : State) (n : Fin 48) (p : PwmState) : (s.setPt n p).eccNew = s.eccNew := rfl
@[simp] theorem State.setPt_wbq (s : State) (n : Fin 48) (p : PwmState) : (s.setPt n p).wbq = s.wbq := rfl
@[simp] theorem State.setPt_remap (s : State) (n : Fin 48) (p : PwmState) : (s.setPt n p).remap = s.remap := rfl
@[simp] theorem State.setPt_collided (s : State) (n : Fin 48) (p : PwmState) : (s.setPt n p).collided = s.collided := rfl
@[simp] theorem State.setPt_dmas (s : State) (n : Fin 48) (p : PwmState) : (s.setPt n p).dmas = s.dmas := rfl
@[simp] theorem State.setPt_sparges (s : State) (n : Fin 48) (p : PwmState) : (s.setPt n p).sparges = s.sparges := rfl
@[simp] theorem State.setPt_flash (s : State) (n : Fin 48) (p : PwmState) : (s.setPt n p).flash = s.flash := rfl
@[simp] theorem State.setPt_flUndef (s : State) (n : Fin 48) (p : PwmState) : (s.setPt n p).flUndef = s.flUndef := rfl
@[simp] theorem State.setPt_flEcc (s : State) (n : Fin 48) (p : PwmState) : (s.setPt n p).flEcc = s.flEcc := rfl
@[simp] theorem State.setPt_flProg (s : State) (n : Fin 48) (p : PwmState) : (s.setPt n p).flProg = s.flProg := rfl
@[simp] theorem State.setPt_flBanks (s : State) (n : Fin 48) (p : PwmState) : (s.setPt n p).flBanks = s.flBanks := rfl
@[simp] theorem State.setPt_dfSecs (s : State) (n : Fin 48) (p : PwmState) : (s.setPt n p).dfSecs = s.dfSecs := rfl
@[simp] theorem State.setPt_dfQueue (s : State) (n : Fin 48) (p : PwmState) : (s.setPt n p).dfQueue = s.dfQueue := rfl
@[simp] theorem State.setPt_dfBg (s : State) (n : Fin 48) (p : PwmState) : (s.setPt n p).dfBg = s.dfBg := rfl
@[simp] theorem State.setPt_dfSeq (s : State) (n : Fin 48) (p : PwmState) : (s.setPt n p).dfSeq = s.dfSeq := rfl
@[simp] theorem State.setPt_dfTop (s : State) (n : Fin 48) (p : PwmState) : (s.setPt n p).dfTop = s.dfTop := rfl
@[simp] theorem State.setPt_prot (s : State) (n : Fin 48) (p : PwmState) : (s.setPt n p).prot = s.prot := rfl
@[simp] theorem State.setPt_protPend (s : State) (n : Fin 48) (p : PwmState) : (s.setPt n p).protPend = s.protPend := rfl
@[simp] theorem State.setPt_protNew (s : State) (n : Fin 48) (p : PwmState) : (s.setPt n p).protNew = s.protNew := rfl
@[simp] theorem State.setPt_otp (s : State) (n : Fin 48) (p : PwmState) : (s.setPt n p).otp = s.otp := rfl
@[simp] theorem State.setPt_otpOp (s : State) (n : Fin 48) (p : PwmState) : (s.setPt n p).otpOp = s.otpOp := rfl
@[simp] theorem State.setPt_pes (s : State) (n : Fin 48) (p : PwmState) : (s.setPt n p).pes = s.pes := rfl
@[simp] theorem State.setPt_pio (s : State) (n : Fin 48) (p : PwmState) : (s.setPt n p).pio = s.pio := rfl
@[simp] theorem State.setPt_oz (s : State) (n : Fin 48) (p : PwmState) : (s.setPt n p).oz = s.oz := rfl
@[simp] theorem State.setPt_links (s : State) (n : Fin 48) (p : PwmState) : (s.setPt n p).links = s.links := rfl
@[simp] theorem State.setPt_remotes (s : State) (n : Fin 48) (p : PwmState) : (s.setPt n p).remotes = s.remotes := rfl
@[simp] theorem State.setPt_stalls (s : State) (n : Fin 48) (p : PwmState) : (s.setPt n p).stalls = s.stalls := rfl
@[simp] theorem State.setPt_nextTag (s : State) (n : Fin 48) (p : PwmState) : (s.setPt n p).nextTag = s.nextTag := rfl
@[simp] theorem State.setPt_lkUsed (s : State) (n : Fin 48) (p : PwmState) : (s.setPt n p).lkUsed = s.lkUsed := rfl
@[simp] theorem State.setPt_lkAsk (s : State) (n : Fin 48) (p : PwmState) : (s.setPt n p).lkAsk = s.lkAsk := rfl
@[simp] theorem State.setPt_eths (s : State) (n : Fin 48) (p : PwmState) : (s.setPt n p).eths = s.eths := rfl
@[simp] theorem State.setPt_cans (s : State) (n : Fin 48) (p : PwmState) : (s.setPt n p).cans = s.cans := rfl
@[simp] theorem State.setPt_uarts (s : State) (n : Fin 48) (p : PwmState) : (s.setPt n p).uarts = s.uarts := rfl
@[simp] theorem State.setPt_boot (s : State) (n : Fin 48) (p : PwmState) : (s.setPt n p).boot = s.boot := rfl
@[simp] theorem State.setPt_jtag (s : State) (n : Fin 48) (p : PwmState) : (s.setPt n p).jtag = s.jtag := rfl
@[simp] theorem State.setPt_modeReq (s : State) (n : Fin 48) (p : PwmState) : (s.setPt n p).modeReq = s.modeReq := rfl
@[simp] theorem State.setPt_shDue (s : State) (n : Fin 48) (p : PwmState) : (s.setPt n p).shDue = s.shDue := rfl
@[simp] theorem State.setPt_offDue (s : State) (n : Fin 48) (p : PwmState) : (s.setPt n p).offDue = s.offDue := rfl
@[simp] theorem State.setPt_faultDue (s : State) (n : Fin 48) (p : PwmState) : (s.setPt n p).faultDue = s.faultDue := rfl
@[simp] theorem State.setPt_clkAt (s : State) (n : Fin 48) (p : PwmState) : (s.setPt n p).clkAt = s.clkAt := rfl
@[simp] theorem State.setPt_rateDue (s : State) (n : Fin 48) (p : PwmState) : (s.setPt n p).rateDue = s.rateDue := rfl
@[simp] theorem State.setPt_swfOwn (s : State) (n : Fin 48) (p : PwmState) : (s.setPt n p).swfOwn = s.swfOwn := rfl
@[simp] theorem State.setPt_bankWorld (s : State) (n : Fin 48) (p : PwmState) : (s.setPt n p).bankWorld = s.bankWorld := rfl
@[simp] theorem State.setPt_faulted (s : State) (n : Fin 48) (p : PwmState) : (s.setPt n p).faulted = s.faulted := rfl
@[simp] theorem State.setPt_cycled (s : State) (n : Fin 48) (p : PwmState) : (s.setPt n p).cycled = s.cycled := rfl
@[simp] theorem State.setPt_tested (s : State) (n : Fin 48) (p : PwmState) : (s.setPt n p).tested = s.tested := rfl

/-! ## setGt -/

@[simp] theorem State.setGt_pending (s : State) (n : Fin 32) (p : GtState) : (s.setGt n p).pending = s.pending := rfl
@[simp] theorem State.setGt_now (s : State) (n : Fin 32) (p : GtState) : (s.setGt n p).now = s.now := rfl
@[simp] theorem State.setGt_free (s : State) (n : Fin 32) (p : GtState) : (s.setGt n p).free = s.free := rfl
@[simp] theorem State.setGt_due (s : State) (n : Fin 32) (p : GtState) : (s.setGt n p).due = s.due := rfl
@[simp] theorem State.setGt_regs (s : State) (n : Fin 32) (p : GtState) : (s.setGt n p).regs = s.regs := rfl
@[simp] theorem State.setGt_hwSet (s : State) (n : Fin 32) (p : GtState) : (s.setGt n p).hwSet = s.hwSet := rfl
@[simp] theorem State.setGt_wrote (s : State) (n : Fin 32) (p : GtState) : (s.setGt n p).wrote = s.wrote := rfl
@[simp] theorem State.setGt_resp (s : State) (n : Fin 32) (p : GtState) : (s.setGt n p).resp = s.resp := rfl
@[simp] theorem State.setGt_active (s : State) (n : Fin 32) (p : GtState) : (s.setGt n p).active = s.active := rfl
@[simp] theorem State.setGt_shadow (s : State) (n : Fin 32) (p : GtState) : (s.setGt n p).shadow = s.shadow := rfl
@[simp] theorem State.setGt_swapTick (s : State) (n : Fin 32) (p : GtState) : (s.setGt n p).swapTick = s.swapTick := rfl
@[simp] theorem State.setGt_swapCut (s : State) (n : Fin 32) (p : GtState) : (s.setGt n p).swapCut = s.swapCut := rfl
@[simp] theorem State.setGt_framePeriod (s : State) (n : Fin 32) (p : GtState) : (s.setGt n p).framePeriod = s.framePeriod := rfl
@[simp] theorem State.setGt_lostAt (s : State) (n : Fin 32) (p : GtState) : (s.setGt n p).lostAt = s.lostAt := rfl
@[simp] theorem State.setGt_tickOut (s : State) (n : Fin 32) (p : GtState) : (s.setGt n p).tickOut = s.tickOut := rfl
@[simp] theorem State.setGt_markNum (s : State) (n : Fin 32) (p : GtState) : (s.setGt n p).markNum = s.markNum := rfl
@[simp] theorem State.setGt_slewLeft (s : State) (n : Fin 32) (p : GtState) : (s.setGt n p).slewLeft = s.slewLeft := rfl
@[simp] theorem State.setGt_otpLoaded (s : State) (n : Fin 32) (p : GtState) : (s.setGt n p).otpLoaded = s.otpLoaded := rfl
@[simp] theorem State.setGt_ts64 (s : State) (n : Fin 32) (p : GtState) : (s.setGt n p).ts64 = s.ts64 := rfl
@[simp] theorem State.setGt_snaps (s : State) (n : Fin 32) (p : GtState) : (s.setGt n p).snaps = s.snaps := rfl
@[simp] theorem State.setGt_pts (s : State) (n : Fin 32) (p : GtState) : (s.setGt n p).pts = s.pts := rfl
@[simp] theorem State.setGt_holdOvr (s : State) (n : Fin 32) (p : GtState) : (s.setGt n p).holdOvr = s.holdOvr := rfl
@[simp] theorem State.setGt_holdNew (s : State) (n : Fin 32) (p : GtState) : (s.setGt n p).holdNew = s.holdNew := rfl
@[simp] theorem State.setGt_holdRed (s : State) (n : Fin 32) (p : GtState) : (s.setGt n p).holdRed = s.holdRed := rfl
@[simp] theorem State.setGt_holdRedNew (s : State) (n : Fin 32) (p : GtState) : (s.setGt n p).holdRedNew = s.holdRedNew := rfl
@[simp] theorem State.setGt_holdPins (s : State) (n : Fin 32) (p : GtState) : (s.setGt n p).holdPins = s.holdPins := rfl
@[simp] theorem State.setGt_adcs (s : State) (n : Fin 32) (p : GtState) : (s.setGt n p).adcs = s.adcs := rfl
@[simp] theorem State.setGt_reliefs (s : State) (n : Fin 32) (p : GtState) : (s.setGt n p).reliefs = s.reliefs := rfl
@[simp] theorem State.setGt_sds (s : State) (n : Fin 32) (p : GtState) : (s.setGt n p).sds = s.sds := rfl
@[simp] theorem State.setGt_cmps (s : State) (n : Fin 32) (p : GtState) : (s.setGt n p).cmps = s.cmps := rfl
@[simp] theorem State.setGt_fab (s : State) (n : Fin 32) (p : GtState) : (s.setGt n p).fab = s.fab := rfl
@[simp] theorem State.setGt_cores (s : State) (n : Fin 32) (p : GtState) : (s.setGt n p).cores = s.cores := rfl
@[simp] theorem State.setGt_pairs (s : State) (n : Fin 32) (p : GtState) : (s.setGt n p).pairs = s.pairs := rfl
@[simp] theorem State.setGt_entering (s : State) (n : Fin 32) (p : GtState) : (s.setGt n p).entering = s.entering := rfl
@[simp] theorem State.setGt_mem (s : State) (n : Fin 32) (p : GtState) : (s.setGt n p).mem = s.mem := rfl
@[simp] theorem State.setGt_poison (s : State) (n : Fin 32) (p : GtState) : (s.setGt n p).poison = s.poison := rfl
@[simp] theorem State.setGt_rebind (s : State) (n : Fin 32) (p : GtState) : (s.setGt n p).rebind = s.rebind := rfl
@[simp] theorem State.setGt_ecc (s : State) (n : Fin 32) (p : GtState) : (s.setGt n p).ecc = s.ecc := rfl
@[simp] theorem State.setGt_eccNew (s : State) (n : Fin 32) (p : GtState) : (s.setGt n p).eccNew = s.eccNew := rfl
@[simp] theorem State.setGt_wbq (s : State) (n : Fin 32) (p : GtState) : (s.setGt n p).wbq = s.wbq := rfl
@[simp] theorem State.setGt_remap (s : State) (n : Fin 32) (p : GtState) : (s.setGt n p).remap = s.remap := rfl
@[simp] theorem State.setGt_collided (s : State) (n : Fin 32) (p : GtState) : (s.setGt n p).collided = s.collided := rfl
@[simp] theorem State.setGt_dmas (s : State) (n : Fin 32) (p : GtState) : (s.setGt n p).dmas = s.dmas := rfl
@[simp] theorem State.setGt_sparges (s : State) (n : Fin 32) (p : GtState) : (s.setGt n p).sparges = s.sparges := rfl
@[simp] theorem State.setGt_flash (s : State) (n : Fin 32) (p : GtState) : (s.setGt n p).flash = s.flash := rfl
@[simp] theorem State.setGt_flUndef (s : State) (n : Fin 32) (p : GtState) : (s.setGt n p).flUndef = s.flUndef := rfl
@[simp] theorem State.setGt_flEcc (s : State) (n : Fin 32) (p : GtState) : (s.setGt n p).flEcc = s.flEcc := rfl
@[simp] theorem State.setGt_flProg (s : State) (n : Fin 32) (p : GtState) : (s.setGt n p).flProg = s.flProg := rfl
@[simp] theorem State.setGt_flBanks (s : State) (n : Fin 32) (p : GtState) : (s.setGt n p).flBanks = s.flBanks := rfl
@[simp] theorem State.setGt_dfSecs (s : State) (n : Fin 32) (p : GtState) : (s.setGt n p).dfSecs = s.dfSecs := rfl
@[simp] theorem State.setGt_dfQueue (s : State) (n : Fin 32) (p : GtState) : (s.setGt n p).dfQueue = s.dfQueue := rfl
@[simp] theorem State.setGt_dfBg (s : State) (n : Fin 32) (p : GtState) : (s.setGt n p).dfBg = s.dfBg := rfl
@[simp] theorem State.setGt_dfSeq (s : State) (n : Fin 32) (p : GtState) : (s.setGt n p).dfSeq = s.dfSeq := rfl
@[simp] theorem State.setGt_dfTop (s : State) (n : Fin 32) (p : GtState) : (s.setGt n p).dfTop = s.dfTop := rfl
@[simp] theorem State.setGt_prot (s : State) (n : Fin 32) (p : GtState) : (s.setGt n p).prot = s.prot := rfl
@[simp] theorem State.setGt_protPend (s : State) (n : Fin 32) (p : GtState) : (s.setGt n p).protPend = s.protPend := rfl
@[simp] theorem State.setGt_protNew (s : State) (n : Fin 32) (p : GtState) : (s.setGt n p).protNew = s.protNew := rfl
@[simp] theorem State.setGt_otp (s : State) (n : Fin 32) (p : GtState) : (s.setGt n p).otp = s.otp := rfl
@[simp] theorem State.setGt_otpOp (s : State) (n : Fin 32) (p : GtState) : (s.setGt n p).otpOp = s.otpOp := rfl
@[simp] theorem State.setGt_pes (s : State) (n : Fin 32) (p : GtState) : (s.setGt n p).pes = s.pes := rfl
@[simp] theorem State.setGt_pio (s : State) (n : Fin 32) (p : GtState) : (s.setGt n p).pio = s.pio := rfl
@[simp] theorem State.setGt_oz (s : State) (n : Fin 32) (p : GtState) : (s.setGt n p).oz = s.oz := rfl
@[simp] theorem State.setGt_links (s : State) (n : Fin 32) (p : GtState) : (s.setGt n p).links = s.links := rfl
@[simp] theorem State.setGt_remotes (s : State) (n : Fin 32) (p : GtState) : (s.setGt n p).remotes = s.remotes := rfl
@[simp] theorem State.setGt_stalls (s : State) (n : Fin 32) (p : GtState) : (s.setGt n p).stalls = s.stalls := rfl
@[simp] theorem State.setGt_nextTag (s : State) (n : Fin 32) (p : GtState) : (s.setGt n p).nextTag = s.nextTag := rfl
@[simp] theorem State.setGt_lkUsed (s : State) (n : Fin 32) (p : GtState) : (s.setGt n p).lkUsed = s.lkUsed := rfl
@[simp] theorem State.setGt_lkAsk (s : State) (n : Fin 32) (p : GtState) : (s.setGt n p).lkAsk = s.lkAsk := rfl
@[simp] theorem State.setGt_eths (s : State) (n : Fin 32) (p : GtState) : (s.setGt n p).eths = s.eths := rfl
@[simp] theorem State.setGt_cans (s : State) (n : Fin 32) (p : GtState) : (s.setGt n p).cans = s.cans := rfl
@[simp] theorem State.setGt_uarts (s : State) (n : Fin 32) (p : GtState) : (s.setGt n p).uarts = s.uarts := rfl
@[simp] theorem State.setGt_boot (s : State) (n : Fin 32) (p : GtState) : (s.setGt n p).boot = s.boot := rfl
@[simp] theorem State.setGt_jtag (s : State) (n : Fin 32) (p : GtState) : (s.setGt n p).jtag = s.jtag := rfl
@[simp] theorem State.setGt_modeReq (s : State) (n : Fin 32) (p : GtState) : (s.setGt n p).modeReq = s.modeReq := rfl
@[simp] theorem State.setGt_shDue (s : State) (n : Fin 32) (p : GtState) : (s.setGt n p).shDue = s.shDue := rfl
@[simp] theorem State.setGt_offDue (s : State) (n : Fin 32) (p : GtState) : (s.setGt n p).offDue = s.offDue := rfl
@[simp] theorem State.setGt_faultDue (s : State) (n : Fin 32) (p : GtState) : (s.setGt n p).faultDue = s.faultDue := rfl
@[simp] theorem State.setGt_clkAt (s : State) (n : Fin 32) (p : GtState) : (s.setGt n p).clkAt = s.clkAt := rfl
@[simp] theorem State.setGt_rateDue (s : State) (n : Fin 32) (p : GtState) : (s.setGt n p).rateDue = s.rateDue := rfl
@[simp] theorem State.setGt_swfOwn (s : State) (n : Fin 32) (p : GtState) : (s.setGt n p).swfOwn = s.swfOwn := rfl
@[simp] theorem State.setGt_bankWorld (s : State) (n : Fin 32) (p : GtState) : (s.setGt n p).bankWorld = s.bankWorld := rfl
@[simp] theorem State.setGt_faulted (s : State) (n : Fin 32) (p : GtState) : (s.setGt n p).faulted = s.faulted := rfl
@[simp] theorem State.setGt_cycled (s : State) (n : Fin 32) (p : GtState) : (s.setGt n p).cycled = s.cycled := rfl
@[simp] theorem State.setGt_tested (s : State) (n : Fin 32) (p : GtState) : (s.setGt n p).tested = s.tested := rfl

/-! ## setAdc -/

@[simp] theorem State.setAdc_pending (s : State) (n : Fin 16) (p : AdcState) : (s.setAdc n p).pending = s.pending := rfl
@[simp] theorem State.setAdc_now (s : State) (n : Fin 16) (p : AdcState) : (s.setAdc n p).now = s.now := rfl
@[simp] theorem State.setAdc_free (s : State) (n : Fin 16) (p : AdcState) : (s.setAdc n p).free = s.free := rfl
@[simp] theorem State.setAdc_due (s : State) (n : Fin 16) (p : AdcState) : (s.setAdc n p).due = s.due := rfl
@[simp] theorem State.setAdc_regs (s : State) (n : Fin 16) (p : AdcState) : (s.setAdc n p).regs = s.regs := rfl
@[simp] theorem State.setAdc_hwSet (s : State) (n : Fin 16) (p : AdcState) : (s.setAdc n p).hwSet = s.hwSet := rfl
@[simp] theorem State.setAdc_wrote (s : State) (n : Fin 16) (p : AdcState) : (s.setAdc n p).wrote = s.wrote := rfl
@[simp] theorem State.setAdc_resp (s : State) (n : Fin 16) (p : AdcState) : (s.setAdc n p).resp = s.resp := rfl
@[simp] theorem State.setAdc_active (s : State) (n : Fin 16) (p : AdcState) : (s.setAdc n p).active = s.active := rfl
@[simp] theorem State.setAdc_shadow (s : State) (n : Fin 16) (p : AdcState) : (s.setAdc n p).shadow = s.shadow := rfl
@[simp] theorem State.setAdc_swapTick (s : State) (n : Fin 16) (p : AdcState) : (s.setAdc n p).swapTick = s.swapTick := rfl
@[simp] theorem State.setAdc_swapCut (s : State) (n : Fin 16) (p : AdcState) : (s.setAdc n p).swapCut = s.swapCut := rfl
@[simp] theorem State.setAdc_framePeriod (s : State) (n : Fin 16) (p : AdcState) : (s.setAdc n p).framePeriod = s.framePeriod := rfl
@[simp] theorem State.setAdc_lostAt (s : State) (n : Fin 16) (p : AdcState) : (s.setAdc n p).lostAt = s.lostAt := rfl
@[simp] theorem State.setAdc_tickOut (s : State) (n : Fin 16) (p : AdcState) : (s.setAdc n p).tickOut = s.tickOut := rfl
@[simp] theorem State.setAdc_markNum (s : State) (n : Fin 16) (p : AdcState) : (s.setAdc n p).markNum = s.markNum := rfl
@[simp] theorem State.setAdc_slewLeft (s : State) (n : Fin 16) (p : AdcState) : (s.setAdc n p).slewLeft = s.slewLeft := rfl
@[simp] theorem State.setAdc_otpLoaded (s : State) (n : Fin 16) (p : AdcState) : (s.setAdc n p).otpLoaded = s.otpLoaded := rfl
@[simp] theorem State.setAdc_ts64 (s : State) (n : Fin 16) (p : AdcState) : (s.setAdc n p).ts64 = s.ts64 := rfl
@[simp] theorem State.setAdc_snaps (s : State) (n : Fin 16) (p : AdcState) : (s.setAdc n p).snaps = s.snaps := rfl
@[simp] theorem State.setAdc_pts (s : State) (n : Fin 16) (p : AdcState) : (s.setAdc n p).pts = s.pts := rfl
@[simp] theorem State.setAdc_gts (s : State) (n : Fin 16) (p : AdcState) : (s.setAdc n p).gts = s.gts := rfl
@[simp] theorem State.setAdc_holdOvr (s : State) (n : Fin 16) (p : AdcState) : (s.setAdc n p).holdOvr = s.holdOvr := rfl
@[simp] theorem State.setAdc_holdNew (s : State) (n : Fin 16) (p : AdcState) : (s.setAdc n p).holdNew = s.holdNew := rfl
@[simp] theorem State.setAdc_holdRed (s : State) (n : Fin 16) (p : AdcState) : (s.setAdc n p).holdRed = s.holdRed := rfl
@[simp] theorem State.setAdc_holdRedNew (s : State) (n : Fin 16) (p : AdcState) : (s.setAdc n p).holdRedNew = s.holdRedNew := rfl
@[simp] theorem State.setAdc_holdPins (s : State) (n : Fin 16) (p : AdcState) : (s.setAdc n p).holdPins = s.holdPins := rfl
@[simp] theorem State.setAdc_reliefs (s : State) (n : Fin 16) (p : AdcState) : (s.setAdc n p).reliefs = s.reliefs := rfl
@[simp] theorem State.setAdc_sds (s : State) (n : Fin 16) (p : AdcState) : (s.setAdc n p).sds = s.sds := rfl
@[simp] theorem State.setAdc_cmps (s : State) (n : Fin 16) (p : AdcState) : (s.setAdc n p).cmps = s.cmps := rfl
@[simp] theorem State.setAdc_fab (s : State) (n : Fin 16) (p : AdcState) : (s.setAdc n p).fab = s.fab := rfl
@[simp] theorem State.setAdc_cores (s : State) (n : Fin 16) (p : AdcState) : (s.setAdc n p).cores = s.cores := rfl
@[simp] theorem State.setAdc_pairs (s : State) (n : Fin 16) (p : AdcState) : (s.setAdc n p).pairs = s.pairs := rfl
@[simp] theorem State.setAdc_entering (s : State) (n : Fin 16) (p : AdcState) : (s.setAdc n p).entering = s.entering := rfl
@[simp] theorem State.setAdc_mem (s : State) (n : Fin 16) (p : AdcState) : (s.setAdc n p).mem = s.mem := rfl
@[simp] theorem State.setAdc_poison (s : State) (n : Fin 16) (p : AdcState) : (s.setAdc n p).poison = s.poison := rfl
@[simp] theorem State.setAdc_rebind (s : State) (n : Fin 16) (p : AdcState) : (s.setAdc n p).rebind = s.rebind := rfl
@[simp] theorem State.setAdc_ecc (s : State) (n : Fin 16) (p : AdcState) : (s.setAdc n p).ecc = s.ecc := rfl
@[simp] theorem State.setAdc_eccNew (s : State) (n : Fin 16) (p : AdcState) : (s.setAdc n p).eccNew = s.eccNew := rfl
@[simp] theorem State.setAdc_wbq (s : State) (n : Fin 16) (p : AdcState) : (s.setAdc n p).wbq = s.wbq := rfl
@[simp] theorem State.setAdc_remap (s : State) (n : Fin 16) (p : AdcState) : (s.setAdc n p).remap = s.remap := rfl
@[simp] theorem State.setAdc_collided (s : State) (n : Fin 16) (p : AdcState) : (s.setAdc n p).collided = s.collided := rfl
@[simp] theorem State.setAdc_dmas (s : State) (n : Fin 16) (p : AdcState) : (s.setAdc n p).dmas = s.dmas := rfl
@[simp] theorem State.setAdc_sparges (s : State) (n : Fin 16) (p : AdcState) : (s.setAdc n p).sparges = s.sparges := rfl
@[simp] theorem State.setAdc_flash (s : State) (n : Fin 16) (p : AdcState) : (s.setAdc n p).flash = s.flash := rfl
@[simp] theorem State.setAdc_flUndef (s : State) (n : Fin 16) (p : AdcState) : (s.setAdc n p).flUndef = s.flUndef := rfl
@[simp] theorem State.setAdc_flEcc (s : State) (n : Fin 16) (p : AdcState) : (s.setAdc n p).flEcc = s.flEcc := rfl
@[simp] theorem State.setAdc_flProg (s : State) (n : Fin 16) (p : AdcState) : (s.setAdc n p).flProg = s.flProg := rfl
@[simp] theorem State.setAdc_flBanks (s : State) (n : Fin 16) (p : AdcState) : (s.setAdc n p).flBanks = s.flBanks := rfl
@[simp] theorem State.setAdc_dfSecs (s : State) (n : Fin 16) (p : AdcState) : (s.setAdc n p).dfSecs = s.dfSecs := rfl
@[simp] theorem State.setAdc_dfQueue (s : State) (n : Fin 16) (p : AdcState) : (s.setAdc n p).dfQueue = s.dfQueue := rfl
@[simp] theorem State.setAdc_dfBg (s : State) (n : Fin 16) (p : AdcState) : (s.setAdc n p).dfBg = s.dfBg := rfl
@[simp] theorem State.setAdc_dfSeq (s : State) (n : Fin 16) (p : AdcState) : (s.setAdc n p).dfSeq = s.dfSeq := rfl
@[simp] theorem State.setAdc_dfTop (s : State) (n : Fin 16) (p : AdcState) : (s.setAdc n p).dfTop = s.dfTop := rfl
@[simp] theorem State.setAdc_prot (s : State) (n : Fin 16) (p : AdcState) : (s.setAdc n p).prot = s.prot := rfl
@[simp] theorem State.setAdc_protPend (s : State) (n : Fin 16) (p : AdcState) : (s.setAdc n p).protPend = s.protPend := rfl
@[simp] theorem State.setAdc_protNew (s : State) (n : Fin 16) (p : AdcState) : (s.setAdc n p).protNew = s.protNew := rfl
@[simp] theorem State.setAdc_otp (s : State) (n : Fin 16) (p : AdcState) : (s.setAdc n p).otp = s.otp := rfl
@[simp] theorem State.setAdc_otpOp (s : State) (n : Fin 16) (p : AdcState) : (s.setAdc n p).otpOp = s.otpOp := rfl
@[simp] theorem State.setAdc_pes (s : State) (n : Fin 16) (p : AdcState) : (s.setAdc n p).pes = s.pes := rfl
@[simp] theorem State.setAdc_pio (s : State) (n : Fin 16) (p : AdcState) : (s.setAdc n p).pio = s.pio := rfl
@[simp] theorem State.setAdc_oz (s : State) (n : Fin 16) (p : AdcState) : (s.setAdc n p).oz = s.oz := rfl
@[simp] theorem State.setAdc_links (s : State) (n : Fin 16) (p : AdcState) : (s.setAdc n p).links = s.links := rfl
@[simp] theorem State.setAdc_remotes (s : State) (n : Fin 16) (p : AdcState) : (s.setAdc n p).remotes = s.remotes := rfl
@[simp] theorem State.setAdc_stalls (s : State) (n : Fin 16) (p : AdcState) : (s.setAdc n p).stalls = s.stalls := rfl
@[simp] theorem State.setAdc_nextTag (s : State) (n : Fin 16) (p : AdcState) : (s.setAdc n p).nextTag = s.nextTag := rfl
@[simp] theorem State.setAdc_lkUsed (s : State) (n : Fin 16) (p : AdcState) : (s.setAdc n p).lkUsed = s.lkUsed := rfl
@[simp] theorem State.setAdc_lkAsk (s : State) (n : Fin 16) (p : AdcState) : (s.setAdc n p).lkAsk = s.lkAsk := rfl
@[simp] theorem State.setAdc_eths (s : State) (n : Fin 16) (p : AdcState) : (s.setAdc n p).eths = s.eths := rfl
@[simp] theorem State.setAdc_cans (s : State) (n : Fin 16) (p : AdcState) : (s.setAdc n p).cans = s.cans := rfl
@[simp] theorem State.setAdc_uarts (s : State) (n : Fin 16) (p : AdcState) : (s.setAdc n p).uarts = s.uarts := rfl
@[simp] theorem State.setAdc_boot (s : State) (n : Fin 16) (p : AdcState) : (s.setAdc n p).boot = s.boot := rfl
@[simp] theorem State.setAdc_jtag (s : State) (n : Fin 16) (p : AdcState) : (s.setAdc n p).jtag = s.jtag := rfl
@[simp] theorem State.setAdc_modeReq (s : State) (n : Fin 16) (p : AdcState) : (s.setAdc n p).modeReq = s.modeReq := rfl
@[simp] theorem State.setAdc_shDue (s : State) (n : Fin 16) (p : AdcState) : (s.setAdc n p).shDue = s.shDue := rfl
@[simp] theorem State.setAdc_offDue (s : State) (n : Fin 16) (p : AdcState) : (s.setAdc n p).offDue = s.offDue := rfl
@[simp] theorem State.setAdc_faultDue (s : State) (n : Fin 16) (p : AdcState) : (s.setAdc n p).faultDue = s.faultDue := rfl
@[simp] theorem State.setAdc_clkAt (s : State) (n : Fin 16) (p : AdcState) : (s.setAdc n p).clkAt = s.clkAt := rfl
@[simp] theorem State.setAdc_rateDue (s : State) (n : Fin 16) (p : AdcState) : (s.setAdc n p).rateDue = s.rateDue := rfl
@[simp] theorem State.setAdc_swfOwn (s : State) (n : Fin 16) (p : AdcState) : (s.setAdc n p).swfOwn = s.swfOwn := rfl
@[simp] theorem State.setAdc_bankWorld (s : State) (n : Fin 16) (p : AdcState) : (s.setAdc n p).bankWorld = s.bankWorld := rfl
@[simp] theorem State.setAdc_faulted (s : State) (n : Fin 16) (p : AdcState) : (s.setAdc n p).faulted = s.faulted := rfl
@[simp] theorem State.setAdc_cycled (s : State) (n : Fin 16) (p : AdcState) : (s.setAdc n p).cycled = s.cycled := rfl
@[simp] theorem State.setAdc_tested (s : State) (n : Fin 16) (p : AdcState) : (s.setAdc n p).tested = s.tested := rfl

/-! ## setRelief -/

@[simp] theorem State.setRelief_pending (s : State) (n : Fin 2) (p : ReliefState) : (s.setRelief n p).pending = s.pending := rfl
@[simp] theorem State.setRelief_now (s : State) (n : Fin 2) (p : ReliefState) : (s.setRelief n p).now = s.now := rfl
@[simp] theorem State.setRelief_free (s : State) (n : Fin 2) (p : ReliefState) : (s.setRelief n p).free = s.free := rfl
@[simp] theorem State.setRelief_due (s : State) (n : Fin 2) (p : ReliefState) : (s.setRelief n p).due = s.due := rfl
@[simp] theorem State.setRelief_regs (s : State) (n : Fin 2) (p : ReliefState) : (s.setRelief n p).regs = s.regs := rfl
@[simp] theorem State.setRelief_hwSet (s : State) (n : Fin 2) (p : ReliefState) : (s.setRelief n p).hwSet = s.hwSet := rfl
@[simp] theorem State.setRelief_wrote (s : State) (n : Fin 2) (p : ReliefState) : (s.setRelief n p).wrote = s.wrote := rfl
@[simp] theorem State.setRelief_resp (s : State) (n : Fin 2) (p : ReliefState) : (s.setRelief n p).resp = s.resp := rfl
@[simp] theorem State.setRelief_active (s : State) (n : Fin 2) (p : ReliefState) : (s.setRelief n p).active = s.active := rfl
@[simp] theorem State.setRelief_shadow (s : State) (n : Fin 2) (p : ReliefState) : (s.setRelief n p).shadow = s.shadow := rfl
@[simp] theorem State.setRelief_swapTick (s : State) (n : Fin 2) (p : ReliefState) : (s.setRelief n p).swapTick = s.swapTick := rfl
@[simp] theorem State.setRelief_swapCut (s : State) (n : Fin 2) (p : ReliefState) : (s.setRelief n p).swapCut = s.swapCut := rfl
@[simp] theorem State.setRelief_framePeriod (s : State) (n : Fin 2) (p : ReliefState) : (s.setRelief n p).framePeriod = s.framePeriod := rfl
@[simp] theorem State.setRelief_lostAt (s : State) (n : Fin 2) (p : ReliefState) : (s.setRelief n p).lostAt = s.lostAt := rfl
@[simp] theorem State.setRelief_tickOut (s : State) (n : Fin 2) (p : ReliefState) : (s.setRelief n p).tickOut = s.tickOut := rfl
@[simp] theorem State.setRelief_markNum (s : State) (n : Fin 2) (p : ReliefState) : (s.setRelief n p).markNum = s.markNum := rfl
@[simp] theorem State.setRelief_slewLeft (s : State) (n : Fin 2) (p : ReliefState) : (s.setRelief n p).slewLeft = s.slewLeft := rfl
@[simp] theorem State.setRelief_otpLoaded (s : State) (n : Fin 2) (p : ReliefState) : (s.setRelief n p).otpLoaded = s.otpLoaded := rfl
@[simp] theorem State.setRelief_ts64 (s : State) (n : Fin 2) (p : ReliefState) : (s.setRelief n p).ts64 = s.ts64 := rfl
@[simp] theorem State.setRelief_snaps (s : State) (n : Fin 2) (p : ReliefState) : (s.setRelief n p).snaps = s.snaps := rfl
@[simp] theorem State.setRelief_pts (s : State) (n : Fin 2) (p : ReliefState) : (s.setRelief n p).pts = s.pts := rfl
@[simp] theorem State.setRelief_gts (s : State) (n : Fin 2) (p : ReliefState) : (s.setRelief n p).gts = s.gts := rfl
@[simp] theorem State.setRelief_holdOvr (s : State) (n : Fin 2) (p : ReliefState) : (s.setRelief n p).holdOvr = s.holdOvr := rfl
@[simp] theorem State.setRelief_holdNew (s : State) (n : Fin 2) (p : ReliefState) : (s.setRelief n p).holdNew = s.holdNew := rfl
@[simp] theorem State.setRelief_holdRed (s : State) (n : Fin 2) (p : ReliefState) : (s.setRelief n p).holdRed = s.holdRed := rfl
@[simp] theorem State.setRelief_holdRedNew (s : State) (n : Fin 2) (p : ReliefState) : (s.setRelief n p).holdRedNew = s.holdRedNew := rfl
@[simp] theorem State.setRelief_holdPins (s : State) (n : Fin 2) (p : ReliefState) : (s.setRelief n p).holdPins = s.holdPins := rfl
@[simp] theorem State.setRelief_adcs (s : State) (n : Fin 2) (p : ReliefState) : (s.setRelief n p).adcs = s.adcs := rfl
@[simp] theorem State.setRelief_sds (s : State) (n : Fin 2) (p : ReliefState) : (s.setRelief n p).sds = s.sds := rfl
@[simp] theorem State.setRelief_cmps (s : State) (n : Fin 2) (p : ReliefState) : (s.setRelief n p).cmps = s.cmps := rfl
@[simp] theorem State.setRelief_fab (s : State) (n : Fin 2) (p : ReliefState) : (s.setRelief n p).fab = s.fab := rfl
@[simp] theorem State.setRelief_cores (s : State) (n : Fin 2) (p : ReliefState) : (s.setRelief n p).cores = s.cores := rfl
@[simp] theorem State.setRelief_pairs (s : State) (n : Fin 2) (p : ReliefState) : (s.setRelief n p).pairs = s.pairs := rfl
@[simp] theorem State.setRelief_entering (s : State) (n : Fin 2) (p : ReliefState) : (s.setRelief n p).entering = s.entering := rfl
@[simp] theorem State.setRelief_mem (s : State) (n : Fin 2) (p : ReliefState) : (s.setRelief n p).mem = s.mem := rfl
@[simp] theorem State.setRelief_poison (s : State) (n : Fin 2) (p : ReliefState) : (s.setRelief n p).poison = s.poison := rfl
@[simp] theorem State.setRelief_rebind (s : State) (n : Fin 2) (p : ReliefState) : (s.setRelief n p).rebind = s.rebind := rfl
@[simp] theorem State.setRelief_ecc (s : State) (n : Fin 2) (p : ReliefState) : (s.setRelief n p).ecc = s.ecc := rfl
@[simp] theorem State.setRelief_eccNew (s : State) (n : Fin 2) (p : ReliefState) : (s.setRelief n p).eccNew = s.eccNew := rfl
@[simp] theorem State.setRelief_wbq (s : State) (n : Fin 2) (p : ReliefState) : (s.setRelief n p).wbq = s.wbq := rfl
@[simp] theorem State.setRelief_remap (s : State) (n : Fin 2) (p : ReliefState) : (s.setRelief n p).remap = s.remap := rfl
@[simp] theorem State.setRelief_collided (s : State) (n : Fin 2) (p : ReliefState) : (s.setRelief n p).collided = s.collided := rfl
@[simp] theorem State.setRelief_dmas (s : State) (n : Fin 2) (p : ReliefState) : (s.setRelief n p).dmas = s.dmas := rfl
@[simp] theorem State.setRelief_sparges (s : State) (n : Fin 2) (p : ReliefState) : (s.setRelief n p).sparges = s.sparges := rfl
@[simp] theorem State.setRelief_flash (s : State) (n : Fin 2) (p : ReliefState) : (s.setRelief n p).flash = s.flash := rfl
@[simp] theorem State.setRelief_flUndef (s : State) (n : Fin 2) (p : ReliefState) : (s.setRelief n p).flUndef = s.flUndef := rfl
@[simp] theorem State.setRelief_flEcc (s : State) (n : Fin 2) (p : ReliefState) : (s.setRelief n p).flEcc = s.flEcc := rfl
@[simp] theorem State.setRelief_flProg (s : State) (n : Fin 2) (p : ReliefState) : (s.setRelief n p).flProg = s.flProg := rfl
@[simp] theorem State.setRelief_flBanks (s : State) (n : Fin 2) (p : ReliefState) : (s.setRelief n p).flBanks = s.flBanks := rfl
@[simp] theorem State.setRelief_dfSecs (s : State) (n : Fin 2) (p : ReliefState) : (s.setRelief n p).dfSecs = s.dfSecs := rfl
@[simp] theorem State.setRelief_dfQueue (s : State) (n : Fin 2) (p : ReliefState) : (s.setRelief n p).dfQueue = s.dfQueue := rfl
@[simp] theorem State.setRelief_dfBg (s : State) (n : Fin 2) (p : ReliefState) : (s.setRelief n p).dfBg = s.dfBg := rfl
@[simp] theorem State.setRelief_dfSeq (s : State) (n : Fin 2) (p : ReliefState) : (s.setRelief n p).dfSeq = s.dfSeq := rfl
@[simp] theorem State.setRelief_dfTop (s : State) (n : Fin 2) (p : ReliefState) : (s.setRelief n p).dfTop = s.dfTop := rfl
@[simp] theorem State.setRelief_prot (s : State) (n : Fin 2) (p : ReliefState) : (s.setRelief n p).prot = s.prot := rfl
@[simp] theorem State.setRelief_protPend (s : State) (n : Fin 2) (p : ReliefState) : (s.setRelief n p).protPend = s.protPend := rfl
@[simp] theorem State.setRelief_protNew (s : State) (n : Fin 2) (p : ReliefState) : (s.setRelief n p).protNew = s.protNew := rfl
@[simp] theorem State.setRelief_otp (s : State) (n : Fin 2) (p : ReliefState) : (s.setRelief n p).otp = s.otp := rfl
@[simp] theorem State.setRelief_otpOp (s : State) (n : Fin 2) (p : ReliefState) : (s.setRelief n p).otpOp = s.otpOp := rfl
@[simp] theorem State.setRelief_pes (s : State) (n : Fin 2) (p : ReliefState) : (s.setRelief n p).pes = s.pes := rfl
@[simp] theorem State.setRelief_pio (s : State) (n : Fin 2) (p : ReliefState) : (s.setRelief n p).pio = s.pio := rfl
@[simp] theorem State.setRelief_oz (s : State) (n : Fin 2) (p : ReliefState) : (s.setRelief n p).oz = s.oz := rfl
@[simp] theorem State.setRelief_links (s : State) (n : Fin 2) (p : ReliefState) : (s.setRelief n p).links = s.links := rfl
@[simp] theorem State.setRelief_remotes (s : State) (n : Fin 2) (p : ReliefState) : (s.setRelief n p).remotes = s.remotes := rfl
@[simp] theorem State.setRelief_stalls (s : State) (n : Fin 2) (p : ReliefState) : (s.setRelief n p).stalls = s.stalls := rfl
@[simp] theorem State.setRelief_nextTag (s : State) (n : Fin 2) (p : ReliefState) : (s.setRelief n p).nextTag = s.nextTag := rfl
@[simp] theorem State.setRelief_lkUsed (s : State) (n : Fin 2) (p : ReliefState) : (s.setRelief n p).lkUsed = s.lkUsed := rfl
@[simp] theorem State.setRelief_lkAsk (s : State) (n : Fin 2) (p : ReliefState) : (s.setRelief n p).lkAsk = s.lkAsk := rfl
@[simp] theorem State.setRelief_eths (s : State) (n : Fin 2) (p : ReliefState) : (s.setRelief n p).eths = s.eths := rfl
@[simp] theorem State.setRelief_cans (s : State) (n : Fin 2) (p : ReliefState) : (s.setRelief n p).cans = s.cans := rfl
@[simp] theorem State.setRelief_uarts (s : State) (n : Fin 2) (p : ReliefState) : (s.setRelief n p).uarts = s.uarts := rfl
@[simp] theorem State.setRelief_boot (s : State) (n : Fin 2) (p : ReliefState) : (s.setRelief n p).boot = s.boot := rfl
@[simp] theorem State.setRelief_jtag (s : State) (n : Fin 2) (p : ReliefState) : (s.setRelief n p).jtag = s.jtag := rfl
@[simp] theorem State.setRelief_modeReq (s : State) (n : Fin 2) (p : ReliefState) : (s.setRelief n p).modeReq = s.modeReq := rfl
@[simp] theorem State.setRelief_shDue (s : State) (n : Fin 2) (p : ReliefState) : (s.setRelief n p).shDue = s.shDue := rfl
@[simp] theorem State.setRelief_offDue (s : State) (n : Fin 2) (p : ReliefState) : (s.setRelief n p).offDue = s.offDue := rfl
@[simp] theorem State.setRelief_faultDue (s : State) (n : Fin 2) (p : ReliefState) : (s.setRelief n p).faultDue = s.faultDue := rfl
@[simp] theorem State.setRelief_clkAt (s : State) (n : Fin 2) (p : ReliefState) : (s.setRelief n p).clkAt = s.clkAt := rfl
@[simp] theorem State.setRelief_rateDue (s : State) (n : Fin 2) (p : ReliefState) : (s.setRelief n p).rateDue = s.rateDue := rfl
@[simp] theorem State.setRelief_swfOwn (s : State) (n : Fin 2) (p : ReliefState) : (s.setRelief n p).swfOwn = s.swfOwn := rfl
@[simp] theorem State.setRelief_bankWorld (s : State) (n : Fin 2) (p : ReliefState) : (s.setRelief n p).bankWorld = s.bankWorld := rfl
@[simp] theorem State.setRelief_faulted (s : State) (n : Fin 2) (p : ReliefState) : (s.setRelief n p).faulted = s.faulted := rfl
@[simp] theorem State.setRelief_cycled (s : State) (n : Fin 2) (p : ReliefState) : (s.setRelief n p).cycled = s.cycled := rfl
@[simp] theorem State.setRelief_tested (s : State) (n : Fin 2) (p : ReliefState) : (s.setRelief n p).tested = s.tested := rfl

/-! ## setSd -/

@[simp] theorem State.setSd_pending (s : State) (n : Fin 8) (p : SdState) : (s.setSd n p).pending = s.pending := rfl
@[simp] theorem State.setSd_now (s : State) (n : Fin 8) (p : SdState) : (s.setSd n p).now = s.now := rfl
@[simp] theorem State.setSd_free (s : State) (n : Fin 8) (p : SdState) : (s.setSd n p).free = s.free := rfl
@[simp] theorem State.setSd_due (s : State) (n : Fin 8) (p : SdState) : (s.setSd n p).due = s.due := rfl
@[simp] theorem State.setSd_regs (s : State) (n : Fin 8) (p : SdState) : (s.setSd n p).regs = s.regs := rfl
@[simp] theorem State.setSd_hwSet (s : State) (n : Fin 8) (p : SdState) : (s.setSd n p).hwSet = s.hwSet := rfl
@[simp] theorem State.setSd_wrote (s : State) (n : Fin 8) (p : SdState) : (s.setSd n p).wrote = s.wrote := rfl
@[simp] theorem State.setSd_resp (s : State) (n : Fin 8) (p : SdState) : (s.setSd n p).resp = s.resp := rfl
@[simp] theorem State.setSd_active (s : State) (n : Fin 8) (p : SdState) : (s.setSd n p).active = s.active := rfl
@[simp] theorem State.setSd_shadow (s : State) (n : Fin 8) (p : SdState) : (s.setSd n p).shadow = s.shadow := rfl
@[simp] theorem State.setSd_swapTick (s : State) (n : Fin 8) (p : SdState) : (s.setSd n p).swapTick = s.swapTick := rfl
@[simp] theorem State.setSd_swapCut (s : State) (n : Fin 8) (p : SdState) : (s.setSd n p).swapCut = s.swapCut := rfl
@[simp] theorem State.setSd_framePeriod (s : State) (n : Fin 8) (p : SdState) : (s.setSd n p).framePeriod = s.framePeriod := rfl
@[simp] theorem State.setSd_lostAt (s : State) (n : Fin 8) (p : SdState) : (s.setSd n p).lostAt = s.lostAt := rfl
@[simp] theorem State.setSd_tickOut (s : State) (n : Fin 8) (p : SdState) : (s.setSd n p).tickOut = s.tickOut := rfl
@[simp] theorem State.setSd_markNum (s : State) (n : Fin 8) (p : SdState) : (s.setSd n p).markNum = s.markNum := rfl
@[simp] theorem State.setSd_slewLeft (s : State) (n : Fin 8) (p : SdState) : (s.setSd n p).slewLeft = s.slewLeft := rfl
@[simp] theorem State.setSd_otpLoaded (s : State) (n : Fin 8) (p : SdState) : (s.setSd n p).otpLoaded = s.otpLoaded := rfl
@[simp] theorem State.setSd_ts64 (s : State) (n : Fin 8) (p : SdState) : (s.setSd n p).ts64 = s.ts64 := rfl
@[simp] theorem State.setSd_snaps (s : State) (n : Fin 8) (p : SdState) : (s.setSd n p).snaps = s.snaps := rfl
@[simp] theorem State.setSd_pts (s : State) (n : Fin 8) (p : SdState) : (s.setSd n p).pts = s.pts := rfl
@[simp] theorem State.setSd_gts (s : State) (n : Fin 8) (p : SdState) : (s.setSd n p).gts = s.gts := rfl
@[simp] theorem State.setSd_holdOvr (s : State) (n : Fin 8) (p : SdState) : (s.setSd n p).holdOvr = s.holdOvr := rfl
@[simp] theorem State.setSd_holdNew (s : State) (n : Fin 8) (p : SdState) : (s.setSd n p).holdNew = s.holdNew := rfl
@[simp] theorem State.setSd_holdRed (s : State) (n : Fin 8) (p : SdState) : (s.setSd n p).holdRed = s.holdRed := rfl
@[simp] theorem State.setSd_holdRedNew (s : State) (n : Fin 8) (p : SdState) : (s.setSd n p).holdRedNew = s.holdRedNew := rfl
@[simp] theorem State.setSd_holdPins (s : State) (n : Fin 8) (p : SdState) : (s.setSd n p).holdPins = s.holdPins := rfl
@[simp] theorem State.setSd_adcs (s : State) (n : Fin 8) (p : SdState) : (s.setSd n p).adcs = s.adcs := rfl
@[simp] theorem State.setSd_reliefs (s : State) (n : Fin 8) (p : SdState) : (s.setSd n p).reliefs = s.reliefs := rfl
@[simp] theorem State.setSd_cmps (s : State) (n : Fin 8) (p : SdState) : (s.setSd n p).cmps = s.cmps := rfl
@[simp] theorem State.setSd_fab (s : State) (n : Fin 8) (p : SdState) : (s.setSd n p).fab = s.fab := rfl
@[simp] theorem State.setSd_cores (s : State) (n : Fin 8) (p : SdState) : (s.setSd n p).cores = s.cores := rfl
@[simp] theorem State.setSd_pairs (s : State) (n : Fin 8) (p : SdState) : (s.setSd n p).pairs = s.pairs := rfl
@[simp] theorem State.setSd_entering (s : State) (n : Fin 8) (p : SdState) : (s.setSd n p).entering = s.entering := rfl
@[simp] theorem State.setSd_mem (s : State) (n : Fin 8) (p : SdState) : (s.setSd n p).mem = s.mem := rfl
@[simp] theorem State.setSd_poison (s : State) (n : Fin 8) (p : SdState) : (s.setSd n p).poison = s.poison := rfl
@[simp] theorem State.setSd_rebind (s : State) (n : Fin 8) (p : SdState) : (s.setSd n p).rebind = s.rebind := rfl
@[simp] theorem State.setSd_ecc (s : State) (n : Fin 8) (p : SdState) : (s.setSd n p).ecc = s.ecc := rfl
@[simp] theorem State.setSd_eccNew (s : State) (n : Fin 8) (p : SdState) : (s.setSd n p).eccNew = s.eccNew := rfl
@[simp] theorem State.setSd_wbq (s : State) (n : Fin 8) (p : SdState) : (s.setSd n p).wbq = s.wbq := rfl
@[simp] theorem State.setSd_remap (s : State) (n : Fin 8) (p : SdState) : (s.setSd n p).remap = s.remap := rfl
@[simp] theorem State.setSd_collided (s : State) (n : Fin 8) (p : SdState) : (s.setSd n p).collided = s.collided := rfl
@[simp] theorem State.setSd_dmas (s : State) (n : Fin 8) (p : SdState) : (s.setSd n p).dmas = s.dmas := rfl
@[simp] theorem State.setSd_sparges (s : State) (n : Fin 8) (p : SdState) : (s.setSd n p).sparges = s.sparges := rfl
@[simp] theorem State.setSd_flash (s : State) (n : Fin 8) (p : SdState) : (s.setSd n p).flash = s.flash := rfl
@[simp] theorem State.setSd_flUndef (s : State) (n : Fin 8) (p : SdState) : (s.setSd n p).flUndef = s.flUndef := rfl
@[simp] theorem State.setSd_flEcc (s : State) (n : Fin 8) (p : SdState) : (s.setSd n p).flEcc = s.flEcc := rfl
@[simp] theorem State.setSd_flProg (s : State) (n : Fin 8) (p : SdState) : (s.setSd n p).flProg = s.flProg := rfl
@[simp] theorem State.setSd_flBanks (s : State) (n : Fin 8) (p : SdState) : (s.setSd n p).flBanks = s.flBanks := rfl
@[simp] theorem State.setSd_dfSecs (s : State) (n : Fin 8) (p : SdState) : (s.setSd n p).dfSecs = s.dfSecs := rfl
@[simp] theorem State.setSd_dfQueue (s : State) (n : Fin 8) (p : SdState) : (s.setSd n p).dfQueue = s.dfQueue := rfl
@[simp] theorem State.setSd_dfBg (s : State) (n : Fin 8) (p : SdState) : (s.setSd n p).dfBg = s.dfBg := rfl
@[simp] theorem State.setSd_dfSeq (s : State) (n : Fin 8) (p : SdState) : (s.setSd n p).dfSeq = s.dfSeq := rfl
@[simp] theorem State.setSd_dfTop (s : State) (n : Fin 8) (p : SdState) : (s.setSd n p).dfTop = s.dfTop := rfl
@[simp] theorem State.setSd_prot (s : State) (n : Fin 8) (p : SdState) : (s.setSd n p).prot = s.prot := rfl
@[simp] theorem State.setSd_protPend (s : State) (n : Fin 8) (p : SdState) : (s.setSd n p).protPend = s.protPend := rfl
@[simp] theorem State.setSd_protNew (s : State) (n : Fin 8) (p : SdState) : (s.setSd n p).protNew = s.protNew := rfl
@[simp] theorem State.setSd_otp (s : State) (n : Fin 8) (p : SdState) : (s.setSd n p).otp = s.otp := rfl
@[simp] theorem State.setSd_otpOp (s : State) (n : Fin 8) (p : SdState) : (s.setSd n p).otpOp = s.otpOp := rfl
@[simp] theorem State.setSd_pes (s : State) (n : Fin 8) (p : SdState) : (s.setSd n p).pes = s.pes := rfl
@[simp] theorem State.setSd_pio (s : State) (n : Fin 8) (p : SdState) : (s.setSd n p).pio = s.pio := rfl
@[simp] theorem State.setSd_oz (s : State) (n : Fin 8) (p : SdState) : (s.setSd n p).oz = s.oz := rfl
@[simp] theorem State.setSd_links (s : State) (n : Fin 8) (p : SdState) : (s.setSd n p).links = s.links := rfl
@[simp] theorem State.setSd_remotes (s : State) (n : Fin 8) (p : SdState) : (s.setSd n p).remotes = s.remotes := rfl
@[simp] theorem State.setSd_stalls (s : State) (n : Fin 8) (p : SdState) : (s.setSd n p).stalls = s.stalls := rfl
@[simp] theorem State.setSd_nextTag (s : State) (n : Fin 8) (p : SdState) : (s.setSd n p).nextTag = s.nextTag := rfl
@[simp] theorem State.setSd_lkUsed (s : State) (n : Fin 8) (p : SdState) : (s.setSd n p).lkUsed = s.lkUsed := rfl
@[simp] theorem State.setSd_lkAsk (s : State) (n : Fin 8) (p : SdState) : (s.setSd n p).lkAsk = s.lkAsk := rfl
@[simp] theorem State.setSd_eths (s : State) (n : Fin 8) (p : SdState) : (s.setSd n p).eths = s.eths := rfl
@[simp] theorem State.setSd_cans (s : State) (n : Fin 8) (p : SdState) : (s.setSd n p).cans = s.cans := rfl
@[simp] theorem State.setSd_uarts (s : State) (n : Fin 8) (p : SdState) : (s.setSd n p).uarts = s.uarts := rfl
@[simp] theorem State.setSd_boot (s : State) (n : Fin 8) (p : SdState) : (s.setSd n p).boot = s.boot := rfl
@[simp] theorem State.setSd_jtag (s : State) (n : Fin 8) (p : SdState) : (s.setSd n p).jtag = s.jtag := rfl
@[simp] theorem State.setSd_modeReq (s : State) (n : Fin 8) (p : SdState) : (s.setSd n p).modeReq = s.modeReq := rfl
@[simp] theorem State.setSd_shDue (s : State) (n : Fin 8) (p : SdState) : (s.setSd n p).shDue = s.shDue := rfl
@[simp] theorem State.setSd_offDue (s : State) (n : Fin 8) (p : SdState) : (s.setSd n p).offDue = s.offDue := rfl
@[simp] theorem State.setSd_faultDue (s : State) (n : Fin 8) (p : SdState) : (s.setSd n p).faultDue = s.faultDue := rfl
@[simp] theorem State.setSd_clkAt (s : State) (n : Fin 8) (p : SdState) : (s.setSd n p).clkAt = s.clkAt := rfl
@[simp] theorem State.setSd_rateDue (s : State) (n : Fin 8) (p : SdState) : (s.setSd n p).rateDue = s.rateDue := rfl
@[simp] theorem State.setSd_swfOwn (s : State) (n : Fin 8) (p : SdState) : (s.setSd n p).swfOwn = s.swfOwn := rfl
@[simp] theorem State.setSd_bankWorld (s : State) (n : Fin 8) (p : SdState) : (s.setSd n p).bankWorld = s.bankWorld := rfl
@[simp] theorem State.setSd_faulted (s : State) (n : Fin 8) (p : SdState) : (s.setSd n p).faulted = s.faulted := rfl
@[simp] theorem State.setSd_cycled (s : State) (n : Fin 8) (p : SdState) : (s.setSd n p).cycled = s.cycled := rfl
@[simp] theorem State.setSd_tested (s : State) (n : Fin 8) (p : SdState) : (s.setSd n p).tested = s.tested := rfl

/-! ## setCmp -/

@[simp] theorem State.setCmp_pending (s : State) (n : Fin 32) (p : CmpCore) : (s.setCmp n p).pending = s.pending := rfl
@[simp] theorem State.setCmp_now (s : State) (n : Fin 32) (p : CmpCore) : (s.setCmp n p).now = s.now := rfl
@[simp] theorem State.setCmp_free (s : State) (n : Fin 32) (p : CmpCore) : (s.setCmp n p).free = s.free := rfl
@[simp] theorem State.setCmp_due (s : State) (n : Fin 32) (p : CmpCore) : (s.setCmp n p).due = s.due := rfl
@[simp] theorem State.setCmp_regs (s : State) (n : Fin 32) (p : CmpCore) : (s.setCmp n p).regs = s.regs := rfl
@[simp] theorem State.setCmp_hwSet (s : State) (n : Fin 32) (p : CmpCore) : (s.setCmp n p).hwSet = s.hwSet := rfl
@[simp] theorem State.setCmp_wrote (s : State) (n : Fin 32) (p : CmpCore) : (s.setCmp n p).wrote = s.wrote := rfl
@[simp] theorem State.setCmp_resp (s : State) (n : Fin 32) (p : CmpCore) : (s.setCmp n p).resp = s.resp := rfl
@[simp] theorem State.setCmp_active (s : State) (n : Fin 32) (p : CmpCore) : (s.setCmp n p).active = s.active := rfl
@[simp] theorem State.setCmp_shadow (s : State) (n : Fin 32) (p : CmpCore) : (s.setCmp n p).shadow = s.shadow := rfl
@[simp] theorem State.setCmp_swapTick (s : State) (n : Fin 32) (p : CmpCore) : (s.setCmp n p).swapTick = s.swapTick := rfl
@[simp] theorem State.setCmp_swapCut (s : State) (n : Fin 32) (p : CmpCore) : (s.setCmp n p).swapCut = s.swapCut := rfl
@[simp] theorem State.setCmp_framePeriod (s : State) (n : Fin 32) (p : CmpCore) : (s.setCmp n p).framePeriod = s.framePeriod := rfl
@[simp] theorem State.setCmp_lostAt (s : State) (n : Fin 32) (p : CmpCore) : (s.setCmp n p).lostAt = s.lostAt := rfl
@[simp] theorem State.setCmp_tickOut (s : State) (n : Fin 32) (p : CmpCore) : (s.setCmp n p).tickOut = s.tickOut := rfl
@[simp] theorem State.setCmp_markNum (s : State) (n : Fin 32) (p : CmpCore) : (s.setCmp n p).markNum = s.markNum := rfl
@[simp] theorem State.setCmp_slewLeft (s : State) (n : Fin 32) (p : CmpCore) : (s.setCmp n p).slewLeft = s.slewLeft := rfl
@[simp] theorem State.setCmp_otpLoaded (s : State) (n : Fin 32) (p : CmpCore) : (s.setCmp n p).otpLoaded = s.otpLoaded := rfl
@[simp] theorem State.setCmp_ts64 (s : State) (n : Fin 32) (p : CmpCore) : (s.setCmp n p).ts64 = s.ts64 := rfl
@[simp] theorem State.setCmp_snaps (s : State) (n : Fin 32) (p : CmpCore) : (s.setCmp n p).snaps = s.snaps := rfl
@[simp] theorem State.setCmp_pts (s : State) (n : Fin 32) (p : CmpCore) : (s.setCmp n p).pts = s.pts := rfl
@[simp] theorem State.setCmp_gts (s : State) (n : Fin 32) (p : CmpCore) : (s.setCmp n p).gts = s.gts := rfl
@[simp] theorem State.setCmp_holdOvr (s : State) (n : Fin 32) (p : CmpCore) : (s.setCmp n p).holdOvr = s.holdOvr := rfl
@[simp] theorem State.setCmp_holdNew (s : State) (n : Fin 32) (p : CmpCore) : (s.setCmp n p).holdNew = s.holdNew := rfl
@[simp] theorem State.setCmp_holdRed (s : State) (n : Fin 32) (p : CmpCore) : (s.setCmp n p).holdRed = s.holdRed := rfl
@[simp] theorem State.setCmp_holdRedNew (s : State) (n : Fin 32) (p : CmpCore) : (s.setCmp n p).holdRedNew = s.holdRedNew := rfl
@[simp] theorem State.setCmp_holdPins (s : State) (n : Fin 32) (p : CmpCore) : (s.setCmp n p).holdPins = s.holdPins := rfl
@[simp] theorem State.setCmp_adcs (s : State) (n : Fin 32) (p : CmpCore) : (s.setCmp n p).adcs = s.adcs := rfl
@[simp] theorem State.setCmp_reliefs (s : State) (n : Fin 32) (p : CmpCore) : (s.setCmp n p).reliefs = s.reliefs := rfl
@[simp] theorem State.setCmp_sds (s : State) (n : Fin 32) (p : CmpCore) : (s.setCmp n p).sds = s.sds := rfl
@[simp] theorem State.setCmp_fab (s : State) (n : Fin 32) (p : CmpCore) : (s.setCmp n p).fab = s.fab := rfl
@[simp] theorem State.setCmp_cores (s : State) (n : Fin 32) (p : CmpCore) : (s.setCmp n p).cores = s.cores := rfl
@[simp] theorem State.setCmp_pairs (s : State) (n : Fin 32) (p : CmpCore) : (s.setCmp n p).pairs = s.pairs := rfl
@[simp] theorem State.setCmp_entering (s : State) (n : Fin 32) (p : CmpCore) : (s.setCmp n p).entering = s.entering := rfl
@[simp] theorem State.setCmp_mem (s : State) (n : Fin 32) (p : CmpCore) : (s.setCmp n p).mem = s.mem := rfl
@[simp] theorem State.setCmp_poison (s : State) (n : Fin 32) (p : CmpCore) : (s.setCmp n p).poison = s.poison := rfl
@[simp] theorem State.setCmp_rebind (s : State) (n : Fin 32) (p : CmpCore) : (s.setCmp n p).rebind = s.rebind := rfl
@[simp] theorem State.setCmp_ecc (s : State) (n : Fin 32) (p : CmpCore) : (s.setCmp n p).ecc = s.ecc := rfl
@[simp] theorem State.setCmp_eccNew (s : State) (n : Fin 32) (p : CmpCore) : (s.setCmp n p).eccNew = s.eccNew := rfl
@[simp] theorem State.setCmp_wbq (s : State) (n : Fin 32) (p : CmpCore) : (s.setCmp n p).wbq = s.wbq := rfl
@[simp] theorem State.setCmp_remap (s : State) (n : Fin 32) (p : CmpCore) : (s.setCmp n p).remap = s.remap := rfl
@[simp] theorem State.setCmp_collided (s : State) (n : Fin 32) (p : CmpCore) : (s.setCmp n p).collided = s.collided := rfl
@[simp] theorem State.setCmp_dmas (s : State) (n : Fin 32) (p : CmpCore) : (s.setCmp n p).dmas = s.dmas := rfl
@[simp] theorem State.setCmp_sparges (s : State) (n : Fin 32) (p : CmpCore) : (s.setCmp n p).sparges = s.sparges := rfl
@[simp] theorem State.setCmp_flash (s : State) (n : Fin 32) (p : CmpCore) : (s.setCmp n p).flash = s.flash := rfl
@[simp] theorem State.setCmp_flUndef (s : State) (n : Fin 32) (p : CmpCore) : (s.setCmp n p).flUndef = s.flUndef := rfl
@[simp] theorem State.setCmp_flEcc (s : State) (n : Fin 32) (p : CmpCore) : (s.setCmp n p).flEcc = s.flEcc := rfl
@[simp] theorem State.setCmp_flProg (s : State) (n : Fin 32) (p : CmpCore) : (s.setCmp n p).flProg = s.flProg := rfl
@[simp] theorem State.setCmp_flBanks (s : State) (n : Fin 32) (p : CmpCore) : (s.setCmp n p).flBanks = s.flBanks := rfl
@[simp] theorem State.setCmp_dfSecs (s : State) (n : Fin 32) (p : CmpCore) : (s.setCmp n p).dfSecs = s.dfSecs := rfl
@[simp] theorem State.setCmp_dfQueue (s : State) (n : Fin 32) (p : CmpCore) : (s.setCmp n p).dfQueue = s.dfQueue := rfl
@[simp] theorem State.setCmp_dfBg (s : State) (n : Fin 32) (p : CmpCore) : (s.setCmp n p).dfBg = s.dfBg := rfl
@[simp] theorem State.setCmp_dfSeq (s : State) (n : Fin 32) (p : CmpCore) : (s.setCmp n p).dfSeq = s.dfSeq := rfl
@[simp] theorem State.setCmp_dfTop (s : State) (n : Fin 32) (p : CmpCore) : (s.setCmp n p).dfTop = s.dfTop := rfl
@[simp] theorem State.setCmp_prot (s : State) (n : Fin 32) (p : CmpCore) : (s.setCmp n p).prot = s.prot := rfl
@[simp] theorem State.setCmp_protPend (s : State) (n : Fin 32) (p : CmpCore) : (s.setCmp n p).protPend = s.protPend := rfl
@[simp] theorem State.setCmp_protNew (s : State) (n : Fin 32) (p : CmpCore) : (s.setCmp n p).protNew = s.protNew := rfl
@[simp] theorem State.setCmp_otp (s : State) (n : Fin 32) (p : CmpCore) : (s.setCmp n p).otp = s.otp := rfl
@[simp] theorem State.setCmp_otpOp (s : State) (n : Fin 32) (p : CmpCore) : (s.setCmp n p).otpOp = s.otpOp := rfl
@[simp] theorem State.setCmp_pes (s : State) (n : Fin 32) (p : CmpCore) : (s.setCmp n p).pes = s.pes := rfl
@[simp] theorem State.setCmp_pio (s : State) (n : Fin 32) (p : CmpCore) : (s.setCmp n p).pio = s.pio := rfl
@[simp] theorem State.setCmp_oz (s : State) (n : Fin 32) (p : CmpCore) : (s.setCmp n p).oz = s.oz := rfl
@[simp] theorem State.setCmp_links (s : State) (n : Fin 32) (p : CmpCore) : (s.setCmp n p).links = s.links := rfl
@[simp] theorem State.setCmp_remotes (s : State) (n : Fin 32) (p : CmpCore) : (s.setCmp n p).remotes = s.remotes := rfl
@[simp] theorem State.setCmp_stalls (s : State) (n : Fin 32) (p : CmpCore) : (s.setCmp n p).stalls = s.stalls := rfl
@[simp] theorem State.setCmp_nextTag (s : State) (n : Fin 32) (p : CmpCore) : (s.setCmp n p).nextTag = s.nextTag := rfl
@[simp] theorem State.setCmp_lkUsed (s : State) (n : Fin 32) (p : CmpCore) : (s.setCmp n p).lkUsed = s.lkUsed := rfl
@[simp] theorem State.setCmp_lkAsk (s : State) (n : Fin 32) (p : CmpCore) : (s.setCmp n p).lkAsk = s.lkAsk := rfl
@[simp] theorem State.setCmp_eths (s : State) (n : Fin 32) (p : CmpCore) : (s.setCmp n p).eths = s.eths := rfl
@[simp] theorem State.setCmp_cans (s : State) (n : Fin 32) (p : CmpCore) : (s.setCmp n p).cans = s.cans := rfl
@[simp] theorem State.setCmp_uarts (s : State) (n : Fin 32) (p : CmpCore) : (s.setCmp n p).uarts = s.uarts := rfl
@[simp] theorem State.setCmp_boot (s : State) (n : Fin 32) (p : CmpCore) : (s.setCmp n p).boot = s.boot := rfl
@[simp] theorem State.setCmp_jtag (s : State) (n : Fin 32) (p : CmpCore) : (s.setCmp n p).jtag = s.jtag := rfl
@[simp] theorem State.setCmp_modeReq (s : State) (n : Fin 32) (p : CmpCore) : (s.setCmp n p).modeReq = s.modeReq := rfl
@[simp] theorem State.setCmp_shDue (s : State) (n : Fin 32) (p : CmpCore) : (s.setCmp n p).shDue = s.shDue := rfl
@[simp] theorem State.setCmp_offDue (s : State) (n : Fin 32) (p : CmpCore) : (s.setCmp n p).offDue = s.offDue := rfl
@[simp] theorem State.setCmp_faultDue (s : State) (n : Fin 32) (p : CmpCore) : (s.setCmp n p).faultDue = s.faultDue := rfl
@[simp] theorem State.setCmp_clkAt (s : State) (n : Fin 32) (p : CmpCore) : (s.setCmp n p).clkAt = s.clkAt := rfl
@[simp] theorem State.setCmp_rateDue (s : State) (n : Fin 32) (p : CmpCore) : (s.setCmp n p).rateDue = s.rateDue := rfl
@[simp] theorem State.setCmp_swfOwn (s : State) (n : Fin 32) (p : CmpCore) : (s.setCmp n p).swfOwn = s.swfOwn := rfl
@[simp] theorem State.setCmp_bankWorld (s : State) (n : Fin 32) (p : CmpCore) : (s.setCmp n p).bankWorld = s.bankWorld := rfl
@[simp] theorem State.setCmp_faulted (s : State) (n : Fin 32) (p : CmpCore) : (s.setCmp n p).faulted = s.faulted := rfl
@[simp] theorem State.setCmp_cycled (s : State) (n : Fin 32) (p : CmpCore) : (s.setCmp n p).cycled = s.cycled := rfl
@[simp] theorem State.setCmp_tested (s : State) (n : Fin 32) (p : CmpCore) : (s.setCmp n p).tested = s.tested := rfl

/-! ## setPair -/

@[simp] theorem State.setPair_pending (s : State) (n : Fin 16) (p : PairState) : (s.setPair n p).pending = s.pending := rfl
@[simp] theorem State.setPair_now (s : State) (n : Fin 16) (p : PairState) : (s.setPair n p).now = s.now := rfl
@[simp] theorem State.setPair_free (s : State) (n : Fin 16) (p : PairState) : (s.setPair n p).free = s.free := rfl
@[simp] theorem State.setPair_due (s : State) (n : Fin 16) (p : PairState) : (s.setPair n p).due = s.due := rfl
@[simp] theorem State.setPair_regs (s : State) (n : Fin 16) (p : PairState) : (s.setPair n p).regs = s.regs := rfl
@[simp] theorem State.setPair_hwSet (s : State) (n : Fin 16) (p : PairState) : (s.setPair n p).hwSet = s.hwSet := rfl
@[simp] theorem State.setPair_wrote (s : State) (n : Fin 16) (p : PairState) : (s.setPair n p).wrote = s.wrote := rfl
@[simp] theorem State.setPair_resp (s : State) (n : Fin 16) (p : PairState) : (s.setPair n p).resp = s.resp := rfl
@[simp] theorem State.setPair_active (s : State) (n : Fin 16) (p : PairState) : (s.setPair n p).active = s.active := rfl
@[simp] theorem State.setPair_shadow (s : State) (n : Fin 16) (p : PairState) : (s.setPair n p).shadow = s.shadow := rfl
@[simp] theorem State.setPair_swapTick (s : State) (n : Fin 16) (p : PairState) : (s.setPair n p).swapTick = s.swapTick := rfl
@[simp] theorem State.setPair_swapCut (s : State) (n : Fin 16) (p : PairState) : (s.setPair n p).swapCut = s.swapCut := rfl
@[simp] theorem State.setPair_framePeriod (s : State) (n : Fin 16) (p : PairState) : (s.setPair n p).framePeriod = s.framePeriod := rfl
@[simp] theorem State.setPair_lostAt (s : State) (n : Fin 16) (p : PairState) : (s.setPair n p).lostAt = s.lostAt := rfl
@[simp] theorem State.setPair_tickOut (s : State) (n : Fin 16) (p : PairState) : (s.setPair n p).tickOut = s.tickOut := rfl
@[simp] theorem State.setPair_markNum (s : State) (n : Fin 16) (p : PairState) : (s.setPair n p).markNum = s.markNum := rfl
@[simp] theorem State.setPair_slewLeft (s : State) (n : Fin 16) (p : PairState) : (s.setPair n p).slewLeft = s.slewLeft := rfl
@[simp] theorem State.setPair_otpLoaded (s : State) (n : Fin 16) (p : PairState) : (s.setPair n p).otpLoaded = s.otpLoaded := rfl
@[simp] theorem State.setPair_ts64 (s : State) (n : Fin 16) (p : PairState) : (s.setPair n p).ts64 = s.ts64 := rfl
@[simp] theorem State.setPair_snaps (s : State) (n : Fin 16) (p : PairState) : (s.setPair n p).snaps = s.snaps := rfl
@[simp] theorem State.setPair_pts (s : State) (n : Fin 16) (p : PairState) : (s.setPair n p).pts = s.pts := rfl
@[simp] theorem State.setPair_gts (s : State) (n : Fin 16) (p : PairState) : (s.setPair n p).gts = s.gts := rfl
@[simp] theorem State.setPair_holdOvr (s : State) (n : Fin 16) (p : PairState) : (s.setPair n p).holdOvr = s.holdOvr := rfl
@[simp] theorem State.setPair_holdNew (s : State) (n : Fin 16) (p : PairState) : (s.setPair n p).holdNew = s.holdNew := rfl
@[simp] theorem State.setPair_holdRed (s : State) (n : Fin 16) (p : PairState) : (s.setPair n p).holdRed = s.holdRed := rfl
@[simp] theorem State.setPair_holdRedNew (s : State) (n : Fin 16) (p : PairState) : (s.setPair n p).holdRedNew = s.holdRedNew := rfl
@[simp] theorem State.setPair_holdPins (s : State) (n : Fin 16) (p : PairState) : (s.setPair n p).holdPins = s.holdPins := rfl
@[simp] theorem State.setPair_adcs (s : State) (n : Fin 16) (p : PairState) : (s.setPair n p).adcs = s.adcs := rfl
@[simp] theorem State.setPair_reliefs (s : State) (n : Fin 16) (p : PairState) : (s.setPair n p).reliefs = s.reliefs := rfl
@[simp] theorem State.setPair_sds (s : State) (n : Fin 16) (p : PairState) : (s.setPair n p).sds = s.sds := rfl
@[simp] theorem State.setPair_cmps (s : State) (n : Fin 16) (p : PairState) : (s.setPair n p).cmps = s.cmps := rfl
@[simp] theorem State.setPair_fab (s : State) (n : Fin 16) (p : PairState) : (s.setPair n p).fab = s.fab := rfl
@[simp] theorem State.setPair_cores (s : State) (n : Fin 16) (p : PairState) : (s.setPair n p).cores = s.cores := rfl
@[simp] theorem State.setPair_entering (s : State) (n : Fin 16) (p : PairState) : (s.setPair n p).entering = s.entering := rfl
@[simp] theorem State.setPair_mem (s : State) (n : Fin 16) (p : PairState) : (s.setPair n p).mem = s.mem := rfl
@[simp] theorem State.setPair_poison (s : State) (n : Fin 16) (p : PairState) : (s.setPair n p).poison = s.poison := rfl
@[simp] theorem State.setPair_rebind (s : State) (n : Fin 16) (p : PairState) : (s.setPair n p).rebind = s.rebind := rfl
@[simp] theorem State.setPair_ecc (s : State) (n : Fin 16) (p : PairState) : (s.setPair n p).ecc = s.ecc := rfl
@[simp] theorem State.setPair_eccNew (s : State) (n : Fin 16) (p : PairState) : (s.setPair n p).eccNew = s.eccNew := rfl
@[simp] theorem State.setPair_wbq (s : State) (n : Fin 16) (p : PairState) : (s.setPair n p).wbq = s.wbq := rfl
@[simp] theorem State.setPair_remap (s : State) (n : Fin 16) (p : PairState) : (s.setPair n p).remap = s.remap := rfl
@[simp] theorem State.setPair_collided (s : State) (n : Fin 16) (p : PairState) : (s.setPair n p).collided = s.collided := rfl
@[simp] theorem State.setPair_dmas (s : State) (n : Fin 16) (p : PairState) : (s.setPair n p).dmas = s.dmas := rfl
@[simp] theorem State.setPair_sparges (s : State) (n : Fin 16) (p : PairState) : (s.setPair n p).sparges = s.sparges := rfl
@[simp] theorem State.setPair_flash (s : State) (n : Fin 16) (p : PairState) : (s.setPair n p).flash = s.flash := rfl
@[simp] theorem State.setPair_flUndef (s : State) (n : Fin 16) (p : PairState) : (s.setPair n p).flUndef = s.flUndef := rfl
@[simp] theorem State.setPair_flEcc (s : State) (n : Fin 16) (p : PairState) : (s.setPair n p).flEcc = s.flEcc := rfl
@[simp] theorem State.setPair_flProg (s : State) (n : Fin 16) (p : PairState) : (s.setPair n p).flProg = s.flProg := rfl
@[simp] theorem State.setPair_flBanks (s : State) (n : Fin 16) (p : PairState) : (s.setPair n p).flBanks = s.flBanks := rfl
@[simp] theorem State.setPair_dfSecs (s : State) (n : Fin 16) (p : PairState) : (s.setPair n p).dfSecs = s.dfSecs := rfl
@[simp] theorem State.setPair_dfQueue (s : State) (n : Fin 16) (p : PairState) : (s.setPair n p).dfQueue = s.dfQueue := rfl
@[simp] theorem State.setPair_dfBg (s : State) (n : Fin 16) (p : PairState) : (s.setPair n p).dfBg = s.dfBg := rfl
@[simp] theorem State.setPair_dfSeq (s : State) (n : Fin 16) (p : PairState) : (s.setPair n p).dfSeq = s.dfSeq := rfl
@[simp] theorem State.setPair_dfTop (s : State) (n : Fin 16) (p : PairState) : (s.setPair n p).dfTop = s.dfTop := rfl
@[simp] theorem State.setPair_prot (s : State) (n : Fin 16) (p : PairState) : (s.setPair n p).prot = s.prot := rfl
@[simp] theorem State.setPair_protPend (s : State) (n : Fin 16) (p : PairState) : (s.setPair n p).protPend = s.protPend := rfl
@[simp] theorem State.setPair_protNew (s : State) (n : Fin 16) (p : PairState) : (s.setPair n p).protNew = s.protNew := rfl
@[simp] theorem State.setPair_otp (s : State) (n : Fin 16) (p : PairState) : (s.setPair n p).otp = s.otp := rfl
@[simp] theorem State.setPair_otpOp (s : State) (n : Fin 16) (p : PairState) : (s.setPair n p).otpOp = s.otpOp := rfl
@[simp] theorem State.setPair_pes (s : State) (n : Fin 16) (p : PairState) : (s.setPair n p).pes = s.pes := rfl
@[simp] theorem State.setPair_pio (s : State) (n : Fin 16) (p : PairState) : (s.setPair n p).pio = s.pio := rfl
@[simp] theorem State.setPair_oz (s : State) (n : Fin 16) (p : PairState) : (s.setPair n p).oz = s.oz := rfl
@[simp] theorem State.setPair_links (s : State) (n : Fin 16) (p : PairState) : (s.setPair n p).links = s.links := rfl
@[simp] theorem State.setPair_remotes (s : State) (n : Fin 16) (p : PairState) : (s.setPair n p).remotes = s.remotes := rfl
@[simp] theorem State.setPair_stalls (s : State) (n : Fin 16) (p : PairState) : (s.setPair n p).stalls = s.stalls := rfl
@[simp] theorem State.setPair_nextTag (s : State) (n : Fin 16) (p : PairState) : (s.setPair n p).nextTag = s.nextTag := rfl
@[simp] theorem State.setPair_lkUsed (s : State) (n : Fin 16) (p : PairState) : (s.setPair n p).lkUsed = s.lkUsed := rfl
@[simp] theorem State.setPair_lkAsk (s : State) (n : Fin 16) (p : PairState) : (s.setPair n p).lkAsk = s.lkAsk := rfl
@[simp] theorem State.setPair_eths (s : State) (n : Fin 16) (p : PairState) : (s.setPair n p).eths = s.eths := rfl
@[simp] theorem State.setPair_cans (s : State) (n : Fin 16) (p : PairState) : (s.setPair n p).cans = s.cans := rfl
@[simp] theorem State.setPair_uarts (s : State) (n : Fin 16) (p : PairState) : (s.setPair n p).uarts = s.uarts := rfl
@[simp] theorem State.setPair_boot (s : State) (n : Fin 16) (p : PairState) : (s.setPair n p).boot = s.boot := rfl
@[simp] theorem State.setPair_jtag (s : State) (n : Fin 16) (p : PairState) : (s.setPair n p).jtag = s.jtag := rfl
@[simp] theorem State.setPair_modeReq (s : State) (n : Fin 16) (p : PairState) : (s.setPair n p).modeReq = s.modeReq := rfl
@[simp] theorem State.setPair_shDue (s : State) (n : Fin 16) (p : PairState) : (s.setPair n p).shDue = s.shDue := rfl
@[simp] theorem State.setPair_offDue (s : State) (n : Fin 16) (p : PairState) : (s.setPair n p).offDue = s.offDue := rfl
@[simp] theorem State.setPair_faultDue (s : State) (n : Fin 16) (p : PairState) : (s.setPair n p).faultDue = s.faultDue := rfl
@[simp] theorem State.setPair_clkAt (s : State) (n : Fin 16) (p : PairState) : (s.setPair n p).clkAt = s.clkAt := rfl
@[simp] theorem State.setPair_rateDue (s : State) (n : Fin 16) (p : PairState) : (s.setPair n p).rateDue = s.rateDue := rfl
@[simp] theorem State.setPair_swfOwn (s : State) (n : Fin 16) (p : PairState) : (s.setPair n p).swfOwn = s.swfOwn := rfl
@[simp] theorem State.setPair_bankWorld (s : State) (n : Fin 16) (p : PairState) : (s.setPair n p).bankWorld = s.bankWorld := rfl
@[simp] theorem State.setPair_faulted (s : State) (n : Fin 16) (p : PairState) : (s.setPair n p).faulted = s.faulted := rfl
@[simp] theorem State.setPair_cycled (s : State) (n : Fin 16) (p : PairState) : (s.setPair n p).cycled = s.cycled := rfl
@[simp] theorem State.setPair_tested (s : State) (n : Fin 16) (p : PairState) : (s.setPair n p).tested = s.tested := rfl

/-! ## setDma -/

@[simp] theorem State.setDma_pending (s : State) (n : Fin 16) (p : DmaState) : (s.setDma n p).pending = s.pending := rfl
@[simp] theorem State.setDma_now (s : State) (n : Fin 16) (p : DmaState) : (s.setDma n p).now = s.now := rfl
@[simp] theorem State.setDma_free (s : State) (n : Fin 16) (p : DmaState) : (s.setDma n p).free = s.free := rfl
@[simp] theorem State.setDma_due (s : State) (n : Fin 16) (p : DmaState) : (s.setDma n p).due = s.due := rfl
@[simp] theorem State.setDma_regs (s : State) (n : Fin 16) (p : DmaState) : (s.setDma n p).regs = s.regs := rfl
@[simp] theorem State.setDma_hwSet (s : State) (n : Fin 16) (p : DmaState) : (s.setDma n p).hwSet = s.hwSet := rfl
@[simp] theorem State.setDma_wrote (s : State) (n : Fin 16) (p : DmaState) : (s.setDma n p).wrote = s.wrote := rfl
@[simp] theorem State.setDma_resp (s : State) (n : Fin 16) (p : DmaState) : (s.setDma n p).resp = s.resp := rfl
@[simp] theorem State.setDma_active (s : State) (n : Fin 16) (p : DmaState) : (s.setDma n p).active = s.active := rfl
@[simp] theorem State.setDma_shadow (s : State) (n : Fin 16) (p : DmaState) : (s.setDma n p).shadow = s.shadow := rfl
@[simp] theorem State.setDma_swapTick (s : State) (n : Fin 16) (p : DmaState) : (s.setDma n p).swapTick = s.swapTick := rfl
@[simp] theorem State.setDma_swapCut (s : State) (n : Fin 16) (p : DmaState) : (s.setDma n p).swapCut = s.swapCut := rfl
@[simp] theorem State.setDma_framePeriod (s : State) (n : Fin 16) (p : DmaState) : (s.setDma n p).framePeriod = s.framePeriod := rfl
@[simp] theorem State.setDma_lostAt (s : State) (n : Fin 16) (p : DmaState) : (s.setDma n p).lostAt = s.lostAt := rfl
@[simp] theorem State.setDma_tickOut (s : State) (n : Fin 16) (p : DmaState) : (s.setDma n p).tickOut = s.tickOut := rfl
@[simp] theorem State.setDma_markNum (s : State) (n : Fin 16) (p : DmaState) : (s.setDma n p).markNum = s.markNum := rfl
@[simp] theorem State.setDma_slewLeft (s : State) (n : Fin 16) (p : DmaState) : (s.setDma n p).slewLeft = s.slewLeft := rfl
@[simp] theorem State.setDma_otpLoaded (s : State) (n : Fin 16) (p : DmaState) : (s.setDma n p).otpLoaded = s.otpLoaded := rfl
@[simp] theorem State.setDma_ts64 (s : State) (n : Fin 16) (p : DmaState) : (s.setDma n p).ts64 = s.ts64 := rfl
@[simp] theorem State.setDma_snaps (s : State) (n : Fin 16) (p : DmaState) : (s.setDma n p).snaps = s.snaps := rfl
@[simp] theorem State.setDma_pts (s : State) (n : Fin 16) (p : DmaState) : (s.setDma n p).pts = s.pts := rfl
@[simp] theorem State.setDma_gts (s : State) (n : Fin 16) (p : DmaState) : (s.setDma n p).gts = s.gts := rfl
@[simp] theorem State.setDma_holdOvr (s : State) (n : Fin 16) (p : DmaState) : (s.setDma n p).holdOvr = s.holdOvr := rfl
@[simp] theorem State.setDma_holdNew (s : State) (n : Fin 16) (p : DmaState) : (s.setDma n p).holdNew = s.holdNew := rfl
@[simp] theorem State.setDma_holdRed (s : State) (n : Fin 16) (p : DmaState) : (s.setDma n p).holdRed = s.holdRed := rfl
@[simp] theorem State.setDma_holdRedNew (s : State) (n : Fin 16) (p : DmaState) : (s.setDma n p).holdRedNew = s.holdRedNew := rfl
@[simp] theorem State.setDma_holdPins (s : State) (n : Fin 16) (p : DmaState) : (s.setDma n p).holdPins = s.holdPins := rfl
@[simp] theorem State.setDma_adcs (s : State) (n : Fin 16) (p : DmaState) : (s.setDma n p).adcs = s.adcs := rfl
@[simp] theorem State.setDma_reliefs (s : State) (n : Fin 16) (p : DmaState) : (s.setDma n p).reliefs = s.reliefs := rfl
@[simp] theorem State.setDma_sds (s : State) (n : Fin 16) (p : DmaState) : (s.setDma n p).sds = s.sds := rfl
@[simp] theorem State.setDma_cmps (s : State) (n : Fin 16) (p : DmaState) : (s.setDma n p).cmps = s.cmps := rfl
@[simp] theorem State.setDma_fab (s : State) (n : Fin 16) (p : DmaState) : (s.setDma n p).fab = s.fab := rfl
@[simp] theorem State.setDma_cores (s : State) (n : Fin 16) (p : DmaState) : (s.setDma n p).cores = s.cores := rfl
@[simp] theorem State.setDma_pairs (s : State) (n : Fin 16) (p : DmaState) : (s.setDma n p).pairs = s.pairs := rfl
@[simp] theorem State.setDma_entering (s : State) (n : Fin 16) (p : DmaState) : (s.setDma n p).entering = s.entering := rfl
@[simp] theorem State.setDma_mem (s : State) (n : Fin 16) (p : DmaState) : (s.setDma n p).mem = s.mem := rfl
@[simp] theorem State.setDma_poison (s : State) (n : Fin 16) (p : DmaState) : (s.setDma n p).poison = s.poison := rfl
@[simp] theorem State.setDma_rebind (s : State) (n : Fin 16) (p : DmaState) : (s.setDma n p).rebind = s.rebind := rfl
@[simp] theorem State.setDma_ecc (s : State) (n : Fin 16) (p : DmaState) : (s.setDma n p).ecc = s.ecc := rfl
@[simp] theorem State.setDma_eccNew (s : State) (n : Fin 16) (p : DmaState) : (s.setDma n p).eccNew = s.eccNew := rfl
@[simp] theorem State.setDma_wbq (s : State) (n : Fin 16) (p : DmaState) : (s.setDma n p).wbq = s.wbq := rfl
@[simp] theorem State.setDma_remap (s : State) (n : Fin 16) (p : DmaState) : (s.setDma n p).remap = s.remap := rfl
@[simp] theorem State.setDma_collided (s : State) (n : Fin 16) (p : DmaState) : (s.setDma n p).collided = s.collided := rfl
@[simp] theorem State.setDma_sparges (s : State) (n : Fin 16) (p : DmaState) : (s.setDma n p).sparges = s.sparges := rfl
@[simp] theorem State.setDma_flash (s : State) (n : Fin 16) (p : DmaState) : (s.setDma n p).flash = s.flash := rfl
@[simp] theorem State.setDma_flUndef (s : State) (n : Fin 16) (p : DmaState) : (s.setDma n p).flUndef = s.flUndef := rfl
@[simp] theorem State.setDma_flEcc (s : State) (n : Fin 16) (p : DmaState) : (s.setDma n p).flEcc = s.flEcc := rfl
@[simp] theorem State.setDma_flProg (s : State) (n : Fin 16) (p : DmaState) : (s.setDma n p).flProg = s.flProg := rfl
@[simp] theorem State.setDma_flBanks (s : State) (n : Fin 16) (p : DmaState) : (s.setDma n p).flBanks = s.flBanks := rfl
@[simp] theorem State.setDma_dfSecs (s : State) (n : Fin 16) (p : DmaState) : (s.setDma n p).dfSecs = s.dfSecs := rfl
@[simp] theorem State.setDma_dfQueue (s : State) (n : Fin 16) (p : DmaState) : (s.setDma n p).dfQueue = s.dfQueue := rfl
@[simp] theorem State.setDma_dfBg (s : State) (n : Fin 16) (p : DmaState) : (s.setDma n p).dfBg = s.dfBg := rfl
@[simp] theorem State.setDma_dfSeq (s : State) (n : Fin 16) (p : DmaState) : (s.setDma n p).dfSeq = s.dfSeq := rfl
@[simp] theorem State.setDma_dfTop (s : State) (n : Fin 16) (p : DmaState) : (s.setDma n p).dfTop = s.dfTop := rfl
@[simp] theorem State.setDma_prot (s : State) (n : Fin 16) (p : DmaState) : (s.setDma n p).prot = s.prot := rfl
@[simp] theorem State.setDma_protPend (s : State) (n : Fin 16) (p : DmaState) : (s.setDma n p).protPend = s.protPend := rfl
@[simp] theorem State.setDma_protNew (s : State) (n : Fin 16) (p : DmaState) : (s.setDma n p).protNew = s.protNew := rfl
@[simp] theorem State.setDma_otp (s : State) (n : Fin 16) (p : DmaState) : (s.setDma n p).otp = s.otp := rfl
@[simp] theorem State.setDma_otpOp (s : State) (n : Fin 16) (p : DmaState) : (s.setDma n p).otpOp = s.otpOp := rfl
@[simp] theorem State.setDma_pes (s : State) (n : Fin 16) (p : DmaState) : (s.setDma n p).pes = s.pes := rfl
@[simp] theorem State.setDma_pio (s : State) (n : Fin 16) (p : DmaState) : (s.setDma n p).pio = s.pio := rfl
@[simp] theorem State.setDma_oz (s : State) (n : Fin 16) (p : DmaState) : (s.setDma n p).oz = s.oz := rfl
@[simp] theorem State.setDma_links (s : State) (n : Fin 16) (p : DmaState) : (s.setDma n p).links = s.links := rfl
@[simp] theorem State.setDma_remotes (s : State) (n : Fin 16) (p : DmaState) : (s.setDma n p).remotes = s.remotes := rfl
@[simp] theorem State.setDma_stalls (s : State) (n : Fin 16) (p : DmaState) : (s.setDma n p).stalls = s.stalls := rfl
@[simp] theorem State.setDma_nextTag (s : State) (n : Fin 16) (p : DmaState) : (s.setDma n p).nextTag = s.nextTag := rfl
@[simp] theorem State.setDma_lkUsed (s : State) (n : Fin 16) (p : DmaState) : (s.setDma n p).lkUsed = s.lkUsed := rfl
@[simp] theorem State.setDma_lkAsk (s : State) (n : Fin 16) (p : DmaState) : (s.setDma n p).lkAsk = s.lkAsk := rfl
@[simp] theorem State.setDma_eths (s : State) (n : Fin 16) (p : DmaState) : (s.setDma n p).eths = s.eths := rfl
@[simp] theorem State.setDma_cans (s : State) (n : Fin 16) (p : DmaState) : (s.setDma n p).cans = s.cans := rfl
@[simp] theorem State.setDma_uarts (s : State) (n : Fin 16) (p : DmaState) : (s.setDma n p).uarts = s.uarts := rfl
@[simp] theorem State.setDma_boot (s : State) (n : Fin 16) (p : DmaState) : (s.setDma n p).boot = s.boot := rfl
@[simp] theorem State.setDma_jtag (s : State) (n : Fin 16) (p : DmaState) : (s.setDma n p).jtag = s.jtag := rfl
@[simp] theorem State.setDma_modeReq (s : State) (n : Fin 16) (p : DmaState) : (s.setDma n p).modeReq = s.modeReq := rfl
@[simp] theorem State.setDma_shDue (s : State) (n : Fin 16) (p : DmaState) : (s.setDma n p).shDue = s.shDue := rfl
@[simp] theorem State.setDma_offDue (s : State) (n : Fin 16) (p : DmaState) : (s.setDma n p).offDue = s.offDue := rfl
@[simp] theorem State.setDma_faultDue (s : State) (n : Fin 16) (p : DmaState) : (s.setDma n p).faultDue = s.faultDue := rfl
@[simp] theorem State.setDma_clkAt (s : State) (n : Fin 16) (p : DmaState) : (s.setDma n p).clkAt = s.clkAt := rfl
@[simp] theorem State.setDma_rateDue (s : State) (n : Fin 16) (p : DmaState) : (s.setDma n p).rateDue = s.rateDue := rfl
@[simp] theorem State.setDma_swfOwn (s : State) (n : Fin 16) (p : DmaState) : (s.setDma n p).swfOwn = s.swfOwn := rfl
@[simp] theorem State.setDma_bankWorld (s : State) (n : Fin 16) (p : DmaState) : (s.setDma n p).bankWorld = s.bankWorld := rfl
@[simp] theorem State.setDma_faulted (s : State) (n : Fin 16) (p : DmaState) : (s.setDma n p).faulted = s.faulted := rfl
@[simp] theorem State.setDma_cycled (s : State) (n : Fin 16) (p : DmaState) : (s.setDma n p).cycled = s.cycled := rfl
@[simp] theorem State.setDma_tested (s : State) (n : Fin 16) (p : DmaState) : (s.setDma n p).tested = s.tested := rfl

/-! ## setSpg -/

@[simp] theorem State.setSpg_pending (s : State) (n : SpargeTarget) (p : SpargeState) : (s.setSpg n p).pending = s.pending := rfl
@[simp] theorem State.setSpg_now (s : State) (n : SpargeTarget) (p : SpargeState) : (s.setSpg n p).now = s.now := rfl
@[simp] theorem State.setSpg_free (s : State) (n : SpargeTarget) (p : SpargeState) : (s.setSpg n p).free = s.free := rfl
@[simp] theorem State.setSpg_due (s : State) (n : SpargeTarget) (p : SpargeState) : (s.setSpg n p).due = s.due := rfl
@[simp] theorem State.setSpg_regs (s : State) (n : SpargeTarget) (p : SpargeState) : (s.setSpg n p).regs = s.regs := rfl
@[simp] theorem State.setSpg_hwSet (s : State) (n : SpargeTarget) (p : SpargeState) : (s.setSpg n p).hwSet = s.hwSet := rfl
@[simp] theorem State.setSpg_wrote (s : State) (n : SpargeTarget) (p : SpargeState) : (s.setSpg n p).wrote = s.wrote := rfl
@[simp] theorem State.setSpg_resp (s : State) (n : SpargeTarget) (p : SpargeState) : (s.setSpg n p).resp = s.resp := rfl
@[simp] theorem State.setSpg_active (s : State) (n : SpargeTarget) (p : SpargeState) : (s.setSpg n p).active = s.active := rfl
@[simp] theorem State.setSpg_shadow (s : State) (n : SpargeTarget) (p : SpargeState) : (s.setSpg n p).shadow = s.shadow := rfl
@[simp] theorem State.setSpg_swapTick (s : State) (n : SpargeTarget) (p : SpargeState) : (s.setSpg n p).swapTick = s.swapTick := rfl
@[simp] theorem State.setSpg_swapCut (s : State) (n : SpargeTarget) (p : SpargeState) : (s.setSpg n p).swapCut = s.swapCut := rfl
@[simp] theorem State.setSpg_framePeriod (s : State) (n : SpargeTarget) (p : SpargeState) : (s.setSpg n p).framePeriod = s.framePeriod := rfl
@[simp] theorem State.setSpg_lostAt (s : State) (n : SpargeTarget) (p : SpargeState) : (s.setSpg n p).lostAt = s.lostAt := rfl
@[simp] theorem State.setSpg_tickOut (s : State) (n : SpargeTarget) (p : SpargeState) : (s.setSpg n p).tickOut = s.tickOut := rfl
@[simp] theorem State.setSpg_markNum (s : State) (n : SpargeTarget) (p : SpargeState) : (s.setSpg n p).markNum = s.markNum := rfl
@[simp] theorem State.setSpg_slewLeft (s : State) (n : SpargeTarget) (p : SpargeState) : (s.setSpg n p).slewLeft = s.slewLeft := rfl
@[simp] theorem State.setSpg_otpLoaded (s : State) (n : SpargeTarget) (p : SpargeState) : (s.setSpg n p).otpLoaded = s.otpLoaded := rfl
@[simp] theorem State.setSpg_ts64 (s : State) (n : SpargeTarget) (p : SpargeState) : (s.setSpg n p).ts64 = s.ts64 := rfl
@[simp] theorem State.setSpg_snaps (s : State) (n : SpargeTarget) (p : SpargeState) : (s.setSpg n p).snaps = s.snaps := rfl
@[simp] theorem State.setSpg_pts (s : State) (n : SpargeTarget) (p : SpargeState) : (s.setSpg n p).pts = s.pts := rfl
@[simp] theorem State.setSpg_gts (s : State) (n : SpargeTarget) (p : SpargeState) : (s.setSpg n p).gts = s.gts := rfl
@[simp] theorem State.setSpg_holdOvr (s : State) (n : SpargeTarget) (p : SpargeState) : (s.setSpg n p).holdOvr = s.holdOvr := rfl
@[simp] theorem State.setSpg_holdNew (s : State) (n : SpargeTarget) (p : SpargeState) : (s.setSpg n p).holdNew = s.holdNew := rfl
@[simp] theorem State.setSpg_holdRed (s : State) (n : SpargeTarget) (p : SpargeState) : (s.setSpg n p).holdRed = s.holdRed := rfl
@[simp] theorem State.setSpg_holdRedNew (s : State) (n : SpargeTarget) (p : SpargeState) : (s.setSpg n p).holdRedNew = s.holdRedNew := rfl
@[simp] theorem State.setSpg_holdPins (s : State) (n : SpargeTarget) (p : SpargeState) : (s.setSpg n p).holdPins = s.holdPins := rfl
@[simp] theorem State.setSpg_adcs (s : State) (n : SpargeTarget) (p : SpargeState) : (s.setSpg n p).adcs = s.adcs := rfl
@[simp] theorem State.setSpg_reliefs (s : State) (n : SpargeTarget) (p : SpargeState) : (s.setSpg n p).reliefs = s.reliefs := rfl
@[simp] theorem State.setSpg_sds (s : State) (n : SpargeTarget) (p : SpargeState) : (s.setSpg n p).sds = s.sds := rfl
@[simp] theorem State.setSpg_cmps (s : State) (n : SpargeTarget) (p : SpargeState) : (s.setSpg n p).cmps = s.cmps := rfl
@[simp] theorem State.setSpg_fab (s : State) (n : SpargeTarget) (p : SpargeState) : (s.setSpg n p).fab = s.fab := rfl
@[simp] theorem State.setSpg_cores (s : State) (n : SpargeTarget) (p : SpargeState) : (s.setSpg n p).cores = s.cores := rfl
@[simp] theorem State.setSpg_pairs (s : State) (n : SpargeTarget) (p : SpargeState) : (s.setSpg n p).pairs = s.pairs := rfl
@[simp] theorem State.setSpg_entering (s : State) (n : SpargeTarget) (p : SpargeState) : (s.setSpg n p).entering = s.entering := rfl
@[simp] theorem State.setSpg_mem (s : State) (n : SpargeTarget) (p : SpargeState) : (s.setSpg n p).mem = s.mem := rfl
@[simp] theorem State.setSpg_poison (s : State) (n : SpargeTarget) (p : SpargeState) : (s.setSpg n p).poison = s.poison := rfl
@[simp] theorem State.setSpg_rebind (s : State) (n : SpargeTarget) (p : SpargeState) : (s.setSpg n p).rebind = s.rebind := rfl
@[simp] theorem State.setSpg_ecc (s : State) (n : SpargeTarget) (p : SpargeState) : (s.setSpg n p).ecc = s.ecc := rfl
@[simp] theorem State.setSpg_eccNew (s : State) (n : SpargeTarget) (p : SpargeState) : (s.setSpg n p).eccNew = s.eccNew := rfl
@[simp] theorem State.setSpg_wbq (s : State) (n : SpargeTarget) (p : SpargeState) : (s.setSpg n p).wbq = s.wbq := rfl
@[simp] theorem State.setSpg_remap (s : State) (n : SpargeTarget) (p : SpargeState) : (s.setSpg n p).remap = s.remap := rfl
@[simp] theorem State.setSpg_collided (s : State) (n : SpargeTarget) (p : SpargeState) : (s.setSpg n p).collided = s.collided := rfl
@[simp] theorem State.setSpg_dmas (s : State) (n : SpargeTarget) (p : SpargeState) : (s.setSpg n p).dmas = s.dmas := rfl
@[simp] theorem State.setSpg_flash (s : State) (n : SpargeTarget) (p : SpargeState) : (s.setSpg n p).flash = s.flash := rfl
@[simp] theorem State.setSpg_flUndef (s : State) (n : SpargeTarget) (p : SpargeState) : (s.setSpg n p).flUndef = s.flUndef := rfl
@[simp] theorem State.setSpg_flEcc (s : State) (n : SpargeTarget) (p : SpargeState) : (s.setSpg n p).flEcc = s.flEcc := rfl
@[simp] theorem State.setSpg_flProg (s : State) (n : SpargeTarget) (p : SpargeState) : (s.setSpg n p).flProg = s.flProg := rfl
@[simp] theorem State.setSpg_flBanks (s : State) (n : SpargeTarget) (p : SpargeState) : (s.setSpg n p).flBanks = s.flBanks := rfl
@[simp] theorem State.setSpg_dfSecs (s : State) (n : SpargeTarget) (p : SpargeState) : (s.setSpg n p).dfSecs = s.dfSecs := rfl
@[simp] theorem State.setSpg_dfQueue (s : State) (n : SpargeTarget) (p : SpargeState) : (s.setSpg n p).dfQueue = s.dfQueue := rfl
@[simp] theorem State.setSpg_dfBg (s : State) (n : SpargeTarget) (p : SpargeState) : (s.setSpg n p).dfBg = s.dfBg := rfl
@[simp] theorem State.setSpg_dfSeq (s : State) (n : SpargeTarget) (p : SpargeState) : (s.setSpg n p).dfSeq = s.dfSeq := rfl
@[simp] theorem State.setSpg_dfTop (s : State) (n : SpargeTarget) (p : SpargeState) : (s.setSpg n p).dfTop = s.dfTop := rfl
@[simp] theorem State.setSpg_prot (s : State) (n : SpargeTarget) (p : SpargeState) : (s.setSpg n p).prot = s.prot := rfl
@[simp] theorem State.setSpg_protPend (s : State) (n : SpargeTarget) (p : SpargeState) : (s.setSpg n p).protPend = s.protPend := rfl
@[simp] theorem State.setSpg_protNew (s : State) (n : SpargeTarget) (p : SpargeState) : (s.setSpg n p).protNew = s.protNew := rfl
@[simp] theorem State.setSpg_otp (s : State) (n : SpargeTarget) (p : SpargeState) : (s.setSpg n p).otp = s.otp := rfl
@[simp] theorem State.setSpg_otpOp (s : State) (n : SpargeTarget) (p : SpargeState) : (s.setSpg n p).otpOp = s.otpOp := rfl
@[simp] theorem State.setSpg_pes (s : State) (n : SpargeTarget) (p : SpargeState) : (s.setSpg n p).pes = s.pes := rfl
@[simp] theorem State.setSpg_pio (s : State) (n : SpargeTarget) (p : SpargeState) : (s.setSpg n p).pio = s.pio := rfl
@[simp] theorem State.setSpg_oz (s : State) (n : SpargeTarget) (p : SpargeState) : (s.setSpg n p).oz = s.oz := rfl
@[simp] theorem State.setSpg_links (s : State) (n : SpargeTarget) (p : SpargeState) : (s.setSpg n p).links = s.links := rfl
@[simp] theorem State.setSpg_remotes (s : State) (n : SpargeTarget) (p : SpargeState) : (s.setSpg n p).remotes = s.remotes := rfl
@[simp] theorem State.setSpg_stalls (s : State) (n : SpargeTarget) (p : SpargeState) : (s.setSpg n p).stalls = s.stalls := rfl
@[simp] theorem State.setSpg_nextTag (s : State) (n : SpargeTarget) (p : SpargeState) : (s.setSpg n p).nextTag = s.nextTag := rfl
@[simp] theorem State.setSpg_lkUsed (s : State) (n : SpargeTarget) (p : SpargeState) : (s.setSpg n p).lkUsed = s.lkUsed := rfl
@[simp] theorem State.setSpg_lkAsk (s : State) (n : SpargeTarget) (p : SpargeState) : (s.setSpg n p).lkAsk = s.lkAsk := rfl
@[simp] theorem State.setSpg_eths (s : State) (n : SpargeTarget) (p : SpargeState) : (s.setSpg n p).eths = s.eths := rfl
@[simp] theorem State.setSpg_cans (s : State) (n : SpargeTarget) (p : SpargeState) : (s.setSpg n p).cans = s.cans := rfl
@[simp] theorem State.setSpg_uarts (s : State) (n : SpargeTarget) (p : SpargeState) : (s.setSpg n p).uarts = s.uarts := rfl
@[simp] theorem State.setSpg_boot (s : State) (n : SpargeTarget) (p : SpargeState) : (s.setSpg n p).boot = s.boot := rfl
@[simp] theorem State.setSpg_jtag (s : State) (n : SpargeTarget) (p : SpargeState) : (s.setSpg n p).jtag = s.jtag := rfl
@[simp] theorem State.setSpg_modeReq (s : State) (n : SpargeTarget) (p : SpargeState) : (s.setSpg n p).modeReq = s.modeReq := rfl
@[simp] theorem State.setSpg_shDue (s : State) (n : SpargeTarget) (p : SpargeState) : (s.setSpg n p).shDue = s.shDue := rfl
@[simp] theorem State.setSpg_offDue (s : State) (n : SpargeTarget) (p : SpargeState) : (s.setSpg n p).offDue = s.offDue := rfl
@[simp] theorem State.setSpg_faultDue (s : State) (n : SpargeTarget) (p : SpargeState) : (s.setSpg n p).faultDue = s.faultDue := rfl
@[simp] theorem State.setSpg_clkAt (s : State) (n : SpargeTarget) (p : SpargeState) : (s.setSpg n p).clkAt = s.clkAt := rfl
@[simp] theorem State.setSpg_rateDue (s : State) (n : SpargeTarget) (p : SpargeState) : (s.setSpg n p).rateDue = s.rateDue := rfl
@[simp] theorem State.setSpg_swfOwn (s : State) (n : SpargeTarget) (p : SpargeState) : (s.setSpg n p).swfOwn = s.swfOwn := rfl
@[simp] theorem State.setSpg_bankWorld (s : State) (n : SpargeTarget) (p : SpargeState) : (s.setSpg n p).bankWorld = s.bankWorld := rfl
@[simp] theorem State.setSpg_faulted (s : State) (n : SpargeTarget) (p : SpargeState) : (s.setSpg n p).faulted = s.faulted := rfl
@[simp] theorem State.setSpg_cycled (s : State) (n : SpargeTarget) (p : SpargeState) : (s.setSpg n p).cycled = s.cycled := rfl
@[simp] theorem State.setSpg_tested (s : State) (n : SpargeTarget) (p : SpargeState) : (s.setSpg n p).tested = s.tested := rfl

/-! ## setFlBank -/

@[simp] theorem State.setFlBank_pending (s : State) (n : Fin 5) (p : FlBank) : (s.setFlBank n p).pending = s.pending := rfl
@[simp] theorem State.setFlBank_now (s : State) (n : Fin 5) (p : FlBank) : (s.setFlBank n p).now = s.now := rfl
@[simp] theorem State.setFlBank_free (s : State) (n : Fin 5) (p : FlBank) : (s.setFlBank n p).free = s.free := rfl
@[simp] theorem State.setFlBank_due (s : State) (n : Fin 5) (p : FlBank) : (s.setFlBank n p).due = s.due := rfl
@[simp] theorem State.setFlBank_regs (s : State) (n : Fin 5) (p : FlBank) : (s.setFlBank n p).regs = s.regs := rfl
@[simp] theorem State.setFlBank_hwSet (s : State) (n : Fin 5) (p : FlBank) : (s.setFlBank n p).hwSet = s.hwSet := rfl
@[simp] theorem State.setFlBank_wrote (s : State) (n : Fin 5) (p : FlBank) : (s.setFlBank n p).wrote = s.wrote := rfl
@[simp] theorem State.setFlBank_resp (s : State) (n : Fin 5) (p : FlBank) : (s.setFlBank n p).resp = s.resp := rfl
@[simp] theorem State.setFlBank_active (s : State) (n : Fin 5) (p : FlBank) : (s.setFlBank n p).active = s.active := rfl
@[simp] theorem State.setFlBank_shadow (s : State) (n : Fin 5) (p : FlBank) : (s.setFlBank n p).shadow = s.shadow := rfl
@[simp] theorem State.setFlBank_swapTick (s : State) (n : Fin 5) (p : FlBank) : (s.setFlBank n p).swapTick = s.swapTick := rfl
@[simp] theorem State.setFlBank_swapCut (s : State) (n : Fin 5) (p : FlBank) : (s.setFlBank n p).swapCut = s.swapCut := rfl
@[simp] theorem State.setFlBank_framePeriod (s : State) (n : Fin 5) (p : FlBank) : (s.setFlBank n p).framePeriod = s.framePeriod := rfl
@[simp] theorem State.setFlBank_lostAt (s : State) (n : Fin 5) (p : FlBank) : (s.setFlBank n p).lostAt = s.lostAt := rfl
@[simp] theorem State.setFlBank_tickOut (s : State) (n : Fin 5) (p : FlBank) : (s.setFlBank n p).tickOut = s.tickOut := rfl
@[simp] theorem State.setFlBank_markNum (s : State) (n : Fin 5) (p : FlBank) : (s.setFlBank n p).markNum = s.markNum := rfl
@[simp] theorem State.setFlBank_slewLeft (s : State) (n : Fin 5) (p : FlBank) : (s.setFlBank n p).slewLeft = s.slewLeft := rfl
@[simp] theorem State.setFlBank_otpLoaded (s : State) (n : Fin 5) (p : FlBank) : (s.setFlBank n p).otpLoaded = s.otpLoaded := rfl
@[simp] theorem State.setFlBank_ts64 (s : State) (n : Fin 5) (p : FlBank) : (s.setFlBank n p).ts64 = s.ts64 := rfl
@[simp] theorem State.setFlBank_snaps (s : State) (n : Fin 5) (p : FlBank) : (s.setFlBank n p).snaps = s.snaps := rfl
@[simp] theorem State.setFlBank_pts (s : State) (n : Fin 5) (p : FlBank) : (s.setFlBank n p).pts = s.pts := rfl
@[simp] theorem State.setFlBank_gts (s : State) (n : Fin 5) (p : FlBank) : (s.setFlBank n p).gts = s.gts := rfl
@[simp] theorem State.setFlBank_holdOvr (s : State) (n : Fin 5) (p : FlBank) : (s.setFlBank n p).holdOvr = s.holdOvr := rfl
@[simp] theorem State.setFlBank_holdNew (s : State) (n : Fin 5) (p : FlBank) : (s.setFlBank n p).holdNew = s.holdNew := rfl
@[simp] theorem State.setFlBank_holdRed (s : State) (n : Fin 5) (p : FlBank) : (s.setFlBank n p).holdRed = s.holdRed := rfl
@[simp] theorem State.setFlBank_holdRedNew (s : State) (n : Fin 5) (p : FlBank) : (s.setFlBank n p).holdRedNew = s.holdRedNew := rfl
@[simp] theorem State.setFlBank_holdPins (s : State) (n : Fin 5) (p : FlBank) : (s.setFlBank n p).holdPins = s.holdPins := rfl
@[simp] theorem State.setFlBank_adcs (s : State) (n : Fin 5) (p : FlBank) : (s.setFlBank n p).adcs = s.adcs := rfl
@[simp] theorem State.setFlBank_reliefs (s : State) (n : Fin 5) (p : FlBank) : (s.setFlBank n p).reliefs = s.reliefs := rfl
@[simp] theorem State.setFlBank_sds (s : State) (n : Fin 5) (p : FlBank) : (s.setFlBank n p).sds = s.sds := rfl
@[simp] theorem State.setFlBank_cmps (s : State) (n : Fin 5) (p : FlBank) : (s.setFlBank n p).cmps = s.cmps := rfl
@[simp] theorem State.setFlBank_fab (s : State) (n : Fin 5) (p : FlBank) : (s.setFlBank n p).fab = s.fab := rfl
@[simp] theorem State.setFlBank_cores (s : State) (n : Fin 5) (p : FlBank) : (s.setFlBank n p).cores = s.cores := rfl
@[simp] theorem State.setFlBank_pairs (s : State) (n : Fin 5) (p : FlBank) : (s.setFlBank n p).pairs = s.pairs := rfl
@[simp] theorem State.setFlBank_entering (s : State) (n : Fin 5) (p : FlBank) : (s.setFlBank n p).entering = s.entering := rfl
@[simp] theorem State.setFlBank_mem (s : State) (n : Fin 5) (p : FlBank) : (s.setFlBank n p).mem = s.mem := rfl
@[simp] theorem State.setFlBank_poison (s : State) (n : Fin 5) (p : FlBank) : (s.setFlBank n p).poison = s.poison := rfl
@[simp] theorem State.setFlBank_rebind (s : State) (n : Fin 5) (p : FlBank) : (s.setFlBank n p).rebind = s.rebind := rfl
@[simp] theorem State.setFlBank_ecc (s : State) (n : Fin 5) (p : FlBank) : (s.setFlBank n p).ecc = s.ecc := rfl
@[simp] theorem State.setFlBank_eccNew (s : State) (n : Fin 5) (p : FlBank) : (s.setFlBank n p).eccNew = s.eccNew := rfl
@[simp] theorem State.setFlBank_wbq (s : State) (n : Fin 5) (p : FlBank) : (s.setFlBank n p).wbq = s.wbq := rfl
@[simp] theorem State.setFlBank_remap (s : State) (n : Fin 5) (p : FlBank) : (s.setFlBank n p).remap = s.remap := rfl
@[simp] theorem State.setFlBank_collided (s : State) (n : Fin 5) (p : FlBank) : (s.setFlBank n p).collided = s.collided := rfl
@[simp] theorem State.setFlBank_dmas (s : State) (n : Fin 5) (p : FlBank) : (s.setFlBank n p).dmas = s.dmas := rfl
@[simp] theorem State.setFlBank_sparges (s : State) (n : Fin 5) (p : FlBank) : (s.setFlBank n p).sparges = s.sparges := rfl
@[simp] theorem State.setFlBank_flash (s : State) (n : Fin 5) (p : FlBank) : (s.setFlBank n p).flash = s.flash := rfl
@[simp] theorem State.setFlBank_flUndef (s : State) (n : Fin 5) (p : FlBank) : (s.setFlBank n p).flUndef = s.flUndef := rfl
@[simp] theorem State.setFlBank_flEcc (s : State) (n : Fin 5) (p : FlBank) : (s.setFlBank n p).flEcc = s.flEcc := rfl
@[simp] theorem State.setFlBank_flProg (s : State) (n : Fin 5) (p : FlBank) : (s.setFlBank n p).flProg = s.flProg := rfl
@[simp] theorem State.setFlBank_dfSecs (s : State) (n : Fin 5) (p : FlBank) : (s.setFlBank n p).dfSecs = s.dfSecs := rfl
@[simp] theorem State.setFlBank_dfQueue (s : State) (n : Fin 5) (p : FlBank) : (s.setFlBank n p).dfQueue = s.dfQueue := rfl
@[simp] theorem State.setFlBank_dfBg (s : State) (n : Fin 5) (p : FlBank) : (s.setFlBank n p).dfBg = s.dfBg := rfl
@[simp] theorem State.setFlBank_dfSeq (s : State) (n : Fin 5) (p : FlBank) : (s.setFlBank n p).dfSeq = s.dfSeq := rfl
@[simp] theorem State.setFlBank_dfTop (s : State) (n : Fin 5) (p : FlBank) : (s.setFlBank n p).dfTop = s.dfTop := rfl
@[simp] theorem State.setFlBank_prot (s : State) (n : Fin 5) (p : FlBank) : (s.setFlBank n p).prot = s.prot := rfl
@[simp] theorem State.setFlBank_protPend (s : State) (n : Fin 5) (p : FlBank) : (s.setFlBank n p).protPend = s.protPend := rfl
@[simp] theorem State.setFlBank_protNew (s : State) (n : Fin 5) (p : FlBank) : (s.setFlBank n p).protNew = s.protNew := rfl
@[simp] theorem State.setFlBank_otp (s : State) (n : Fin 5) (p : FlBank) : (s.setFlBank n p).otp = s.otp := rfl
@[simp] theorem State.setFlBank_otpOp (s : State) (n : Fin 5) (p : FlBank) : (s.setFlBank n p).otpOp = s.otpOp := rfl
@[simp] theorem State.setFlBank_pes (s : State) (n : Fin 5) (p : FlBank) : (s.setFlBank n p).pes = s.pes := rfl
@[simp] theorem State.setFlBank_pio (s : State) (n : Fin 5) (p : FlBank) : (s.setFlBank n p).pio = s.pio := rfl
@[simp] theorem State.setFlBank_oz (s : State) (n : Fin 5) (p : FlBank) : (s.setFlBank n p).oz = s.oz := rfl
@[simp] theorem State.setFlBank_links (s : State) (n : Fin 5) (p : FlBank) : (s.setFlBank n p).links = s.links := rfl
@[simp] theorem State.setFlBank_remotes (s : State) (n : Fin 5) (p : FlBank) : (s.setFlBank n p).remotes = s.remotes := rfl
@[simp] theorem State.setFlBank_stalls (s : State) (n : Fin 5) (p : FlBank) : (s.setFlBank n p).stalls = s.stalls := rfl
@[simp] theorem State.setFlBank_nextTag (s : State) (n : Fin 5) (p : FlBank) : (s.setFlBank n p).nextTag = s.nextTag := rfl
@[simp] theorem State.setFlBank_lkUsed (s : State) (n : Fin 5) (p : FlBank) : (s.setFlBank n p).lkUsed = s.lkUsed := rfl
@[simp] theorem State.setFlBank_lkAsk (s : State) (n : Fin 5) (p : FlBank) : (s.setFlBank n p).lkAsk = s.lkAsk := rfl
@[simp] theorem State.setFlBank_eths (s : State) (n : Fin 5) (p : FlBank) : (s.setFlBank n p).eths = s.eths := rfl
@[simp] theorem State.setFlBank_cans (s : State) (n : Fin 5) (p : FlBank) : (s.setFlBank n p).cans = s.cans := rfl
@[simp] theorem State.setFlBank_uarts (s : State) (n : Fin 5) (p : FlBank) : (s.setFlBank n p).uarts = s.uarts := rfl
@[simp] theorem State.setFlBank_boot (s : State) (n : Fin 5) (p : FlBank) : (s.setFlBank n p).boot = s.boot := rfl
@[simp] theorem State.setFlBank_jtag (s : State) (n : Fin 5) (p : FlBank) : (s.setFlBank n p).jtag = s.jtag := rfl
@[simp] theorem State.setFlBank_modeReq (s : State) (n : Fin 5) (p : FlBank) : (s.setFlBank n p).modeReq = s.modeReq := rfl
@[simp] theorem State.setFlBank_shDue (s : State) (n : Fin 5) (p : FlBank) : (s.setFlBank n p).shDue = s.shDue := rfl
@[simp] theorem State.setFlBank_offDue (s : State) (n : Fin 5) (p : FlBank) : (s.setFlBank n p).offDue = s.offDue := rfl
@[simp] theorem State.setFlBank_faultDue (s : State) (n : Fin 5) (p : FlBank) : (s.setFlBank n p).faultDue = s.faultDue := rfl
@[simp] theorem State.setFlBank_clkAt (s : State) (n : Fin 5) (p : FlBank) : (s.setFlBank n p).clkAt = s.clkAt := rfl
@[simp] theorem State.setFlBank_rateDue (s : State) (n : Fin 5) (p : FlBank) : (s.setFlBank n p).rateDue = s.rateDue := rfl
@[simp] theorem State.setFlBank_swfOwn (s : State) (n : Fin 5) (p : FlBank) : (s.setFlBank n p).swfOwn = s.swfOwn := rfl
@[simp] theorem State.setFlBank_bankWorld (s : State) (n : Fin 5) (p : FlBank) : (s.setFlBank n p).bankWorld = s.bankWorld := rfl
@[simp] theorem State.setFlBank_faulted (s : State) (n : Fin 5) (p : FlBank) : (s.setFlBank n p).faulted = s.faulted := rfl
@[simp] theorem State.setFlBank_cycled (s : State) (n : Fin 5) (p : FlBank) : (s.setFlBank n p).cycled = s.cycled := rfl
@[simp] theorem State.setFlBank_tested (s : State) (n : Fin 5) (p : FlBank) : (s.setFlBank n p).tested = s.tested := rfl

/-! ## setPg -/

@[simp] theorem State.setPg_pending (s : State) (n : Fin 8) (p : PeGroup) : (s.setPg n p).pending = s.pending := rfl
@[simp] theorem State.setPg_now (s : State) (n : Fin 8) (p : PeGroup) : (s.setPg n p).now = s.now := rfl
@[simp] theorem State.setPg_free (s : State) (n : Fin 8) (p : PeGroup) : (s.setPg n p).free = s.free := rfl
@[simp] theorem State.setPg_due (s : State) (n : Fin 8) (p : PeGroup) : (s.setPg n p).due = s.due := rfl
@[simp] theorem State.setPg_regs (s : State) (n : Fin 8) (p : PeGroup) : (s.setPg n p).regs = s.regs := rfl
@[simp] theorem State.setPg_hwSet (s : State) (n : Fin 8) (p : PeGroup) : (s.setPg n p).hwSet = s.hwSet := rfl
@[simp] theorem State.setPg_wrote (s : State) (n : Fin 8) (p : PeGroup) : (s.setPg n p).wrote = s.wrote := rfl
@[simp] theorem State.setPg_resp (s : State) (n : Fin 8) (p : PeGroup) : (s.setPg n p).resp = s.resp := rfl
@[simp] theorem State.setPg_active (s : State) (n : Fin 8) (p : PeGroup) : (s.setPg n p).active = s.active := rfl
@[simp] theorem State.setPg_shadow (s : State) (n : Fin 8) (p : PeGroup) : (s.setPg n p).shadow = s.shadow := rfl
@[simp] theorem State.setPg_swapTick (s : State) (n : Fin 8) (p : PeGroup) : (s.setPg n p).swapTick = s.swapTick := rfl
@[simp] theorem State.setPg_swapCut (s : State) (n : Fin 8) (p : PeGroup) : (s.setPg n p).swapCut = s.swapCut := rfl
@[simp] theorem State.setPg_framePeriod (s : State) (n : Fin 8) (p : PeGroup) : (s.setPg n p).framePeriod = s.framePeriod := rfl
@[simp] theorem State.setPg_lostAt (s : State) (n : Fin 8) (p : PeGroup) : (s.setPg n p).lostAt = s.lostAt := rfl
@[simp] theorem State.setPg_tickOut (s : State) (n : Fin 8) (p : PeGroup) : (s.setPg n p).tickOut = s.tickOut := rfl
@[simp] theorem State.setPg_markNum (s : State) (n : Fin 8) (p : PeGroup) : (s.setPg n p).markNum = s.markNum := rfl
@[simp] theorem State.setPg_slewLeft (s : State) (n : Fin 8) (p : PeGroup) : (s.setPg n p).slewLeft = s.slewLeft := rfl
@[simp] theorem State.setPg_otpLoaded (s : State) (n : Fin 8) (p : PeGroup) : (s.setPg n p).otpLoaded = s.otpLoaded := rfl
@[simp] theorem State.setPg_ts64 (s : State) (n : Fin 8) (p : PeGroup) : (s.setPg n p).ts64 = s.ts64 := rfl
@[simp] theorem State.setPg_snaps (s : State) (n : Fin 8) (p : PeGroup) : (s.setPg n p).snaps = s.snaps := rfl
@[simp] theorem State.setPg_pts (s : State) (n : Fin 8) (p : PeGroup) : (s.setPg n p).pts = s.pts := rfl
@[simp] theorem State.setPg_gts (s : State) (n : Fin 8) (p : PeGroup) : (s.setPg n p).gts = s.gts := rfl
@[simp] theorem State.setPg_holdOvr (s : State) (n : Fin 8) (p : PeGroup) : (s.setPg n p).holdOvr = s.holdOvr := rfl
@[simp] theorem State.setPg_holdNew (s : State) (n : Fin 8) (p : PeGroup) : (s.setPg n p).holdNew = s.holdNew := rfl
@[simp] theorem State.setPg_holdRed (s : State) (n : Fin 8) (p : PeGroup) : (s.setPg n p).holdRed = s.holdRed := rfl
@[simp] theorem State.setPg_holdRedNew (s : State) (n : Fin 8) (p : PeGroup) : (s.setPg n p).holdRedNew = s.holdRedNew := rfl
@[simp] theorem State.setPg_holdPins (s : State) (n : Fin 8) (p : PeGroup) : (s.setPg n p).holdPins = s.holdPins := rfl
@[simp] theorem State.setPg_adcs (s : State) (n : Fin 8) (p : PeGroup) : (s.setPg n p).adcs = s.adcs := rfl
@[simp] theorem State.setPg_reliefs (s : State) (n : Fin 8) (p : PeGroup) : (s.setPg n p).reliefs = s.reliefs := rfl
@[simp] theorem State.setPg_sds (s : State) (n : Fin 8) (p : PeGroup) : (s.setPg n p).sds = s.sds := rfl
@[simp] theorem State.setPg_cmps (s : State) (n : Fin 8) (p : PeGroup) : (s.setPg n p).cmps = s.cmps := rfl
@[simp] theorem State.setPg_fab (s : State) (n : Fin 8) (p : PeGroup) : (s.setPg n p).fab = s.fab := rfl
@[simp] theorem State.setPg_cores (s : State) (n : Fin 8) (p : PeGroup) : (s.setPg n p).cores = s.cores := rfl
@[simp] theorem State.setPg_pairs (s : State) (n : Fin 8) (p : PeGroup) : (s.setPg n p).pairs = s.pairs := rfl
@[simp] theorem State.setPg_entering (s : State) (n : Fin 8) (p : PeGroup) : (s.setPg n p).entering = s.entering := rfl
@[simp] theorem State.setPg_mem (s : State) (n : Fin 8) (p : PeGroup) : (s.setPg n p).mem = s.mem := rfl
@[simp] theorem State.setPg_poison (s : State) (n : Fin 8) (p : PeGroup) : (s.setPg n p).poison = s.poison := rfl
@[simp] theorem State.setPg_rebind (s : State) (n : Fin 8) (p : PeGroup) : (s.setPg n p).rebind = s.rebind := rfl
@[simp] theorem State.setPg_ecc (s : State) (n : Fin 8) (p : PeGroup) : (s.setPg n p).ecc = s.ecc := rfl
@[simp] theorem State.setPg_eccNew (s : State) (n : Fin 8) (p : PeGroup) : (s.setPg n p).eccNew = s.eccNew := rfl
@[simp] theorem State.setPg_wbq (s : State) (n : Fin 8) (p : PeGroup) : (s.setPg n p).wbq = s.wbq := rfl
@[simp] theorem State.setPg_remap (s : State) (n : Fin 8) (p : PeGroup) : (s.setPg n p).remap = s.remap := rfl
@[simp] theorem State.setPg_collided (s : State) (n : Fin 8) (p : PeGroup) : (s.setPg n p).collided = s.collided := rfl
@[simp] theorem State.setPg_dmas (s : State) (n : Fin 8) (p : PeGroup) : (s.setPg n p).dmas = s.dmas := rfl
@[simp] theorem State.setPg_sparges (s : State) (n : Fin 8) (p : PeGroup) : (s.setPg n p).sparges = s.sparges := rfl
@[simp] theorem State.setPg_flash (s : State) (n : Fin 8) (p : PeGroup) : (s.setPg n p).flash = s.flash := rfl
@[simp] theorem State.setPg_flUndef (s : State) (n : Fin 8) (p : PeGroup) : (s.setPg n p).flUndef = s.flUndef := rfl
@[simp] theorem State.setPg_flEcc (s : State) (n : Fin 8) (p : PeGroup) : (s.setPg n p).flEcc = s.flEcc := rfl
@[simp] theorem State.setPg_flProg (s : State) (n : Fin 8) (p : PeGroup) : (s.setPg n p).flProg = s.flProg := rfl
@[simp] theorem State.setPg_flBanks (s : State) (n : Fin 8) (p : PeGroup) : (s.setPg n p).flBanks = s.flBanks := rfl
@[simp] theorem State.setPg_dfSecs (s : State) (n : Fin 8) (p : PeGroup) : (s.setPg n p).dfSecs = s.dfSecs := rfl
@[simp] theorem State.setPg_dfQueue (s : State) (n : Fin 8) (p : PeGroup) : (s.setPg n p).dfQueue = s.dfQueue := rfl
@[simp] theorem State.setPg_dfBg (s : State) (n : Fin 8) (p : PeGroup) : (s.setPg n p).dfBg = s.dfBg := rfl
@[simp] theorem State.setPg_dfSeq (s : State) (n : Fin 8) (p : PeGroup) : (s.setPg n p).dfSeq = s.dfSeq := rfl
@[simp] theorem State.setPg_dfTop (s : State) (n : Fin 8) (p : PeGroup) : (s.setPg n p).dfTop = s.dfTop := rfl
@[simp] theorem State.setPg_prot (s : State) (n : Fin 8) (p : PeGroup) : (s.setPg n p).prot = s.prot := rfl
@[simp] theorem State.setPg_protPend (s : State) (n : Fin 8) (p : PeGroup) : (s.setPg n p).protPend = s.protPend := rfl
@[simp] theorem State.setPg_protNew (s : State) (n : Fin 8) (p : PeGroup) : (s.setPg n p).protNew = s.protNew := rfl
@[simp] theorem State.setPg_otp (s : State) (n : Fin 8) (p : PeGroup) : (s.setPg n p).otp = s.otp := rfl
@[simp] theorem State.setPg_otpOp (s : State) (n : Fin 8) (p : PeGroup) : (s.setPg n p).otpOp = s.otpOp := rfl
@[simp] theorem State.setPg_pio (s : State) (n : Fin 8) (p : PeGroup) : (s.setPg n p).pio = s.pio := rfl
@[simp] theorem State.setPg_oz (s : State) (n : Fin 8) (p : PeGroup) : (s.setPg n p).oz = s.oz := rfl
@[simp] theorem State.setPg_links (s : State) (n : Fin 8) (p : PeGroup) : (s.setPg n p).links = s.links := rfl
@[simp] theorem State.setPg_remotes (s : State) (n : Fin 8) (p : PeGroup) : (s.setPg n p).remotes = s.remotes := rfl
@[simp] theorem State.setPg_stalls (s : State) (n : Fin 8) (p : PeGroup) : (s.setPg n p).stalls = s.stalls := rfl
@[simp] theorem State.setPg_nextTag (s : State) (n : Fin 8) (p : PeGroup) : (s.setPg n p).nextTag = s.nextTag := rfl
@[simp] theorem State.setPg_lkUsed (s : State) (n : Fin 8) (p : PeGroup) : (s.setPg n p).lkUsed = s.lkUsed := rfl
@[simp] theorem State.setPg_lkAsk (s : State) (n : Fin 8) (p : PeGroup) : (s.setPg n p).lkAsk = s.lkAsk := rfl
@[simp] theorem State.setPg_eths (s : State) (n : Fin 8) (p : PeGroup) : (s.setPg n p).eths = s.eths := rfl
@[simp] theorem State.setPg_cans (s : State) (n : Fin 8) (p : PeGroup) : (s.setPg n p).cans = s.cans := rfl
@[simp] theorem State.setPg_uarts (s : State) (n : Fin 8) (p : PeGroup) : (s.setPg n p).uarts = s.uarts := rfl
@[simp] theorem State.setPg_boot (s : State) (n : Fin 8) (p : PeGroup) : (s.setPg n p).boot = s.boot := rfl
@[simp] theorem State.setPg_jtag (s : State) (n : Fin 8) (p : PeGroup) : (s.setPg n p).jtag = s.jtag := rfl
@[simp] theorem State.setPg_modeReq (s : State) (n : Fin 8) (p : PeGroup) : (s.setPg n p).modeReq = s.modeReq := rfl
@[simp] theorem State.setPg_shDue (s : State) (n : Fin 8) (p : PeGroup) : (s.setPg n p).shDue = s.shDue := rfl
@[simp] theorem State.setPg_offDue (s : State) (n : Fin 8) (p : PeGroup) : (s.setPg n p).offDue = s.offDue := rfl
@[simp] theorem State.setPg_faultDue (s : State) (n : Fin 8) (p : PeGroup) : (s.setPg n p).faultDue = s.faultDue := rfl
@[simp] theorem State.setPg_clkAt (s : State) (n : Fin 8) (p : PeGroup) : (s.setPg n p).clkAt = s.clkAt := rfl
@[simp] theorem State.setPg_rateDue (s : State) (n : Fin 8) (p : PeGroup) : (s.setPg n p).rateDue = s.rateDue := rfl
@[simp] theorem State.setPg_swfOwn (s : State) (n : Fin 8) (p : PeGroup) : (s.setPg n p).swfOwn = s.swfOwn := rfl
@[simp] theorem State.setPg_bankWorld (s : State) (n : Fin 8) (p : PeGroup) : (s.setPg n p).bankWorld = s.bankWorld := rfl
@[simp] theorem State.setPg_faulted (s : State) (n : Fin 8) (p : PeGroup) : (s.setPg n p).faulted = s.faulted := rfl
@[simp] theorem State.setPg_cycled (s : State) (n : Fin 8) (p : PeGroup) : (s.setPg n p).cycled = s.cycled := rfl
@[simp] theorem State.setPg_tested (s : State) (n : Fin 8) (p : PeGroup) : (s.setPg n p).tested = s.tested := rfl

/-! ## setLink -/

@[simp] theorem State.setLink_pending (s : State) (n : Fin 4) (p : LinkState) : (s.setLink n p).pending = s.pending := rfl
@[simp] theorem State.setLink_now (s : State) (n : Fin 4) (p : LinkState) : (s.setLink n p).now = s.now := rfl
@[simp] theorem State.setLink_free (s : State) (n : Fin 4) (p : LinkState) : (s.setLink n p).free = s.free := rfl
@[simp] theorem State.setLink_due (s : State) (n : Fin 4) (p : LinkState) : (s.setLink n p).due = s.due := rfl
@[simp] theorem State.setLink_regs (s : State) (n : Fin 4) (p : LinkState) : (s.setLink n p).regs = s.regs := rfl
@[simp] theorem State.setLink_hwSet (s : State) (n : Fin 4) (p : LinkState) : (s.setLink n p).hwSet = s.hwSet := rfl
@[simp] theorem State.setLink_wrote (s : State) (n : Fin 4) (p : LinkState) : (s.setLink n p).wrote = s.wrote := rfl
@[simp] theorem State.setLink_resp (s : State) (n : Fin 4) (p : LinkState) : (s.setLink n p).resp = s.resp := rfl
@[simp] theorem State.setLink_active (s : State) (n : Fin 4) (p : LinkState) : (s.setLink n p).active = s.active := rfl
@[simp] theorem State.setLink_shadow (s : State) (n : Fin 4) (p : LinkState) : (s.setLink n p).shadow = s.shadow := rfl
@[simp] theorem State.setLink_swapTick (s : State) (n : Fin 4) (p : LinkState) : (s.setLink n p).swapTick = s.swapTick := rfl
@[simp] theorem State.setLink_swapCut (s : State) (n : Fin 4) (p : LinkState) : (s.setLink n p).swapCut = s.swapCut := rfl
@[simp] theorem State.setLink_framePeriod (s : State) (n : Fin 4) (p : LinkState) : (s.setLink n p).framePeriod = s.framePeriod := rfl
@[simp] theorem State.setLink_lostAt (s : State) (n : Fin 4) (p : LinkState) : (s.setLink n p).lostAt = s.lostAt := rfl
@[simp] theorem State.setLink_tickOut (s : State) (n : Fin 4) (p : LinkState) : (s.setLink n p).tickOut = s.tickOut := rfl
@[simp] theorem State.setLink_markNum (s : State) (n : Fin 4) (p : LinkState) : (s.setLink n p).markNum = s.markNum := rfl
@[simp] theorem State.setLink_slewLeft (s : State) (n : Fin 4) (p : LinkState) : (s.setLink n p).slewLeft = s.slewLeft := rfl
@[simp] theorem State.setLink_otpLoaded (s : State) (n : Fin 4) (p : LinkState) : (s.setLink n p).otpLoaded = s.otpLoaded := rfl
@[simp] theorem State.setLink_ts64 (s : State) (n : Fin 4) (p : LinkState) : (s.setLink n p).ts64 = s.ts64 := rfl
@[simp] theorem State.setLink_snaps (s : State) (n : Fin 4) (p : LinkState) : (s.setLink n p).snaps = s.snaps := rfl
@[simp] theorem State.setLink_pts (s : State) (n : Fin 4) (p : LinkState) : (s.setLink n p).pts = s.pts := rfl
@[simp] theorem State.setLink_gts (s : State) (n : Fin 4) (p : LinkState) : (s.setLink n p).gts = s.gts := rfl
@[simp] theorem State.setLink_holdOvr (s : State) (n : Fin 4) (p : LinkState) : (s.setLink n p).holdOvr = s.holdOvr := rfl
@[simp] theorem State.setLink_holdNew (s : State) (n : Fin 4) (p : LinkState) : (s.setLink n p).holdNew = s.holdNew := rfl
@[simp] theorem State.setLink_holdRed (s : State) (n : Fin 4) (p : LinkState) : (s.setLink n p).holdRed = s.holdRed := rfl
@[simp] theorem State.setLink_holdRedNew (s : State) (n : Fin 4) (p : LinkState) : (s.setLink n p).holdRedNew = s.holdRedNew := rfl
@[simp] theorem State.setLink_holdPins (s : State) (n : Fin 4) (p : LinkState) : (s.setLink n p).holdPins = s.holdPins := rfl
@[simp] theorem State.setLink_adcs (s : State) (n : Fin 4) (p : LinkState) : (s.setLink n p).adcs = s.adcs := rfl
@[simp] theorem State.setLink_reliefs (s : State) (n : Fin 4) (p : LinkState) : (s.setLink n p).reliefs = s.reliefs := rfl
@[simp] theorem State.setLink_sds (s : State) (n : Fin 4) (p : LinkState) : (s.setLink n p).sds = s.sds := rfl
@[simp] theorem State.setLink_cmps (s : State) (n : Fin 4) (p : LinkState) : (s.setLink n p).cmps = s.cmps := rfl
@[simp] theorem State.setLink_fab (s : State) (n : Fin 4) (p : LinkState) : (s.setLink n p).fab = s.fab := rfl
@[simp] theorem State.setLink_cores (s : State) (n : Fin 4) (p : LinkState) : (s.setLink n p).cores = s.cores := rfl
@[simp] theorem State.setLink_pairs (s : State) (n : Fin 4) (p : LinkState) : (s.setLink n p).pairs = s.pairs := rfl
@[simp] theorem State.setLink_entering (s : State) (n : Fin 4) (p : LinkState) : (s.setLink n p).entering = s.entering := rfl
@[simp] theorem State.setLink_mem (s : State) (n : Fin 4) (p : LinkState) : (s.setLink n p).mem = s.mem := rfl
@[simp] theorem State.setLink_poison (s : State) (n : Fin 4) (p : LinkState) : (s.setLink n p).poison = s.poison := rfl
@[simp] theorem State.setLink_rebind (s : State) (n : Fin 4) (p : LinkState) : (s.setLink n p).rebind = s.rebind := rfl
@[simp] theorem State.setLink_ecc (s : State) (n : Fin 4) (p : LinkState) : (s.setLink n p).ecc = s.ecc := rfl
@[simp] theorem State.setLink_eccNew (s : State) (n : Fin 4) (p : LinkState) : (s.setLink n p).eccNew = s.eccNew := rfl
@[simp] theorem State.setLink_wbq (s : State) (n : Fin 4) (p : LinkState) : (s.setLink n p).wbq = s.wbq := rfl
@[simp] theorem State.setLink_remap (s : State) (n : Fin 4) (p : LinkState) : (s.setLink n p).remap = s.remap := rfl
@[simp] theorem State.setLink_collided (s : State) (n : Fin 4) (p : LinkState) : (s.setLink n p).collided = s.collided := rfl
@[simp] theorem State.setLink_dmas (s : State) (n : Fin 4) (p : LinkState) : (s.setLink n p).dmas = s.dmas := rfl
@[simp] theorem State.setLink_sparges (s : State) (n : Fin 4) (p : LinkState) : (s.setLink n p).sparges = s.sparges := rfl
@[simp] theorem State.setLink_flash (s : State) (n : Fin 4) (p : LinkState) : (s.setLink n p).flash = s.flash := rfl
@[simp] theorem State.setLink_flUndef (s : State) (n : Fin 4) (p : LinkState) : (s.setLink n p).flUndef = s.flUndef := rfl
@[simp] theorem State.setLink_flEcc (s : State) (n : Fin 4) (p : LinkState) : (s.setLink n p).flEcc = s.flEcc := rfl
@[simp] theorem State.setLink_flProg (s : State) (n : Fin 4) (p : LinkState) : (s.setLink n p).flProg = s.flProg := rfl
@[simp] theorem State.setLink_flBanks (s : State) (n : Fin 4) (p : LinkState) : (s.setLink n p).flBanks = s.flBanks := rfl
@[simp] theorem State.setLink_dfSecs (s : State) (n : Fin 4) (p : LinkState) : (s.setLink n p).dfSecs = s.dfSecs := rfl
@[simp] theorem State.setLink_dfQueue (s : State) (n : Fin 4) (p : LinkState) : (s.setLink n p).dfQueue = s.dfQueue := rfl
@[simp] theorem State.setLink_dfBg (s : State) (n : Fin 4) (p : LinkState) : (s.setLink n p).dfBg = s.dfBg := rfl
@[simp] theorem State.setLink_dfSeq (s : State) (n : Fin 4) (p : LinkState) : (s.setLink n p).dfSeq = s.dfSeq := rfl
@[simp] theorem State.setLink_dfTop (s : State) (n : Fin 4) (p : LinkState) : (s.setLink n p).dfTop = s.dfTop := rfl
@[simp] theorem State.setLink_prot (s : State) (n : Fin 4) (p : LinkState) : (s.setLink n p).prot = s.prot := rfl
@[simp] theorem State.setLink_protPend (s : State) (n : Fin 4) (p : LinkState) : (s.setLink n p).protPend = s.protPend := rfl
@[simp] theorem State.setLink_protNew (s : State) (n : Fin 4) (p : LinkState) : (s.setLink n p).protNew = s.protNew := rfl
@[simp] theorem State.setLink_otp (s : State) (n : Fin 4) (p : LinkState) : (s.setLink n p).otp = s.otp := rfl
@[simp] theorem State.setLink_otpOp (s : State) (n : Fin 4) (p : LinkState) : (s.setLink n p).otpOp = s.otpOp := rfl
@[simp] theorem State.setLink_pes (s : State) (n : Fin 4) (p : LinkState) : (s.setLink n p).pes = s.pes := rfl
@[simp] theorem State.setLink_pio (s : State) (n : Fin 4) (p : LinkState) : (s.setLink n p).pio = s.pio := rfl
@[simp] theorem State.setLink_oz (s : State) (n : Fin 4) (p : LinkState) : (s.setLink n p).oz = s.oz := rfl
@[simp] theorem State.setLink_remotes (s : State) (n : Fin 4) (p : LinkState) : (s.setLink n p).remotes = s.remotes := rfl
@[simp] theorem State.setLink_stalls (s : State) (n : Fin 4) (p : LinkState) : (s.setLink n p).stalls = s.stalls := rfl
@[simp] theorem State.setLink_nextTag (s : State) (n : Fin 4) (p : LinkState) : (s.setLink n p).nextTag = s.nextTag := rfl
@[simp] theorem State.setLink_lkUsed (s : State) (n : Fin 4) (p : LinkState) : (s.setLink n p).lkUsed = s.lkUsed := rfl
@[simp] theorem State.setLink_lkAsk (s : State) (n : Fin 4) (p : LinkState) : (s.setLink n p).lkAsk = s.lkAsk := rfl
@[simp] theorem State.setLink_eths (s : State) (n : Fin 4) (p : LinkState) : (s.setLink n p).eths = s.eths := rfl
@[simp] theorem State.setLink_cans (s : State) (n : Fin 4) (p : LinkState) : (s.setLink n p).cans = s.cans := rfl
@[simp] theorem State.setLink_uarts (s : State) (n : Fin 4) (p : LinkState) : (s.setLink n p).uarts = s.uarts := rfl
@[simp] theorem State.setLink_boot (s : State) (n : Fin 4) (p : LinkState) : (s.setLink n p).boot = s.boot := rfl
@[simp] theorem State.setLink_jtag (s : State) (n : Fin 4) (p : LinkState) : (s.setLink n p).jtag = s.jtag := rfl
@[simp] theorem State.setLink_modeReq (s : State) (n : Fin 4) (p : LinkState) : (s.setLink n p).modeReq = s.modeReq := rfl
@[simp] theorem State.setLink_shDue (s : State) (n : Fin 4) (p : LinkState) : (s.setLink n p).shDue = s.shDue := rfl
@[simp] theorem State.setLink_offDue (s : State) (n : Fin 4) (p : LinkState) : (s.setLink n p).offDue = s.offDue := rfl
@[simp] theorem State.setLink_faultDue (s : State) (n : Fin 4) (p : LinkState) : (s.setLink n p).faultDue = s.faultDue := rfl
@[simp] theorem State.setLink_clkAt (s : State) (n : Fin 4) (p : LinkState) : (s.setLink n p).clkAt = s.clkAt := rfl
@[simp] theorem State.setLink_rateDue (s : State) (n : Fin 4) (p : LinkState) : (s.setLink n p).rateDue = s.rateDue := rfl
@[simp] theorem State.setLink_swfOwn (s : State) (n : Fin 4) (p : LinkState) : (s.setLink n p).swfOwn = s.swfOwn := rfl
@[simp] theorem State.setLink_bankWorld (s : State) (n : Fin 4) (p : LinkState) : (s.setLink n p).bankWorld = s.bankWorld := rfl
@[simp] theorem State.setLink_faulted (s : State) (n : Fin 4) (p : LinkState) : (s.setLink n p).faulted = s.faulted := rfl
@[simp] theorem State.setLink_cycled (s : State) (n : Fin 4) (p : LinkState) : (s.setLink n p).cycled = s.cycled := rfl
@[simp] theorem State.setLink_tested (s : State) (n : Fin 4) (p : LinkState) : (s.setLink n p).tested = s.tested := rfl

/-! ## setEth -/

@[simp] theorem State.setEth_pending (s : State) (n : Fin 2) (p : RingState) : (s.setEth n p).pending = s.pending := rfl
@[simp] theorem State.setEth_now (s : State) (n : Fin 2) (p : RingState) : (s.setEth n p).now = s.now := rfl
@[simp] theorem State.setEth_free (s : State) (n : Fin 2) (p : RingState) : (s.setEth n p).free = s.free := rfl
@[simp] theorem State.setEth_due (s : State) (n : Fin 2) (p : RingState) : (s.setEth n p).due = s.due := rfl
@[simp] theorem State.setEth_regs (s : State) (n : Fin 2) (p : RingState) : (s.setEth n p).regs = s.regs := rfl
@[simp] theorem State.setEth_hwSet (s : State) (n : Fin 2) (p : RingState) : (s.setEth n p).hwSet = s.hwSet := rfl
@[simp] theorem State.setEth_wrote (s : State) (n : Fin 2) (p : RingState) : (s.setEth n p).wrote = s.wrote := rfl
@[simp] theorem State.setEth_resp (s : State) (n : Fin 2) (p : RingState) : (s.setEth n p).resp = s.resp := rfl
@[simp] theorem State.setEth_active (s : State) (n : Fin 2) (p : RingState) : (s.setEth n p).active = s.active := rfl
@[simp] theorem State.setEth_shadow (s : State) (n : Fin 2) (p : RingState) : (s.setEth n p).shadow = s.shadow := rfl
@[simp] theorem State.setEth_swapTick (s : State) (n : Fin 2) (p : RingState) : (s.setEth n p).swapTick = s.swapTick := rfl
@[simp] theorem State.setEth_swapCut (s : State) (n : Fin 2) (p : RingState) : (s.setEth n p).swapCut = s.swapCut := rfl
@[simp] theorem State.setEth_framePeriod (s : State) (n : Fin 2) (p : RingState) : (s.setEth n p).framePeriod = s.framePeriod := rfl
@[simp] theorem State.setEth_lostAt (s : State) (n : Fin 2) (p : RingState) : (s.setEth n p).lostAt = s.lostAt := rfl
@[simp] theorem State.setEth_tickOut (s : State) (n : Fin 2) (p : RingState) : (s.setEth n p).tickOut = s.tickOut := rfl
@[simp] theorem State.setEth_markNum (s : State) (n : Fin 2) (p : RingState) : (s.setEth n p).markNum = s.markNum := rfl
@[simp] theorem State.setEth_slewLeft (s : State) (n : Fin 2) (p : RingState) : (s.setEth n p).slewLeft = s.slewLeft := rfl
@[simp] theorem State.setEth_otpLoaded (s : State) (n : Fin 2) (p : RingState) : (s.setEth n p).otpLoaded = s.otpLoaded := rfl
@[simp] theorem State.setEth_ts64 (s : State) (n : Fin 2) (p : RingState) : (s.setEth n p).ts64 = s.ts64 := rfl
@[simp] theorem State.setEth_snaps (s : State) (n : Fin 2) (p : RingState) : (s.setEth n p).snaps = s.snaps := rfl
@[simp] theorem State.setEth_pts (s : State) (n : Fin 2) (p : RingState) : (s.setEth n p).pts = s.pts := rfl
@[simp] theorem State.setEth_gts (s : State) (n : Fin 2) (p : RingState) : (s.setEth n p).gts = s.gts := rfl
@[simp] theorem State.setEth_holdOvr (s : State) (n : Fin 2) (p : RingState) : (s.setEth n p).holdOvr = s.holdOvr := rfl
@[simp] theorem State.setEth_holdNew (s : State) (n : Fin 2) (p : RingState) : (s.setEth n p).holdNew = s.holdNew := rfl
@[simp] theorem State.setEth_holdRed (s : State) (n : Fin 2) (p : RingState) : (s.setEth n p).holdRed = s.holdRed := rfl
@[simp] theorem State.setEth_holdRedNew (s : State) (n : Fin 2) (p : RingState) : (s.setEth n p).holdRedNew = s.holdRedNew := rfl
@[simp] theorem State.setEth_holdPins (s : State) (n : Fin 2) (p : RingState) : (s.setEth n p).holdPins = s.holdPins := rfl
@[simp] theorem State.setEth_adcs (s : State) (n : Fin 2) (p : RingState) : (s.setEth n p).adcs = s.adcs := rfl
@[simp] theorem State.setEth_reliefs (s : State) (n : Fin 2) (p : RingState) : (s.setEth n p).reliefs = s.reliefs := rfl
@[simp] theorem State.setEth_sds (s : State) (n : Fin 2) (p : RingState) : (s.setEth n p).sds = s.sds := rfl
@[simp] theorem State.setEth_cmps (s : State) (n : Fin 2) (p : RingState) : (s.setEth n p).cmps = s.cmps := rfl
@[simp] theorem State.setEth_fab (s : State) (n : Fin 2) (p : RingState) : (s.setEth n p).fab = s.fab := rfl
@[simp] theorem State.setEth_cores (s : State) (n : Fin 2) (p : RingState) : (s.setEth n p).cores = s.cores := rfl
@[simp] theorem State.setEth_pairs (s : State) (n : Fin 2) (p : RingState) : (s.setEth n p).pairs = s.pairs := rfl
@[simp] theorem State.setEth_entering (s : State) (n : Fin 2) (p : RingState) : (s.setEth n p).entering = s.entering := rfl
@[simp] theorem State.setEth_mem (s : State) (n : Fin 2) (p : RingState) : (s.setEth n p).mem = s.mem := rfl
@[simp] theorem State.setEth_poison (s : State) (n : Fin 2) (p : RingState) : (s.setEth n p).poison = s.poison := rfl
@[simp] theorem State.setEth_rebind (s : State) (n : Fin 2) (p : RingState) : (s.setEth n p).rebind = s.rebind := rfl
@[simp] theorem State.setEth_ecc (s : State) (n : Fin 2) (p : RingState) : (s.setEth n p).ecc = s.ecc := rfl
@[simp] theorem State.setEth_eccNew (s : State) (n : Fin 2) (p : RingState) : (s.setEth n p).eccNew = s.eccNew := rfl
@[simp] theorem State.setEth_wbq (s : State) (n : Fin 2) (p : RingState) : (s.setEth n p).wbq = s.wbq := rfl
@[simp] theorem State.setEth_remap (s : State) (n : Fin 2) (p : RingState) : (s.setEth n p).remap = s.remap := rfl
@[simp] theorem State.setEth_collided (s : State) (n : Fin 2) (p : RingState) : (s.setEth n p).collided = s.collided := rfl
@[simp] theorem State.setEth_dmas (s : State) (n : Fin 2) (p : RingState) : (s.setEth n p).dmas = s.dmas := rfl
@[simp] theorem State.setEth_sparges (s : State) (n : Fin 2) (p : RingState) : (s.setEth n p).sparges = s.sparges := rfl
@[simp] theorem State.setEth_flash (s : State) (n : Fin 2) (p : RingState) : (s.setEth n p).flash = s.flash := rfl
@[simp] theorem State.setEth_flUndef (s : State) (n : Fin 2) (p : RingState) : (s.setEth n p).flUndef = s.flUndef := rfl
@[simp] theorem State.setEth_flEcc (s : State) (n : Fin 2) (p : RingState) : (s.setEth n p).flEcc = s.flEcc := rfl
@[simp] theorem State.setEth_flProg (s : State) (n : Fin 2) (p : RingState) : (s.setEth n p).flProg = s.flProg := rfl
@[simp] theorem State.setEth_flBanks (s : State) (n : Fin 2) (p : RingState) : (s.setEth n p).flBanks = s.flBanks := rfl
@[simp] theorem State.setEth_dfSecs (s : State) (n : Fin 2) (p : RingState) : (s.setEth n p).dfSecs = s.dfSecs := rfl
@[simp] theorem State.setEth_dfQueue (s : State) (n : Fin 2) (p : RingState) : (s.setEth n p).dfQueue = s.dfQueue := rfl
@[simp] theorem State.setEth_dfBg (s : State) (n : Fin 2) (p : RingState) : (s.setEth n p).dfBg = s.dfBg := rfl
@[simp] theorem State.setEth_dfSeq (s : State) (n : Fin 2) (p : RingState) : (s.setEth n p).dfSeq = s.dfSeq := rfl
@[simp] theorem State.setEth_dfTop (s : State) (n : Fin 2) (p : RingState) : (s.setEth n p).dfTop = s.dfTop := rfl
@[simp] theorem State.setEth_prot (s : State) (n : Fin 2) (p : RingState) : (s.setEth n p).prot = s.prot := rfl
@[simp] theorem State.setEth_protPend (s : State) (n : Fin 2) (p : RingState) : (s.setEth n p).protPend = s.protPend := rfl
@[simp] theorem State.setEth_protNew (s : State) (n : Fin 2) (p : RingState) : (s.setEth n p).protNew = s.protNew := rfl
@[simp] theorem State.setEth_otp (s : State) (n : Fin 2) (p : RingState) : (s.setEth n p).otp = s.otp := rfl
@[simp] theorem State.setEth_otpOp (s : State) (n : Fin 2) (p : RingState) : (s.setEth n p).otpOp = s.otpOp := rfl
@[simp] theorem State.setEth_pes (s : State) (n : Fin 2) (p : RingState) : (s.setEth n p).pes = s.pes := rfl
@[simp] theorem State.setEth_pio (s : State) (n : Fin 2) (p : RingState) : (s.setEth n p).pio = s.pio := rfl
@[simp] theorem State.setEth_oz (s : State) (n : Fin 2) (p : RingState) : (s.setEth n p).oz = s.oz := rfl
@[simp] theorem State.setEth_links (s : State) (n : Fin 2) (p : RingState) : (s.setEth n p).links = s.links := rfl
@[simp] theorem State.setEth_remotes (s : State) (n : Fin 2) (p : RingState) : (s.setEth n p).remotes = s.remotes := rfl
@[simp] theorem State.setEth_stalls (s : State) (n : Fin 2) (p : RingState) : (s.setEth n p).stalls = s.stalls := rfl
@[simp] theorem State.setEth_nextTag (s : State) (n : Fin 2) (p : RingState) : (s.setEth n p).nextTag = s.nextTag := rfl
@[simp] theorem State.setEth_lkUsed (s : State) (n : Fin 2) (p : RingState) : (s.setEth n p).lkUsed = s.lkUsed := rfl
@[simp] theorem State.setEth_lkAsk (s : State) (n : Fin 2) (p : RingState) : (s.setEth n p).lkAsk = s.lkAsk := rfl
@[simp] theorem State.setEth_cans (s : State) (n : Fin 2) (p : RingState) : (s.setEth n p).cans = s.cans := rfl
@[simp] theorem State.setEth_uarts (s : State) (n : Fin 2) (p : RingState) : (s.setEth n p).uarts = s.uarts := rfl
@[simp] theorem State.setEth_boot (s : State) (n : Fin 2) (p : RingState) : (s.setEth n p).boot = s.boot := rfl
@[simp] theorem State.setEth_jtag (s : State) (n : Fin 2) (p : RingState) : (s.setEth n p).jtag = s.jtag := rfl
@[simp] theorem State.setEth_modeReq (s : State) (n : Fin 2) (p : RingState) : (s.setEth n p).modeReq = s.modeReq := rfl
@[simp] theorem State.setEth_shDue (s : State) (n : Fin 2) (p : RingState) : (s.setEth n p).shDue = s.shDue := rfl
@[simp] theorem State.setEth_offDue (s : State) (n : Fin 2) (p : RingState) : (s.setEth n p).offDue = s.offDue := rfl
@[simp] theorem State.setEth_faultDue (s : State) (n : Fin 2) (p : RingState) : (s.setEth n p).faultDue = s.faultDue := rfl
@[simp] theorem State.setEth_clkAt (s : State) (n : Fin 2) (p : RingState) : (s.setEth n p).clkAt = s.clkAt := rfl
@[simp] theorem State.setEth_rateDue (s : State) (n : Fin 2) (p : RingState) : (s.setEth n p).rateDue = s.rateDue := rfl
@[simp] theorem State.setEth_swfOwn (s : State) (n : Fin 2) (p : RingState) : (s.setEth n p).swfOwn = s.swfOwn := rfl
@[simp] theorem State.setEth_bankWorld (s : State) (n : Fin 2) (p : RingState) : (s.setEth n p).bankWorld = s.bankWorld := rfl
@[simp] theorem State.setEth_faulted (s : State) (n : Fin 2) (p : RingState) : (s.setEth n p).faulted = s.faulted := rfl
@[simp] theorem State.setEth_cycled (s : State) (n : Fin 2) (p : RingState) : (s.setEth n p).cycled = s.cycled := rfl
@[simp] theorem State.setEth_tested (s : State) (n : Fin 2) (p : RingState) : (s.setEth n p).tested = s.tested := rfl

/-! ## setCan -/

@[simp] theorem State.setCan_pending (s : State) (n : Fin 6) (p : RingState) : (s.setCan n p).pending = s.pending := rfl
@[simp] theorem State.setCan_now (s : State) (n : Fin 6) (p : RingState) : (s.setCan n p).now = s.now := rfl
@[simp] theorem State.setCan_free (s : State) (n : Fin 6) (p : RingState) : (s.setCan n p).free = s.free := rfl
@[simp] theorem State.setCan_due (s : State) (n : Fin 6) (p : RingState) : (s.setCan n p).due = s.due := rfl
@[simp] theorem State.setCan_regs (s : State) (n : Fin 6) (p : RingState) : (s.setCan n p).regs = s.regs := rfl
@[simp] theorem State.setCan_hwSet (s : State) (n : Fin 6) (p : RingState) : (s.setCan n p).hwSet = s.hwSet := rfl
@[simp] theorem State.setCan_wrote (s : State) (n : Fin 6) (p : RingState) : (s.setCan n p).wrote = s.wrote := rfl
@[simp] theorem State.setCan_resp (s : State) (n : Fin 6) (p : RingState) : (s.setCan n p).resp = s.resp := rfl
@[simp] theorem State.setCan_active (s : State) (n : Fin 6) (p : RingState) : (s.setCan n p).active = s.active := rfl
@[simp] theorem State.setCan_shadow (s : State) (n : Fin 6) (p : RingState) : (s.setCan n p).shadow = s.shadow := rfl
@[simp] theorem State.setCan_swapTick (s : State) (n : Fin 6) (p : RingState) : (s.setCan n p).swapTick = s.swapTick := rfl
@[simp] theorem State.setCan_swapCut (s : State) (n : Fin 6) (p : RingState) : (s.setCan n p).swapCut = s.swapCut := rfl
@[simp] theorem State.setCan_framePeriod (s : State) (n : Fin 6) (p : RingState) : (s.setCan n p).framePeriod = s.framePeriod := rfl
@[simp] theorem State.setCan_lostAt (s : State) (n : Fin 6) (p : RingState) : (s.setCan n p).lostAt = s.lostAt := rfl
@[simp] theorem State.setCan_tickOut (s : State) (n : Fin 6) (p : RingState) : (s.setCan n p).tickOut = s.tickOut := rfl
@[simp] theorem State.setCan_markNum (s : State) (n : Fin 6) (p : RingState) : (s.setCan n p).markNum = s.markNum := rfl
@[simp] theorem State.setCan_slewLeft (s : State) (n : Fin 6) (p : RingState) : (s.setCan n p).slewLeft = s.slewLeft := rfl
@[simp] theorem State.setCan_otpLoaded (s : State) (n : Fin 6) (p : RingState) : (s.setCan n p).otpLoaded = s.otpLoaded := rfl
@[simp] theorem State.setCan_ts64 (s : State) (n : Fin 6) (p : RingState) : (s.setCan n p).ts64 = s.ts64 := rfl
@[simp] theorem State.setCan_snaps (s : State) (n : Fin 6) (p : RingState) : (s.setCan n p).snaps = s.snaps := rfl
@[simp] theorem State.setCan_pts (s : State) (n : Fin 6) (p : RingState) : (s.setCan n p).pts = s.pts := rfl
@[simp] theorem State.setCan_gts (s : State) (n : Fin 6) (p : RingState) : (s.setCan n p).gts = s.gts := rfl
@[simp] theorem State.setCan_holdOvr (s : State) (n : Fin 6) (p : RingState) : (s.setCan n p).holdOvr = s.holdOvr := rfl
@[simp] theorem State.setCan_holdNew (s : State) (n : Fin 6) (p : RingState) : (s.setCan n p).holdNew = s.holdNew := rfl
@[simp] theorem State.setCan_holdRed (s : State) (n : Fin 6) (p : RingState) : (s.setCan n p).holdRed = s.holdRed := rfl
@[simp] theorem State.setCan_holdRedNew (s : State) (n : Fin 6) (p : RingState) : (s.setCan n p).holdRedNew = s.holdRedNew := rfl
@[simp] theorem State.setCan_holdPins (s : State) (n : Fin 6) (p : RingState) : (s.setCan n p).holdPins = s.holdPins := rfl
@[simp] theorem State.setCan_adcs (s : State) (n : Fin 6) (p : RingState) : (s.setCan n p).adcs = s.adcs := rfl
@[simp] theorem State.setCan_reliefs (s : State) (n : Fin 6) (p : RingState) : (s.setCan n p).reliefs = s.reliefs := rfl
@[simp] theorem State.setCan_sds (s : State) (n : Fin 6) (p : RingState) : (s.setCan n p).sds = s.sds := rfl
@[simp] theorem State.setCan_cmps (s : State) (n : Fin 6) (p : RingState) : (s.setCan n p).cmps = s.cmps := rfl
@[simp] theorem State.setCan_fab (s : State) (n : Fin 6) (p : RingState) : (s.setCan n p).fab = s.fab := rfl
@[simp] theorem State.setCan_cores (s : State) (n : Fin 6) (p : RingState) : (s.setCan n p).cores = s.cores := rfl
@[simp] theorem State.setCan_pairs (s : State) (n : Fin 6) (p : RingState) : (s.setCan n p).pairs = s.pairs := rfl
@[simp] theorem State.setCan_entering (s : State) (n : Fin 6) (p : RingState) : (s.setCan n p).entering = s.entering := rfl
@[simp] theorem State.setCan_mem (s : State) (n : Fin 6) (p : RingState) : (s.setCan n p).mem = s.mem := rfl
@[simp] theorem State.setCan_poison (s : State) (n : Fin 6) (p : RingState) : (s.setCan n p).poison = s.poison := rfl
@[simp] theorem State.setCan_rebind (s : State) (n : Fin 6) (p : RingState) : (s.setCan n p).rebind = s.rebind := rfl
@[simp] theorem State.setCan_ecc (s : State) (n : Fin 6) (p : RingState) : (s.setCan n p).ecc = s.ecc := rfl
@[simp] theorem State.setCan_eccNew (s : State) (n : Fin 6) (p : RingState) : (s.setCan n p).eccNew = s.eccNew := rfl
@[simp] theorem State.setCan_wbq (s : State) (n : Fin 6) (p : RingState) : (s.setCan n p).wbq = s.wbq := rfl
@[simp] theorem State.setCan_remap (s : State) (n : Fin 6) (p : RingState) : (s.setCan n p).remap = s.remap := rfl
@[simp] theorem State.setCan_collided (s : State) (n : Fin 6) (p : RingState) : (s.setCan n p).collided = s.collided := rfl
@[simp] theorem State.setCan_dmas (s : State) (n : Fin 6) (p : RingState) : (s.setCan n p).dmas = s.dmas := rfl
@[simp] theorem State.setCan_sparges (s : State) (n : Fin 6) (p : RingState) : (s.setCan n p).sparges = s.sparges := rfl
@[simp] theorem State.setCan_flash (s : State) (n : Fin 6) (p : RingState) : (s.setCan n p).flash = s.flash := rfl
@[simp] theorem State.setCan_flUndef (s : State) (n : Fin 6) (p : RingState) : (s.setCan n p).flUndef = s.flUndef := rfl
@[simp] theorem State.setCan_flEcc (s : State) (n : Fin 6) (p : RingState) : (s.setCan n p).flEcc = s.flEcc := rfl
@[simp] theorem State.setCan_flProg (s : State) (n : Fin 6) (p : RingState) : (s.setCan n p).flProg = s.flProg := rfl
@[simp] theorem State.setCan_flBanks (s : State) (n : Fin 6) (p : RingState) : (s.setCan n p).flBanks = s.flBanks := rfl
@[simp] theorem State.setCan_dfSecs (s : State) (n : Fin 6) (p : RingState) : (s.setCan n p).dfSecs = s.dfSecs := rfl
@[simp] theorem State.setCan_dfQueue (s : State) (n : Fin 6) (p : RingState) : (s.setCan n p).dfQueue = s.dfQueue := rfl
@[simp] theorem State.setCan_dfBg (s : State) (n : Fin 6) (p : RingState) : (s.setCan n p).dfBg = s.dfBg := rfl
@[simp] theorem State.setCan_dfSeq (s : State) (n : Fin 6) (p : RingState) : (s.setCan n p).dfSeq = s.dfSeq := rfl
@[simp] theorem State.setCan_dfTop (s : State) (n : Fin 6) (p : RingState) : (s.setCan n p).dfTop = s.dfTop := rfl
@[simp] theorem State.setCan_prot (s : State) (n : Fin 6) (p : RingState) : (s.setCan n p).prot = s.prot := rfl
@[simp] theorem State.setCan_protPend (s : State) (n : Fin 6) (p : RingState) : (s.setCan n p).protPend = s.protPend := rfl
@[simp] theorem State.setCan_protNew (s : State) (n : Fin 6) (p : RingState) : (s.setCan n p).protNew = s.protNew := rfl
@[simp] theorem State.setCan_otp (s : State) (n : Fin 6) (p : RingState) : (s.setCan n p).otp = s.otp := rfl
@[simp] theorem State.setCan_otpOp (s : State) (n : Fin 6) (p : RingState) : (s.setCan n p).otpOp = s.otpOp := rfl
@[simp] theorem State.setCan_pes (s : State) (n : Fin 6) (p : RingState) : (s.setCan n p).pes = s.pes := rfl
@[simp] theorem State.setCan_pio (s : State) (n : Fin 6) (p : RingState) : (s.setCan n p).pio = s.pio := rfl
@[simp] theorem State.setCan_oz (s : State) (n : Fin 6) (p : RingState) : (s.setCan n p).oz = s.oz := rfl
@[simp] theorem State.setCan_links (s : State) (n : Fin 6) (p : RingState) : (s.setCan n p).links = s.links := rfl
@[simp] theorem State.setCan_remotes (s : State) (n : Fin 6) (p : RingState) : (s.setCan n p).remotes = s.remotes := rfl
@[simp] theorem State.setCan_stalls (s : State) (n : Fin 6) (p : RingState) : (s.setCan n p).stalls = s.stalls := rfl
@[simp] theorem State.setCan_nextTag (s : State) (n : Fin 6) (p : RingState) : (s.setCan n p).nextTag = s.nextTag := rfl
@[simp] theorem State.setCan_lkUsed (s : State) (n : Fin 6) (p : RingState) : (s.setCan n p).lkUsed = s.lkUsed := rfl
@[simp] theorem State.setCan_lkAsk (s : State) (n : Fin 6) (p : RingState) : (s.setCan n p).lkAsk = s.lkAsk := rfl
@[simp] theorem State.setCan_eths (s : State) (n : Fin 6) (p : RingState) : (s.setCan n p).eths = s.eths := rfl
@[simp] theorem State.setCan_uarts (s : State) (n : Fin 6) (p : RingState) : (s.setCan n p).uarts = s.uarts := rfl
@[simp] theorem State.setCan_boot (s : State) (n : Fin 6) (p : RingState) : (s.setCan n p).boot = s.boot := rfl
@[simp] theorem State.setCan_jtag (s : State) (n : Fin 6) (p : RingState) : (s.setCan n p).jtag = s.jtag := rfl
@[simp] theorem State.setCan_modeReq (s : State) (n : Fin 6) (p : RingState) : (s.setCan n p).modeReq = s.modeReq := rfl
@[simp] theorem State.setCan_shDue (s : State) (n : Fin 6) (p : RingState) : (s.setCan n p).shDue = s.shDue := rfl
@[simp] theorem State.setCan_offDue (s : State) (n : Fin 6) (p : RingState) : (s.setCan n p).offDue = s.offDue := rfl
@[simp] theorem State.setCan_faultDue (s : State) (n : Fin 6) (p : RingState) : (s.setCan n p).faultDue = s.faultDue := rfl
@[simp] theorem State.setCan_clkAt (s : State) (n : Fin 6) (p : RingState) : (s.setCan n p).clkAt = s.clkAt := rfl
@[simp] theorem State.setCan_rateDue (s : State) (n : Fin 6) (p : RingState) : (s.setCan n p).rateDue = s.rateDue := rfl
@[simp] theorem State.setCan_swfOwn (s : State) (n : Fin 6) (p : RingState) : (s.setCan n p).swfOwn = s.swfOwn := rfl
@[simp] theorem State.setCan_bankWorld (s : State) (n : Fin 6) (p : RingState) : (s.setCan n p).bankWorld = s.bankWorld := rfl
@[simp] theorem State.setCan_faulted (s : State) (n : Fin 6) (p : RingState) : (s.setCan n p).faulted = s.faulted := rfl
@[simp] theorem State.setCan_cycled (s : State) (n : Fin 6) (p : RingState) : (s.setCan n p).cycled = s.cycled := rfl
@[simp] theorem State.setCan_tested (s : State) (n : Fin 6) (p : RingState) : (s.setCan n p).tested = s.tested := rfl

/-! ## setUart -/

@[simp] theorem State.setUart_pending (s : State) (n : Fin 3) (p : UartState) : (s.setUart n p).pending = s.pending := rfl
@[simp] theorem State.setUart_now (s : State) (n : Fin 3) (p : UartState) : (s.setUart n p).now = s.now := rfl
@[simp] theorem State.setUart_free (s : State) (n : Fin 3) (p : UartState) : (s.setUart n p).free = s.free := rfl
@[simp] theorem State.setUart_due (s : State) (n : Fin 3) (p : UartState) : (s.setUart n p).due = s.due := rfl
@[simp] theorem State.setUart_regs (s : State) (n : Fin 3) (p : UartState) : (s.setUart n p).regs = s.regs := rfl
@[simp] theorem State.setUart_hwSet (s : State) (n : Fin 3) (p : UartState) : (s.setUart n p).hwSet = s.hwSet := rfl
@[simp] theorem State.setUart_wrote (s : State) (n : Fin 3) (p : UartState) : (s.setUart n p).wrote = s.wrote := rfl
@[simp] theorem State.setUart_resp (s : State) (n : Fin 3) (p : UartState) : (s.setUart n p).resp = s.resp := rfl
@[simp] theorem State.setUart_active (s : State) (n : Fin 3) (p : UartState) : (s.setUart n p).active = s.active := rfl
@[simp] theorem State.setUart_shadow (s : State) (n : Fin 3) (p : UartState) : (s.setUart n p).shadow = s.shadow := rfl
@[simp] theorem State.setUart_swapTick (s : State) (n : Fin 3) (p : UartState) : (s.setUart n p).swapTick = s.swapTick := rfl
@[simp] theorem State.setUart_swapCut (s : State) (n : Fin 3) (p : UartState) : (s.setUart n p).swapCut = s.swapCut := rfl
@[simp] theorem State.setUart_framePeriod (s : State) (n : Fin 3) (p : UartState) : (s.setUart n p).framePeriod = s.framePeriod := rfl
@[simp] theorem State.setUart_lostAt (s : State) (n : Fin 3) (p : UartState) : (s.setUart n p).lostAt = s.lostAt := rfl
@[simp] theorem State.setUart_tickOut (s : State) (n : Fin 3) (p : UartState) : (s.setUart n p).tickOut = s.tickOut := rfl
@[simp] theorem State.setUart_markNum (s : State) (n : Fin 3) (p : UartState) : (s.setUart n p).markNum = s.markNum := rfl
@[simp] theorem State.setUart_slewLeft (s : State) (n : Fin 3) (p : UartState) : (s.setUart n p).slewLeft = s.slewLeft := rfl
@[simp] theorem State.setUart_otpLoaded (s : State) (n : Fin 3) (p : UartState) : (s.setUart n p).otpLoaded = s.otpLoaded := rfl
@[simp] theorem State.setUart_ts64 (s : State) (n : Fin 3) (p : UartState) : (s.setUart n p).ts64 = s.ts64 := rfl
@[simp] theorem State.setUart_snaps (s : State) (n : Fin 3) (p : UartState) : (s.setUart n p).snaps = s.snaps := rfl
@[simp] theorem State.setUart_pts (s : State) (n : Fin 3) (p : UartState) : (s.setUart n p).pts = s.pts := rfl
@[simp] theorem State.setUart_gts (s : State) (n : Fin 3) (p : UartState) : (s.setUart n p).gts = s.gts := rfl
@[simp] theorem State.setUart_holdOvr (s : State) (n : Fin 3) (p : UartState) : (s.setUart n p).holdOvr = s.holdOvr := rfl
@[simp] theorem State.setUart_holdNew (s : State) (n : Fin 3) (p : UartState) : (s.setUart n p).holdNew = s.holdNew := rfl
@[simp] theorem State.setUart_holdRed (s : State) (n : Fin 3) (p : UartState) : (s.setUart n p).holdRed = s.holdRed := rfl
@[simp] theorem State.setUart_holdRedNew (s : State) (n : Fin 3) (p : UartState) : (s.setUart n p).holdRedNew = s.holdRedNew := rfl
@[simp] theorem State.setUart_holdPins (s : State) (n : Fin 3) (p : UartState) : (s.setUart n p).holdPins = s.holdPins := rfl
@[simp] theorem State.setUart_adcs (s : State) (n : Fin 3) (p : UartState) : (s.setUart n p).adcs = s.adcs := rfl
@[simp] theorem State.setUart_reliefs (s : State) (n : Fin 3) (p : UartState) : (s.setUart n p).reliefs = s.reliefs := rfl
@[simp] theorem State.setUart_sds (s : State) (n : Fin 3) (p : UartState) : (s.setUart n p).sds = s.sds := rfl
@[simp] theorem State.setUart_cmps (s : State) (n : Fin 3) (p : UartState) : (s.setUart n p).cmps = s.cmps := rfl
@[simp] theorem State.setUart_fab (s : State) (n : Fin 3) (p : UartState) : (s.setUart n p).fab = s.fab := rfl
@[simp] theorem State.setUart_cores (s : State) (n : Fin 3) (p : UartState) : (s.setUart n p).cores = s.cores := rfl
@[simp] theorem State.setUart_pairs (s : State) (n : Fin 3) (p : UartState) : (s.setUart n p).pairs = s.pairs := rfl
@[simp] theorem State.setUart_entering (s : State) (n : Fin 3) (p : UartState) : (s.setUart n p).entering = s.entering := rfl
@[simp] theorem State.setUart_mem (s : State) (n : Fin 3) (p : UartState) : (s.setUart n p).mem = s.mem := rfl
@[simp] theorem State.setUart_poison (s : State) (n : Fin 3) (p : UartState) : (s.setUart n p).poison = s.poison := rfl
@[simp] theorem State.setUart_rebind (s : State) (n : Fin 3) (p : UartState) : (s.setUart n p).rebind = s.rebind := rfl
@[simp] theorem State.setUart_ecc (s : State) (n : Fin 3) (p : UartState) : (s.setUart n p).ecc = s.ecc := rfl
@[simp] theorem State.setUart_eccNew (s : State) (n : Fin 3) (p : UartState) : (s.setUart n p).eccNew = s.eccNew := rfl
@[simp] theorem State.setUart_wbq (s : State) (n : Fin 3) (p : UartState) : (s.setUart n p).wbq = s.wbq := rfl
@[simp] theorem State.setUart_remap (s : State) (n : Fin 3) (p : UartState) : (s.setUart n p).remap = s.remap := rfl
@[simp] theorem State.setUart_collided (s : State) (n : Fin 3) (p : UartState) : (s.setUart n p).collided = s.collided := rfl
@[simp] theorem State.setUart_dmas (s : State) (n : Fin 3) (p : UartState) : (s.setUart n p).dmas = s.dmas := rfl
@[simp] theorem State.setUart_sparges (s : State) (n : Fin 3) (p : UartState) : (s.setUart n p).sparges = s.sparges := rfl
@[simp] theorem State.setUart_flash (s : State) (n : Fin 3) (p : UartState) : (s.setUart n p).flash = s.flash := rfl
@[simp] theorem State.setUart_flUndef (s : State) (n : Fin 3) (p : UartState) : (s.setUart n p).flUndef = s.flUndef := rfl
@[simp] theorem State.setUart_flEcc (s : State) (n : Fin 3) (p : UartState) : (s.setUart n p).flEcc = s.flEcc := rfl
@[simp] theorem State.setUart_flProg (s : State) (n : Fin 3) (p : UartState) : (s.setUart n p).flProg = s.flProg := rfl
@[simp] theorem State.setUart_flBanks (s : State) (n : Fin 3) (p : UartState) : (s.setUart n p).flBanks = s.flBanks := rfl
@[simp] theorem State.setUart_dfSecs (s : State) (n : Fin 3) (p : UartState) : (s.setUart n p).dfSecs = s.dfSecs := rfl
@[simp] theorem State.setUart_dfQueue (s : State) (n : Fin 3) (p : UartState) : (s.setUart n p).dfQueue = s.dfQueue := rfl
@[simp] theorem State.setUart_dfBg (s : State) (n : Fin 3) (p : UartState) : (s.setUart n p).dfBg = s.dfBg := rfl
@[simp] theorem State.setUart_dfSeq (s : State) (n : Fin 3) (p : UartState) : (s.setUart n p).dfSeq = s.dfSeq := rfl
@[simp] theorem State.setUart_dfTop (s : State) (n : Fin 3) (p : UartState) : (s.setUart n p).dfTop = s.dfTop := rfl
@[simp] theorem State.setUart_prot (s : State) (n : Fin 3) (p : UartState) : (s.setUart n p).prot = s.prot := rfl
@[simp] theorem State.setUart_protPend (s : State) (n : Fin 3) (p : UartState) : (s.setUart n p).protPend = s.protPend := rfl
@[simp] theorem State.setUart_protNew (s : State) (n : Fin 3) (p : UartState) : (s.setUart n p).protNew = s.protNew := rfl
@[simp] theorem State.setUart_otp (s : State) (n : Fin 3) (p : UartState) : (s.setUart n p).otp = s.otp := rfl
@[simp] theorem State.setUart_otpOp (s : State) (n : Fin 3) (p : UartState) : (s.setUart n p).otpOp = s.otpOp := rfl
@[simp] theorem State.setUart_pes (s : State) (n : Fin 3) (p : UartState) : (s.setUart n p).pes = s.pes := rfl
@[simp] theorem State.setUart_pio (s : State) (n : Fin 3) (p : UartState) : (s.setUart n p).pio = s.pio := rfl
@[simp] theorem State.setUart_oz (s : State) (n : Fin 3) (p : UartState) : (s.setUart n p).oz = s.oz := rfl
@[simp] theorem State.setUart_links (s : State) (n : Fin 3) (p : UartState) : (s.setUart n p).links = s.links := rfl
@[simp] theorem State.setUart_remotes (s : State) (n : Fin 3) (p : UartState) : (s.setUart n p).remotes = s.remotes := rfl
@[simp] theorem State.setUart_stalls (s : State) (n : Fin 3) (p : UartState) : (s.setUart n p).stalls = s.stalls := rfl
@[simp] theorem State.setUart_nextTag (s : State) (n : Fin 3) (p : UartState) : (s.setUart n p).nextTag = s.nextTag := rfl
@[simp] theorem State.setUart_lkUsed (s : State) (n : Fin 3) (p : UartState) : (s.setUart n p).lkUsed = s.lkUsed := rfl
@[simp] theorem State.setUart_lkAsk (s : State) (n : Fin 3) (p : UartState) : (s.setUart n p).lkAsk = s.lkAsk := rfl
@[simp] theorem State.setUart_eths (s : State) (n : Fin 3) (p : UartState) : (s.setUart n p).eths = s.eths := rfl
@[simp] theorem State.setUart_cans (s : State) (n : Fin 3) (p : UartState) : (s.setUart n p).cans = s.cans := rfl
@[simp] theorem State.setUart_boot (s : State) (n : Fin 3) (p : UartState) : (s.setUart n p).boot = s.boot := rfl
@[simp] theorem State.setUart_jtag (s : State) (n : Fin 3) (p : UartState) : (s.setUart n p).jtag = s.jtag := rfl
@[simp] theorem State.setUart_modeReq (s : State) (n : Fin 3) (p : UartState) : (s.setUart n p).modeReq = s.modeReq := rfl
@[simp] theorem State.setUart_shDue (s : State) (n : Fin 3) (p : UartState) : (s.setUart n p).shDue = s.shDue := rfl
@[simp] theorem State.setUart_offDue (s : State) (n : Fin 3) (p : UartState) : (s.setUart n p).offDue = s.offDue := rfl
@[simp] theorem State.setUart_faultDue (s : State) (n : Fin 3) (p : UartState) : (s.setUart n p).faultDue = s.faultDue := rfl
@[simp] theorem State.setUart_clkAt (s : State) (n : Fin 3) (p : UartState) : (s.setUart n p).clkAt = s.clkAt := rfl
@[simp] theorem State.setUart_rateDue (s : State) (n : Fin 3) (p : UartState) : (s.setUart n p).rateDue = s.rateDue := rfl
@[simp] theorem State.setUart_swfOwn (s : State) (n : Fin 3) (p : UartState) : (s.setUart n p).swfOwn = s.swfOwn := rfl
@[simp] theorem State.setUart_bankWorld (s : State) (n : Fin 3) (p : UartState) : (s.setUart n p).bankWorld = s.bankWorld := rfl
@[simp] theorem State.setUart_faulted (s : State) (n : Fin 3) (p : UartState) : (s.setUart n p).faulted = s.faulted := rfl
@[simp] theorem State.setUart_cycled (s : State) (n : Fin 3) (p : UartState) : (s.setUart n p).cycled = s.cycled := rfl
@[simp] theorem State.setUart_tested (s : State) (n : Fin 3) (p : UartState) : (s.setUart n p).tested = s.tested := rfl

/-! ## memPut -/

@[simp] theorem State.memPut_pending (s : State) (a : Nat) (b : List Byte) : (s.memPut a b).pending = s.pending := rfl
@[simp] theorem State.memPut_now (s : State) (a : Nat) (b : List Byte) : (s.memPut a b).now = s.now := rfl
@[simp] theorem State.memPut_free (s : State) (a : Nat) (b : List Byte) : (s.memPut a b).free = s.free := rfl
@[simp] theorem State.memPut_due (s : State) (a : Nat) (b : List Byte) : (s.memPut a b).due = s.due := rfl
@[simp] theorem State.memPut_regs (s : State) (a : Nat) (b : List Byte) : (s.memPut a b).regs = s.regs := rfl
@[simp] theorem State.memPut_hwSet (s : State) (a : Nat) (b : List Byte) : (s.memPut a b).hwSet = s.hwSet := rfl
@[simp] theorem State.memPut_wrote (s : State) (a : Nat) (b : List Byte) : (s.memPut a b).wrote = s.wrote := rfl
@[simp] theorem State.memPut_resp (s : State) (a : Nat) (b : List Byte) : (s.memPut a b).resp = s.resp := rfl
@[simp] theorem State.memPut_active (s : State) (a : Nat) (b : List Byte) : (s.memPut a b).active = s.active := rfl
@[simp] theorem State.memPut_shadow (s : State) (a : Nat) (b : List Byte) : (s.memPut a b).shadow = s.shadow := rfl
@[simp] theorem State.memPut_swapTick (s : State) (a : Nat) (b : List Byte) : (s.memPut a b).swapTick = s.swapTick := rfl
@[simp] theorem State.memPut_swapCut (s : State) (a : Nat) (b : List Byte) : (s.memPut a b).swapCut = s.swapCut := rfl
@[simp] theorem State.memPut_framePeriod (s : State) (a : Nat) (b : List Byte) : (s.memPut a b).framePeriod = s.framePeriod := rfl
@[simp] theorem State.memPut_lostAt (s : State) (a : Nat) (b : List Byte) : (s.memPut a b).lostAt = s.lostAt := rfl
@[simp] theorem State.memPut_tickOut (s : State) (a : Nat) (b : List Byte) : (s.memPut a b).tickOut = s.tickOut := rfl
@[simp] theorem State.memPut_markNum (s : State) (a : Nat) (b : List Byte) : (s.memPut a b).markNum = s.markNum := rfl
@[simp] theorem State.memPut_slewLeft (s : State) (a : Nat) (b : List Byte) : (s.memPut a b).slewLeft = s.slewLeft := rfl
@[simp] theorem State.memPut_otpLoaded (s : State) (a : Nat) (b : List Byte) : (s.memPut a b).otpLoaded = s.otpLoaded := rfl
@[simp] theorem State.memPut_ts64 (s : State) (a : Nat) (b : List Byte) : (s.memPut a b).ts64 = s.ts64 := rfl
@[simp] theorem State.memPut_snaps (s : State) (a : Nat) (b : List Byte) : (s.memPut a b).snaps = s.snaps := rfl
@[simp] theorem State.memPut_pts (s : State) (a : Nat) (b : List Byte) : (s.memPut a b).pts = s.pts := rfl
@[simp] theorem State.memPut_gts (s : State) (a : Nat) (b : List Byte) : (s.memPut a b).gts = s.gts := rfl
@[simp] theorem State.memPut_holdOvr (s : State) (a : Nat) (b : List Byte) : (s.memPut a b).holdOvr = s.holdOvr := rfl
@[simp] theorem State.memPut_holdNew (s : State) (a : Nat) (b : List Byte) : (s.memPut a b).holdNew = s.holdNew := rfl
@[simp] theorem State.memPut_holdRed (s : State) (a : Nat) (b : List Byte) : (s.memPut a b).holdRed = s.holdRed := rfl
@[simp] theorem State.memPut_holdRedNew (s : State) (a : Nat) (b : List Byte) : (s.memPut a b).holdRedNew = s.holdRedNew := rfl
@[simp] theorem State.memPut_holdPins (s : State) (a : Nat) (b : List Byte) : (s.memPut a b).holdPins = s.holdPins := rfl
@[simp] theorem State.memPut_adcs (s : State) (a : Nat) (b : List Byte) : (s.memPut a b).adcs = s.adcs := rfl
@[simp] theorem State.memPut_reliefs (s : State) (a : Nat) (b : List Byte) : (s.memPut a b).reliefs = s.reliefs := rfl
@[simp] theorem State.memPut_sds (s : State) (a : Nat) (b : List Byte) : (s.memPut a b).sds = s.sds := rfl
@[simp] theorem State.memPut_cmps (s : State) (a : Nat) (b : List Byte) : (s.memPut a b).cmps = s.cmps := rfl
@[simp] theorem State.memPut_fab (s : State) (a : Nat) (b : List Byte) : (s.memPut a b).fab = s.fab := rfl
@[simp] theorem State.memPut_cores (s : State) (a : Nat) (b : List Byte) : (s.memPut a b).cores = s.cores := rfl
@[simp] theorem State.memPut_pairs (s : State) (a : Nat) (b : List Byte) : (s.memPut a b).pairs = s.pairs := rfl
@[simp] theorem State.memPut_entering (s : State) (a : Nat) (b : List Byte) : (s.memPut a b).entering = s.entering := rfl
@[simp] theorem State.memPut_rebind (s : State) (a : Nat) (b : List Byte) : (s.memPut a b).rebind = s.rebind := rfl
@[simp] theorem State.memPut_ecc (s : State) (a : Nat) (b : List Byte) : (s.memPut a b).ecc = s.ecc := rfl
@[simp] theorem State.memPut_eccNew (s : State) (a : Nat) (b : List Byte) : (s.memPut a b).eccNew = s.eccNew := rfl
@[simp] theorem State.memPut_wbq (s : State) (a : Nat) (b : List Byte) : (s.memPut a b).wbq = s.wbq := rfl
@[simp] theorem State.memPut_remap (s : State) (a : Nat) (b : List Byte) : (s.memPut a b).remap = s.remap := rfl
@[simp] theorem State.memPut_collided (s : State) (a : Nat) (b : List Byte) : (s.memPut a b).collided = s.collided := rfl
@[simp] theorem State.memPut_dmas (s : State) (a : Nat) (b : List Byte) : (s.memPut a b).dmas = s.dmas := rfl
@[simp] theorem State.memPut_sparges (s : State) (a : Nat) (b : List Byte) : (s.memPut a b).sparges = s.sparges := rfl
@[simp] theorem State.memPut_flash (s : State) (a : Nat) (b : List Byte) : (s.memPut a b).flash = s.flash := rfl
@[simp] theorem State.memPut_flUndef (s : State) (a : Nat) (b : List Byte) : (s.memPut a b).flUndef = s.flUndef := rfl
@[simp] theorem State.memPut_flEcc (s : State) (a : Nat) (b : List Byte) : (s.memPut a b).flEcc = s.flEcc := rfl
@[simp] theorem State.memPut_flProg (s : State) (a : Nat) (b : List Byte) : (s.memPut a b).flProg = s.flProg := rfl
@[simp] theorem State.memPut_flBanks (s : State) (a : Nat) (b : List Byte) : (s.memPut a b).flBanks = s.flBanks := rfl
@[simp] theorem State.memPut_dfSecs (s : State) (a : Nat) (b : List Byte) : (s.memPut a b).dfSecs = s.dfSecs := rfl
@[simp] theorem State.memPut_dfQueue (s : State) (a : Nat) (b : List Byte) : (s.memPut a b).dfQueue = s.dfQueue := rfl
@[simp] theorem State.memPut_dfBg (s : State) (a : Nat) (b : List Byte) : (s.memPut a b).dfBg = s.dfBg := rfl
@[simp] theorem State.memPut_dfSeq (s : State) (a : Nat) (b : List Byte) : (s.memPut a b).dfSeq = s.dfSeq := rfl
@[simp] theorem State.memPut_dfTop (s : State) (a : Nat) (b : List Byte) : (s.memPut a b).dfTop = s.dfTop := rfl
@[simp] theorem State.memPut_prot (s : State) (a : Nat) (b : List Byte) : (s.memPut a b).prot = s.prot := rfl
@[simp] theorem State.memPut_protPend (s : State) (a : Nat) (b : List Byte) : (s.memPut a b).protPend = s.protPend := rfl
@[simp] theorem State.memPut_protNew (s : State) (a : Nat) (b : List Byte) : (s.memPut a b).protNew = s.protNew := rfl
@[simp] theorem State.memPut_otp (s : State) (a : Nat) (b : List Byte) : (s.memPut a b).otp = s.otp := rfl
@[simp] theorem State.memPut_otpOp (s : State) (a : Nat) (b : List Byte) : (s.memPut a b).otpOp = s.otpOp := rfl
@[simp] theorem State.memPut_pes (s : State) (a : Nat) (b : List Byte) : (s.memPut a b).pes = s.pes := rfl
@[simp] theorem State.memPut_pio (s : State) (a : Nat) (b : List Byte) : (s.memPut a b).pio = s.pio := rfl
@[simp] theorem State.memPut_oz (s : State) (a : Nat) (b : List Byte) : (s.memPut a b).oz = s.oz := rfl
@[simp] theorem State.memPut_links (s : State) (a : Nat) (b : List Byte) : (s.memPut a b).links = s.links := rfl
@[simp] theorem State.memPut_remotes (s : State) (a : Nat) (b : List Byte) : (s.memPut a b).remotes = s.remotes := rfl
@[simp] theorem State.memPut_stalls (s : State) (a : Nat) (b : List Byte) : (s.memPut a b).stalls = s.stalls := rfl
@[simp] theorem State.memPut_nextTag (s : State) (a : Nat) (b : List Byte) : (s.memPut a b).nextTag = s.nextTag := rfl
@[simp] theorem State.memPut_lkUsed (s : State) (a : Nat) (b : List Byte) : (s.memPut a b).lkUsed = s.lkUsed := rfl
@[simp] theorem State.memPut_lkAsk (s : State) (a : Nat) (b : List Byte) : (s.memPut a b).lkAsk = s.lkAsk := rfl
@[simp] theorem State.memPut_eths (s : State) (a : Nat) (b : List Byte) : (s.memPut a b).eths = s.eths := rfl
@[simp] theorem State.memPut_cans (s : State) (a : Nat) (b : List Byte) : (s.memPut a b).cans = s.cans := rfl
@[simp] theorem State.memPut_uarts (s : State) (a : Nat) (b : List Byte) : (s.memPut a b).uarts = s.uarts := rfl
@[simp] theorem State.memPut_boot (s : State) (a : Nat) (b : List Byte) : (s.memPut a b).boot = s.boot := rfl
@[simp] theorem State.memPut_jtag (s : State) (a : Nat) (b : List Byte) : (s.memPut a b).jtag = s.jtag := rfl
@[simp] theorem State.memPut_modeReq (s : State) (a : Nat) (b : List Byte) : (s.memPut a b).modeReq = s.modeReq := rfl
@[simp] theorem State.memPut_shDue (s : State) (a : Nat) (b : List Byte) : (s.memPut a b).shDue = s.shDue := rfl
@[simp] theorem State.memPut_offDue (s : State) (a : Nat) (b : List Byte) : (s.memPut a b).offDue = s.offDue := rfl
@[simp] theorem State.memPut_faultDue (s : State) (a : Nat) (b : List Byte) : (s.memPut a b).faultDue = s.faultDue := rfl
@[simp] theorem State.memPut_clkAt (s : State) (a : Nat) (b : List Byte) : (s.memPut a b).clkAt = s.clkAt := rfl
@[simp] theorem State.memPut_rateDue (s : State) (a : Nat) (b : List Byte) : (s.memPut a b).rateDue = s.rateDue := rfl
@[simp] theorem State.memPut_swfOwn (s : State) (a : Nat) (b : List Byte) : (s.memPut a b).swfOwn = s.swfOwn := rfl
@[simp] theorem State.memPut_bankWorld (s : State) (a : Nat) (b : List Byte) : (s.memPut a b).bankWorld = s.bankWorld := rfl
@[simp] theorem State.memPut_faulted (s : State) (a : Nat) (b : List Byte) : (s.memPut a b).faulted = s.faulted := rfl
@[simp] theorem State.memPut_cycled (s : State) (a : Nat) (b : List Byte) : (s.memPut a b).cycled = s.cycled := rfl
@[simp] theorem State.memPut_tested (s : State) (a : Nat) (b : List Byte) : (s.memPut a b).tested = s.tested := rfl

/-! ## push -/

@[simp] theorem State.push_now (s : State) (i : Instr) : (s.push i).now = s.now := rfl
@[simp] theorem State.push_free (s : State) (i : Instr) : (s.push i).free = s.free := rfl
@[simp] theorem State.push_due (s : State) (i : Instr) : (s.push i).due = s.due := rfl
@[simp] theorem State.push_regs (s : State) (i : Instr) : (s.push i).regs = s.regs := rfl
@[simp] theorem State.push_hwSet (s : State) (i : Instr) : (s.push i).hwSet = s.hwSet := rfl
@[simp] theorem State.push_wrote (s : State) (i : Instr) : (s.push i).wrote = s.wrote := rfl
@[simp] theorem State.push_resp (s : State) (i : Instr) : (s.push i).resp = s.resp := rfl
@[simp] theorem State.push_active (s : State) (i : Instr) : (s.push i).active = s.active := rfl
@[simp] theorem State.push_shadow (s : State) (i : Instr) : (s.push i).shadow = s.shadow := rfl
@[simp] theorem State.push_swapTick (s : State) (i : Instr) : (s.push i).swapTick = s.swapTick := rfl
@[simp] theorem State.push_swapCut (s : State) (i : Instr) : (s.push i).swapCut = s.swapCut := rfl
@[simp] theorem State.push_framePeriod (s : State) (i : Instr) : (s.push i).framePeriod = s.framePeriod := rfl
@[simp] theorem State.push_lostAt (s : State) (i : Instr) : (s.push i).lostAt = s.lostAt := rfl
@[simp] theorem State.push_tickOut (s : State) (i : Instr) : (s.push i).tickOut = s.tickOut := rfl
@[simp] theorem State.push_markNum (s : State) (i : Instr) : (s.push i).markNum = s.markNum := rfl
@[simp] theorem State.push_slewLeft (s : State) (i : Instr) : (s.push i).slewLeft = s.slewLeft := rfl
@[simp] theorem State.push_otpLoaded (s : State) (i : Instr) : (s.push i).otpLoaded = s.otpLoaded := rfl
@[simp] theorem State.push_ts64 (s : State) (i : Instr) : (s.push i).ts64 = s.ts64 := rfl
@[simp] theorem State.push_snaps (s : State) (i : Instr) : (s.push i).snaps = s.snaps := rfl
@[simp] theorem State.push_pts (s : State) (i : Instr) : (s.push i).pts = s.pts := rfl
@[simp] theorem State.push_gts (s : State) (i : Instr) : (s.push i).gts = s.gts := rfl
@[simp] theorem State.push_holdOvr (s : State) (i : Instr) : (s.push i).holdOvr = s.holdOvr := rfl
@[simp] theorem State.push_holdNew (s : State) (i : Instr) : (s.push i).holdNew = s.holdNew := rfl
@[simp] theorem State.push_holdRed (s : State) (i : Instr) : (s.push i).holdRed = s.holdRed := rfl
@[simp] theorem State.push_holdRedNew (s : State) (i : Instr) : (s.push i).holdRedNew = s.holdRedNew := rfl
@[simp] theorem State.push_holdPins (s : State) (i : Instr) : (s.push i).holdPins = s.holdPins := rfl
@[simp] theorem State.push_adcs (s : State) (i : Instr) : (s.push i).adcs = s.adcs := rfl
@[simp] theorem State.push_reliefs (s : State) (i : Instr) : (s.push i).reliefs = s.reliefs := rfl
@[simp] theorem State.push_sds (s : State) (i : Instr) : (s.push i).sds = s.sds := rfl
@[simp] theorem State.push_cmps (s : State) (i : Instr) : (s.push i).cmps = s.cmps := rfl
@[simp] theorem State.push_fab (s : State) (i : Instr) : (s.push i).fab = s.fab := rfl
@[simp] theorem State.push_cores (s : State) (i : Instr) : (s.push i).cores = s.cores := rfl
@[simp] theorem State.push_pairs (s : State) (i : Instr) : (s.push i).pairs = s.pairs := rfl
@[simp] theorem State.push_entering (s : State) (i : Instr) : (s.push i).entering = s.entering := rfl
@[simp] theorem State.push_mem (s : State) (i : Instr) : (s.push i).mem = s.mem := rfl
@[simp] theorem State.push_poison (s : State) (i : Instr) : (s.push i).poison = s.poison := rfl
@[simp] theorem State.push_rebind (s : State) (i : Instr) : (s.push i).rebind = s.rebind := rfl
@[simp] theorem State.push_ecc (s : State) (i : Instr) : (s.push i).ecc = s.ecc := rfl
@[simp] theorem State.push_eccNew (s : State) (i : Instr) : (s.push i).eccNew = s.eccNew := rfl
@[simp] theorem State.push_wbq (s : State) (i : Instr) : (s.push i).wbq = s.wbq := rfl
@[simp] theorem State.push_remap (s : State) (i : Instr) : (s.push i).remap = s.remap := rfl
@[simp] theorem State.push_collided (s : State) (i : Instr) : (s.push i).collided = s.collided := rfl
@[simp] theorem State.push_dmas (s : State) (i : Instr) : (s.push i).dmas = s.dmas := rfl
@[simp] theorem State.push_sparges (s : State) (i : Instr) : (s.push i).sparges = s.sparges := rfl
@[simp] theorem State.push_flash (s : State) (i : Instr) : (s.push i).flash = s.flash := rfl
@[simp] theorem State.push_flUndef (s : State) (i : Instr) : (s.push i).flUndef = s.flUndef := rfl
@[simp] theorem State.push_flEcc (s : State) (i : Instr) : (s.push i).flEcc = s.flEcc := rfl
@[simp] theorem State.push_flProg (s : State) (i : Instr) : (s.push i).flProg = s.flProg := rfl
@[simp] theorem State.push_flBanks (s : State) (i : Instr) : (s.push i).flBanks = s.flBanks := rfl
@[simp] theorem State.push_dfSecs (s : State) (i : Instr) : (s.push i).dfSecs = s.dfSecs := rfl
@[simp] theorem State.push_dfQueue (s : State) (i : Instr) : (s.push i).dfQueue = s.dfQueue := rfl
@[simp] theorem State.push_dfBg (s : State) (i : Instr) : (s.push i).dfBg = s.dfBg := rfl
@[simp] theorem State.push_dfSeq (s : State) (i : Instr) : (s.push i).dfSeq = s.dfSeq := rfl
@[simp] theorem State.push_dfTop (s : State) (i : Instr) : (s.push i).dfTop = s.dfTop := rfl
@[simp] theorem State.push_prot (s : State) (i : Instr) : (s.push i).prot = s.prot := rfl
@[simp] theorem State.push_protPend (s : State) (i : Instr) : (s.push i).protPend = s.protPend := rfl
@[simp] theorem State.push_protNew (s : State) (i : Instr) : (s.push i).protNew = s.protNew := rfl
@[simp] theorem State.push_otp (s : State) (i : Instr) : (s.push i).otp = s.otp := rfl
@[simp] theorem State.push_otpOp (s : State) (i : Instr) : (s.push i).otpOp = s.otpOp := rfl
@[simp] theorem State.push_pes (s : State) (i : Instr) : (s.push i).pes = s.pes := rfl
@[simp] theorem State.push_pio (s : State) (i : Instr) : (s.push i).pio = s.pio := rfl
@[simp] theorem State.push_oz (s : State) (i : Instr) : (s.push i).oz = s.oz := rfl
@[simp] theorem State.push_links (s : State) (i : Instr) : (s.push i).links = s.links := rfl
@[simp] theorem State.push_remotes (s : State) (i : Instr) : (s.push i).remotes = s.remotes := rfl
@[simp] theorem State.push_stalls (s : State) (i : Instr) : (s.push i).stalls = s.stalls := rfl
@[simp] theorem State.push_nextTag (s : State) (i : Instr) : (s.push i).nextTag = s.nextTag := rfl
@[simp] theorem State.push_lkUsed (s : State) (i : Instr) : (s.push i).lkUsed = s.lkUsed := rfl
@[simp] theorem State.push_lkAsk (s : State) (i : Instr) : (s.push i).lkAsk = s.lkAsk := rfl
@[simp] theorem State.push_eths (s : State) (i : Instr) : (s.push i).eths = s.eths := rfl
@[simp] theorem State.push_cans (s : State) (i : Instr) : (s.push i).cans = s.cans := rfl
@[simp] theorem State.push_uarts (s : State) (i : Instr) : (s.push i).uarts = s.uarts := rfl
@[simp] theorem State.push_boot (s : State) (i : Instr) : (s.push i).boot = s.boot := rfl
@[simp] theorem State.push_jtag (s : State) (i : Instr) : (s.push i).jtag = s.jtag := rfl
@[simp] theorem State.push_modeReq (s : State) (i : Instr) : (s.push i).modeReq = s.modeReq := rfl
@[simp] theorem State.push_shDue (s : State) (i : Instr) : (s.push i).shDue = s.shDue := rfl
@[simp] theorem State.push_offDue (s : State) (i : Instr) : (s.push i).offDue = s.offDue := rfl
@[simp] theorem State.push_faultDue (s : State) (i : Instr) : (s.push i).faultDue = s.faultDue := rfl
@[simp] theorem State.push_clkAt (s : State) (i : Instr) : (s.push i).clkAt = s.clkAt := rfl
@[simp] theorem State.push_rateDue (s : State) (i : Instr) : (s.push i).rateDue = s.rateDue := rfl
@[simp] theorem State.push_swfOwn (s : State) (i : Instr) : (s.push i).swfOwn = s.swfOwn := rfl
@[simp] theorem State.push_bankWorld (s : State) (i : Instr) : (s.push i).bankWorld = s.bankWorld := rfl
@[simp] theorem State.push_faulted (s : State) (i : Instr) : (s.push i).faulted = s.faulted := rfl
@[simp] theorem State.push_cycled (s : State) (i : Instr) : (s.push i).cycled = s.cycled := rfl
@[simp] theorem State.push_tested (s : State) (i : Instr) : (s.push i).tested = s.tested := rfl

/-! ## Units and registers read after an update -/

@[simp] theorem State.setCore_core (s : State) (n m : CoreId) (x : CoreState) :
    (s.setCore n x).core m = if m = n then x else s.core m := by
  have h : (n.val = m.val) = (m = n) := by simp [Fin.ext_iff, eq_comm]
  simp [State.setCore, State.core, Vector.getElem_set, h]

@[simp] theorem State.setPt_pt (s : State) (n m : Fin 48) (x : PwmState) :
    (s.setPt n x).pt m = if m = n then x else s.pt m := by
  have h : (n.val = m.val) = (m = n) := by simp [Fin.ext_iff, eq_comm]
  simp [State.setPt, State.pt, Vector.getElem_set, h]

@[simp] theorem State.setGt_gt (s : State) (n m : Fin 32) (x : GtState) :
    (s.setGt n x).gt m = if m = n then x else s.gt m := by
  have h : (n.val = m.val) = (m = n) := by simp [Fin.ext_iff, eq_comm]
  simp [State.setGt, State.gt, Vector.getElem_set, h]

@[simp] theorem State.setAdc_adc (s : State) (n m : Fin 16) (x : AdcState) :
    (s.setAdc n x).adc m = if m = n then x else s.adc m := by
  have h : (n.val = m.val) = (m = n) := by simp [Fin.ext_iff, eq_comm]
  simp [State.setAdc, State.adc, Vector.getElem_set, h]

@[simp] theorem State.setRelief_relief (s : State) (n m : Fin 2) (x : ReliefState) :
    (s.setRelief n x).relief m = if m = n then x else s.relief m := by
  have h : (n.val = m.val) = (m = n) := by simp [Fin.ext_iff, eq_comm]
  simp [State.setRelief, State.relief, Vector.getElem_set, h]

@[simp] theorem State.setSd_sd (s : State) (n m : Fin 8) (x : SdState) :
    (s.setSd n x).sd m = if m = n then x else s.sd m := by
  have h : (n.val = m.val) = (m = n) := by simp [Fin.ext_iff, eq_comm]
  simp [State.setSd, State.sd, Vector.getElem_set, h]

@[simp] theorem State.setCmp_cmp (s : State) (n m : Fin 32) (x : CmpCore) :
    (s.setCmp n x).cmp m = if m = n then x else s.cmp m := by
  have h : (n.val = m.val) = (m = n) := by simp [Fin.ext_iff, eq_comm]
  simp [State.setCmp, State.cmp, Vector.getElem_set, h]

@[simp] theorem State.setPair_pair (s : State) (n m : Fin 16) (x : PairState) :
    (s.setPair n x).pair m = if m = n then x else s.pair m := by
  have h : (n.val = m.val) = (m = n) := by simp [Fin.ext_iff, eq_comm]
  simp [State.setPair, State.pair, Vector.getElem_set, h]

@[simp] theorem State.setDma_dma (s : State) (n m : Fin 16) (x : DmaState) :
    (s.setDma n x).dma m = if m = n then x else s.dma m := by
  have h : (n.val = m.val) = (m = n) := by simp [Fin.ext_iff, eq_comm]
  simp [State.setDma, State.dma, Vector.getElem_set, h]

@[simp] theorem State.setFlBank_flBank (s : State) (n m : Fin 5) (x : FlBank) :
    (s.setFlBank n x).flBank m = if m = n then x else s.flBank m := by
  have h : (n.val = m.val) = (m = n) := by simp [Fin.ext_iff, eq_comm]
  simp [State.setFlBank, State.flBank, Vector.getElem_set, h]

@[simp] theorem State.setPg_pg (s : State) (n m : Fin 8) (x : PeGroup) :
    (s.setPg n x).pg m = if m = n then x else s.pg m := by
  have h : (n.val = m.val) = (m = n) := by simp [Fin.ext_iff, eq_comm]
  simp [State.setPg, State.pg, Vector.getElem_set, h]

@[simp] theorem State.setLink_link (s : State) (n m : Fin 4) (x : LinkState) :
    (s.setLink n x).link m = if m = n then x else s.link m := by
  have h : (n.val = m.val) = (m = n) := by simp [Fin.ext_iff, eq_comm]
  simp [State.setLink, State.link, Vector.getElem_set, h]

@[simp] theorem State.setEth_eth (s : State) (n m : Fin 2) (x : RingState) :
    (s.setEth n x).eth m = if m = n then x else s.eth m := by
  have h : (n.val = m.val) = (m = n) := by simp [Fin.ext_iff, eq_comm]
  simp [State.setEth, State.eth, Vector.getElem_set, h]

@[simp] theorem State.setCan_can (s : State) (n m : Fin 6) (x : RingState) :
    (s.setCan n x).can m = if m = n then x else s.can m := by
  have h : (n.val = m.val) = (m = n) := by simp [Fin.ext_iff, eq_comm]
  simp [State.setCan, State.can, Vector.getElem_set, h]

@[simp] theorem State.setUart_uart (s : State) (n m : Fin 3) (x : UartState) :
    (s.setUart n x).uart m = if m = n then x else s.uart m := by
  have h : (n.val = m.val) = (m = n) := by simp [Fin.ext_iff, eq_comm]
  simp [State.setUart, State.uart, Vector.getElem_set, h]

@[simp] theorem State.setRg_core (s : State) (k : Nat) (w : Word) (m : CoreId) : (s.setRg k w).core m = s.core m := rfl
@[simp] theorem State.setRg_pt (s : State) (k : Nat) (w : Word) (m : Fin 48) : (s.setRg k w).pt m = s.pt m := rfl
@[simp] theorem State.setRg_gt (s : State) (k : Nat) (w : Word) (m : Fin 32) : (s.setRg k w).gt m = s.gt m := rfl
@[simp] theorem State.setRg_adc (s : State) (k : Nat) (w : Word) (m : Fin 16) : (s.setRg k w).adc m = s.adc m := rfl
@[simp] theorem State.setRg_relief (s : State) (k : Nat) (w : Word) (m : Fin 2) : (s.setRg k w).relief m = s.relief m := rfl
@[simp] theorem State.setRg_sd (s : State) (k : Nat) (w : Word) (m : Fin 8) : (s.setRg k w).sd m = s.sd m := rfl
@[simp] theorem State.setRg_cmp (s : State) (k : Nat) (w : Word) (m : Fin 32) : (s.setRg k w).cmp m = s.cmp m := rfl
@[simp] theorem State.setRg_pair (s : State) (k : Nat) (w : Word) (m : Fin 16) : (s.setRg k w).pair m = s.pair m := rfl
@[simp] theorem State.setRg_dma (s : State) (k : Nat) (w : Word) (m : Fin 16) : (s.setRg k w).dma m = s.dma m := rfl
@[simp] theorem State.setRg_flBank (s : State) (k : Nat) (w : Word) (m : Fin 5) : (s.setRg k w).flBank m = s.flBank m := rfl
@[simp] theorem State.setRg_pg (s : State) (k : Nat) (w : Word) (m : Fin 8) : (s.setRg k w).pg m = s.pg m := rfl
@[simp] theorem State.setRg_link (s : State) (k : Nat) (w : Word) (m : Fin 4) : (s.setRg k w).link m = s.link m := rfl
@[simp] theorem State.setRg_eth (s : State) (k : Nat) (w : Word) (m : Fin 2) : (s.setRg k w).eth m = s.eth m := rfl
@[simp] theorem State.setRg_can (s : State) (k : Nat) (w : Word) (m : Fin 6) : (s.setRg k w).can m = s.can m := rfl
@[simp] theorem State.setRg_uart (s : State) (k : Nat) (w : Word) (m : Fin 3) : (s.setRg k w).uart m = s.uart m := rfl
@[simp] theorem State.setFld_core (s : State) (k lo len v : Nat) (m : CoreId) : (s.setFld k lo len v).core m = s.core m := rfl
@[simp] theorem State.setFld_pt (s : State) (k lo len v : Nat) (m : Fin 48) : (s.setFld k lo len v).pt m = s.pt m := rfl
@[simp] theorem State.setFld_gt (s : State) (k lo len v : Nat) (m : Fin 32) : (s.setFld k lo len v).gt m = s.gt m := rfl
@[simp] theorem State.setFld_adc (s : State) (k lo len v : Nat) (m : Fin 16) : (s.setFld k lo len v).adc m = s.adc m := rfl
@[simp] theorem State.setFld_relief (s : State) (k lo len v : Nat) (m : Fin 2) : (s.setFld k lo len v).relief m = s.relief m := rfl
@[simp] theorem State.setFld_sd (s : State) (k lo len v : Nat) (m : Fin 8) : (s.setFld k lo len v).sd m = s.sd m := rfl
@[simp] theorem State.setFld_cmp (s : State) (k lo len v : Nat) (m : Fin 32) : (s.setFld k lo len v).cmp m = s.cmp m := rfl
@[simp] theorem State.setFld_pair (s : State) (k lo len v : Nat) (m : Fin 16) : (s.setFld k lo len v).pair m = s.pair m := rfl
@[simp] theorem State.setFld_dma (s : State) (k lo len v : Nat) (m : Fin 16) : (s.setFld k lo len v).dma m = s.dma m := rfl
@[simp] theorem State.setFld_flBank (s : State) (k lo len v : Nat) (m : Fin 5) : (s.setFld k lo len v).flBank m = s.flBank m := rfl
@[simp] theorem State.setFld_pg (s : State) (k lo len v : Nat) (m : Fin 8) : (s.setFld k lo len v).pg m = s.pg m := rfl
@[simp] theorem State.setFld_link (s : State) (k lo len v : Nat) (m : Fin 4) : (s.setFld k lo len v).link m = s.link m := rfl
@[simp] theorem State.setFld_eth (s : State) (k lo len v : Nat) (m : Fin 2) : (s.setFld k lo len v).eth m = s.eth m := rfl
@[simp] theorem State.setFld_can (s : State) (k lo len v : Nat) (m : Fin 6) : (s.setFld k lo len v).can m = s.can m := rfl
@[simp] theorem State.setFld_uart (s : State) (k lo len v : Nat) (m : Fin 3) : (s.setFld k lo len v).uart m = s.uart m := rfl
@[simp] theorem State.setFlag_core (s : State) (k i : Nat) (b : Bool) (m : CoreId) : (s.setFlag k i b).core m = s.core m := rfl
@[simp] theorem State.setFlag_pt (s : State) (k i : Nat) (b : Bool) (m : Fin 48) : (s.setFlag k i b).pt m = s.pt m := rfl
@[simp] theorem State.setFlag_gt (s : State) (k i : Nat) (b : Bool) (m : Fin 32) : (s.setFlag k i b).gt m = s.gt m := rfl
@[simp] theorem State.setFlag_adc (s : State) (k i : Nat) (b : Bool) (m : Fin 16) : (s.setFlag k i b).adc m = s.adc m := rfl
@[simp] theorem State.setFlag_relief (s : State) (k i : Nat) (b : Bool) (m : Fin 2) : (s.setFlag k i b).relief m = s.relief m := rfl
@[simp] theorem State.setFlag_sd (s : State) (k i : Nat) (b : Bool) (m : Fin 8) : (s.setFlag k i b).sd m = s.sd m := rfl
@[simp] theorem State.setFlag_cmp (s : State) (k i : Nat) (b : Bool) (m : Fin 32) : (s.setFlag k i b).cmp m = s.cmp m := rfl
@[simp] theorem State.setFlag_pair (s : State) (k i : Nat) (b : Bool) (m : Fin 16) : (s.setFlag k i b).pair m = s.pair m := rfl
@[simp] theorem State.setFlag_dma (s : State) (k i : Nat) (b : Bool) (m : Fin 16) : (s.setFlag k i b).dma m = s.dma m := rfl
@[simp] theorem State.setFlag_flBank (s : State) (k i : Nat) (b : Bool) (m : Fin 5) : (s.setFlag k i b).flBank m = s.flBank m := rfl
@[simp] theorem State.setFlag_pg (s : State) (k i : Nat) (b : Bool) (m : Fin 8) : (s.setFlag k i b).pg m = s.pg m := rfl
@[simp] theorem State.setFlag_link (s : State) (k i : Nat) (b : Bool) (m : Fin 4) : (s.setFlag k i b).link m = s.link m := rfl
@[simp] theorem State.setFlag_eth (s : State) (k i : Nat) (b : Bool) (m : Fin 2) : (s.setFlag k i b).eth m = s.eth m := rfl
@[simp] theorem State.setFlag_can (s : State) (k i : Nat) (b : Bool) (m : Fin 6) : (s.setFlag k i b).can m = s.can m := rfl
@[simp] theorem State.setFlag_uart (s : State) (k i : Nat) (b : Bool) (m : Fin 3) : (s.setFlag k i b).uart m = s.uart m := rfl
@[simp] theorem State.count_core (s : State) (k lo len n : Nat) (m : CoreId) : (s.count k lo len n).core m = s.core m := rfl
@[simp] theorem State.count_pt (s : State) (k lo len n : Nat) (m : Fin 48) : (s.count k lo len n).pt m = s.pt m := rfl
@[simp] theorem State.count_gt (s : State) (k lo len n : Nat) (m : Fin 32) : (s.count k lo len n).gt m = s.gt m := rfl
@[simp] theorem State.count_adc (s : State) (k lo len n : Nat) (m : Fin 16) : (s.count k lo len n).adc m = s.adc m := rfl
@[simp] theorem State.count_relief (s : State) (k lo len n : Nat) (m : Fin 2) : (s.count k lo len n).relief m = s.relief m := rfl
@[simp] theorem State.count_sd (s : State) (k lo len n : Nat) (m : Fin 8) : (s.count k lo len n).sd m = s.sd m := rfl
@[simp] theorem State.count_cmp (s : State) (k lo len n : Nat) (m : Fin 32) : (s.count k lo len n).cmp m = s.cmp m := rfl
@[simp] theorem State.count_pair (s : State) (k lo len n : Nat) (m : Fin 16) : (s.count k lo len n).pair m = s.pair m := rfl
@[simp] theorem State.count_dma (s : State) (k lo len n : Nat) (m : Fin 16) : (s.count k lo len n).dma m = s.dma m := rfl
@[simp] theorem State.count_flBank (s : State) (k lo len n : Nat) (m : Fin 5) : (s.count k lo len n).flBank m = s.flBank m := rfl
@[simp] theorem State.count_pg (s : State) (k lo len n : Nat) (m : Fin 8) : (s.count k lo len n).pg m = s.pg m := rfl
@[simp] theorem State.count_link (s : State) (k lo len n : Nat) (m : Fin 4) : (s.count k lo len n).link m = s.link m := rfl
@[simp] theorem State.count_eth (s : State) (k lo len n : Nat) (m : Fin 2) : (s.count k lo len n).eth m = s.eth m := rfl
@[simp] theorem State.count_can (s : State) (k lo len n : Nat) (m : Fin 6) : (s.count k lo len n).can m = s.can m := rfl
@[simp] theorem State.count_uart (s : State) (k lo len n : Nat) (m : Fin 3) : (s.count k lo len n).uart m = s.uart m := rfl
@[simp] theorem State.writeRg_core (s : State) (l : Bool) (k : Nat) (v : Word) (m : CoreId) : (s.writeRg l k v).core m = s.core m := rfl
@[simp] theorem State.writeRg_pt (s : State) (l : Bool) (k : Nat) (v : Word) (m : Fin 48) : (s.writeRg l k v).pt m = s.pt m := rfl
@[simp] theorem State.writeRg_gt (s : State) (l : Bool) (k : Nat) (v : Word) (m : Fin 32) : (s.writeRg l k v).gt m = s.gt m := rfl
@[simp] theorem State.writeRg_adc (s : State) (l : Bool) (k : Nat) (v : Word) (m : Fin 16) : (s.writeRg l k v).adc m = s.adc m := rfl
@[simp] theorem State.writeRg_relief (s : State) (l : Bool) (k : Nat) (v : Word) (m : Fin 2) : (s.writeRg l k v).relief m = s.relief m := rfl
@[simp] theorem State.writeRg_sd (s : State) (l : Bool) (k : Nat) (v : Word) (m : Fin 8) : (s.writeRg l k v).sd m = s.sd m := rfl
@[simp] theorem State.writeRg_cmp (s : State) (l : Bool) (k : Nat) (v : Word) (m : Fin 32) : (s.writeRg l k v).cmp m = s.cmp m := rfl
@[simp] theorem State.writeRg_pair (s : State) (l : Bool) (k : Nat) (v : Word) (m : Fin 16) : (s.writeRg l k v).pair m = s.pair m := rfl
@[simp] theorem State.writeRg_dma (s : State) (l : Bool) (k : Nat) (v : Word) (m : Fin 16) : (s.writeRg l k v).dma m = s.dma m := rfl
@[simp] theorem State.writeRg_flBank (s : State) (l : Bool) (k : Nat) (v : Word) (m : Fin 5) : (s.writeRg l k v).flBank m = s.flBank m := rfl
@[simp] theorem State.writeRg_pg (s : State) (l : Bool) (k : Nat) (v : Word) (m : Fin 8) : (s.writeRg l k v).pg m = s.pg m := rfl
@[simp] theorem State.writeRg_link (s : State) (l : Bool) (k : Nat) (v : Word) (m : Fin 4) : (s.writeRg l k v).link m = s.link m := rfl
@[simp] theorem State.writeRg_eth (s : State) (l : Bool) (k : Nat) (v : Word) (m : Fin 2) : (s.writeRg l k v).eth m = s.eth m := rfl
@[simp] theorem State.writeRg_can (s : State) (l : Bool) (k : Nat) (v : Word) (m : Fin 6) : (s.writeRg l k v).can m = s.can m := rfl
@[simp] theorem State.writeRg_uart (s : State) (l : Bool) (k : Nat) (v : Word) (m : Fin 3) : (s.writeRg l k v).uart m = s.uart m := rfl
@[simp] theorem State.putBit_core (s : State) (k d : Nat) (b : Bool) (m : CoreId) : (s.putBit k d b).core m = s.core m := rfl
@[simp] theorem State.putBit_pt (s : State) (k d : Nat) (b : Bool) (m : Fin 48) : (s.putBit k d b).pt m = s.pt m := rfl
@[simp] theorem State.putBit_gt (s : State) (k d : Nat) (b : Bool) (m : Fin 32) : (s.putBit k d b).gt m = s.gt m := rfl
@[simp] theorem State.putBit_adc (s : State) (k d : Nat) (b : Bool) (m : Fin 16) : (s.putBit k d b).adc m = s.adc m := rfl
@[simp] theorem State.putBit_relief (s : State) (k d : Nat) (b : Bool) (m : Fin 2) : (s.putBit k d b).relief m = s.relief m := rfl
@[simp] theorem State.putBit_sd (s : State) (k d : Nat) (b : Bool) (m : Fin 8) : (s.putBit k d b).sd m = s.sd m := rfl
@[simp] theorem State.putBit_cmp (s : State) (k d : Nat) (b : Bool) (m : Fin 32) : (s.putBit k d b).cmp m = s.cmp m := rfl
@[simp] theorem State.putBit_pair (s : State) (k d : Nat) (b : Bool) (m : Fin 16) : (s.putBit k d b).pair m = s.pair m := rfl
@[simp] theorem State.putBit_dma (s : State) (k d : Nat) (b : Bool) (m : Fin 16) : (s.putBit k d b).dma m = s.dma m := rfl
@[simp] theorem State.putBit_flBank (s : State) (k d : Nat) (b : Bool) (m : Fin 5) : (s.putBit k d b).flBank m = s.flBank m := rfl
@[simp] theorem State.putBit_pg (s : State) (k d : Nat) (b : Bool) (m : Fin 8) : (s.putBit k d b).pg m = s.pg m := rfl
@[simp] theorem State.putBit_link (s : State) (k d : Nat) (b : Bool) (m : Fin 4) : (s.putBit k d b).link m = s.link m := rfl
@[simp] theorem State.putBit_eth (s : State) (k d : Nat) (b : Bool) (m : Fin 2) : (s.putBit k d b).eth m = s.eth m := rfl
@[simp] theorem State.putBit_can (s : State) (k d : Nat) (b : Bool) (m : Fin 6) : (s.putBit k d b).can m = s.can m := rfl
@[simp] theorem State.putBit_uart (s : State) (k d : Nat) (b : Bool) (m : Fin 3) : (s.putBit k d b).uart m = s.uart m := rfl
@[simp] theorem State.hwFlag_core (s : State) (k i : Nat) (m : CoreId) : (s.hwFlag k i).core m = s.core m := rfl
@[simp] theorem State.hwFlag_pt (s : State) (k i : Nat) (m : Fin 48) : (s.hwFlag k i).pt m = s.pt m := rfl
@[simp] theorem State.hwFlag_gt (s : State) (k i : Nat) (m : Fin 32) : (s.hwFlag k i).gt m = s.gt m := rfl
@[simp] theorem State.hwFlag_adc (s : State) (k i : Nat) (m : Fin 16) : (s.hwFlag k i).adc m = s.adc m := rfl
@[simp] theorem State.hwFlag_relief (s : State) (k i : Nat) (m : Fin 2) : (s.hwFlag k i).relief m = s.relief m := rfl
@[simp] theorem State.hwFlag_sd (s : State) (k i : Nat) (m : Fin 8) : (s.hwFlag k i).sd m = s.sd m := rfl
@[simp] theorem State.hwFlag_cmp (s : State) (k i : Nat) (m : Fin 32) : (s.hwFlag k i).cmp m = s.cmp m := rfl
@[simp] theorem State.hwFlag_pair (s : State) (k i : Nat) (m : Fin 16) : (s.hwFlag k i).pair m = s.pair m := rfl
@[simp] theorem State.hwFlag_dma (s : State) (k i : Nat) (m : Fin 16) : (s.hwFlag k i).dma m = s.dma m := rfl
@[simp] theorem State.hwFlag_flBank (s : State) (k i : Nat) (m : Fin 5) : (s.hwFlag k i).flBank m = s.flBank m := rfl
@[simp] theorem State.hwFlag_pg (s : State) (k i : Nat) (m : Fin 8) : (s.hwFlag k i).pg m = s.pg m := rfl
@[simp] theorem State.hwFlag_link (s : State) (k i : Nat) (m : Fin 4) : (s.hwFlag k i).link m = s.link m := rfl
@[simp] theorem State.hwFlag_eth (s : State) (k i : Nat) (m : Fin 2) : (s.hwFlag k i).eth m = s.eth m := rfl
@[simp] theorem State.hwFlag_can (s : State) (k i : Nat) (m : Fin 6) : (s.hwFlag k i).can m = s.can m := rfl
@[simp] theorem State.hwFlag_uart (s : State) (k i : Nat) (m : Fin 3) : (s.hwFlag k i).uart m = s.uart m := rfl
@[simp] theorem State.refuse_core (s : State) (c : BusCause) (m : CoreId) : (s.refuse c).core m = s.core m := rfl
@[simp] theorem State.refuse_pt (s : State) (c : BusCause) (m : Fin 48) : (s.refuse c).pt m = s.pt m := rfl
@[simp] theorem State.refuse_gt (s : State) (c : BusCause) (m : Fin 32) : (s.refuse c).gt m = s.gt m := rfl
@[simp] theorem State.refuse_adc (s : State) (c : BusCause) (m : Fin 16) : (s.refuse c).adc m = s.adc m := rfl
@[simp] theorem State.refuse_relief (s : State) (c : BusCause) (m : Fin 2) : (s.refuse c).relief m = s.relief m := rfl
@[simp] theorem State.refuse_sd (s : State) (c : BusCause) (m : Fin 8) : (s.refuse c).sd m = s.sd m := rfl
@[simp] theorem State.refuse_cmp (s : State) (c : BusCause) (m : Fin 32) : (s.refuse c).cmp m = s.cmp m := rfl
@[simp] theorem State.refuse_pair (s : State) (c : BusCause) (m : Fin 16) : (s.refuse c).pair m = s.pair m := rfl
@[simp] theorem State.refuse_dma (s : State) (c : BusCause) (m : Fin 16) : (s.refuse c).dma m = s.dma m := rfl
@[simp] theorem State.refuse_flBank (s : State) (c : BusCause) (m : Fin 5) : (s.refuse c).flBank m = s.flBank m := rfl
@[simp] theorem State.refuse_pg (s : State) (c : BusCause) (m : Fin 8) : (s.refuse c).pg m = s.pg m := rfl
@[simp] theorem State.refuse_link (s : State) (c : BusCause) (m : Fin 4) : (s.refuse c).link m = s.link m := rfl
@[simp] theorem State.refuse_eth (s : State) (c : BusCause) (m : Fin 2) : (s.refuse c).eth m = s.eth m := rfl
@[simp] theorem State.refuse_can (s : State) (c : BusCause) (m : Fin 6) : (s.refuse c).can m = s.can m := rfl
@[simp] theorem State.refuse_uart (s : State) (c : BusCause) (m : Fin 3) : (s.refuse c).uart m = s.uart m := rfl
@[simp] theorem State.refuse_rg (s : State) (c : BusCause) (j : Nat) : (s.refuse c).rg j = s.rg j := rfl
@[simp] theorem State.answer_core (s : State) (w : Word) (m : CoreId) : (s.answer w).core m = s.core m := rfl
@[simp] theorem State.answer_pt (s : State) (w : Word) (m : Fin 48) : (s.answer w).pt m = s.pt m := rfl
@[simp] theorem State.answer_gt (s : State) (w : Word) (m : Fin 32) : (s.answer w).gt m = s.gt m := rfl
@[simp] theorem State.answer_adc (s : State) (w : Word) (m : Fin 16) : (s.answer w).adc m = s.adc m := rfl
@[simp] theorem State.answer_relief (s : State) (w : Word) (m : Fin 2) : (s.answer w).relief m = s.relief m := rfl
@[simp] theorem State.answer_sd (s : State) (w : Word) (m : Fin 8) : (s.answer w).sd m = s.sd m := rfl
@[simp] theorem State.answer_cmp (s : State) (w : Word) (m : Fin 32) : (s.answer w).cmp m = s.cmp m := rfl
@[simp] theorem State.answer_pair (s : State) (w : Word) (m : Fin 16) : (s.answer w).pair m = s.pair m := rfl
@[simp] theorem State.answer_dma (s : State) (w : Word) (m : Fin 16) : (s.answer w).dma m = s.dma m := rfl
@[simp] theorem State.answer_flBank (s : State) (w : Word) (m : Fin 5) : (s.answer w).flBank m = s.flBank m := rfl
@[simp] theorem State.answer_pg (s : State) (w : Word) (m : Fin 8) : (s.answer w).pg m = s.pg m := rfl
@[simp] theorem State.answer_link (s : State) (w : Word) (m : Fin 4) : (s.answer w).link m = s.link m := rfl
@[simp] theorem State.answer_eth (s : State) (w : Word) (m : Fin 2) : (s.answer w).eth m = s.eth m := rfl
@[simp] theorem State.answer_can (s : State) (w : Word) (m : Fin 6) : (s.answer w).can m = s.can m := rfl
@[simp] theorem State.answer_uart (s : State) (w : Word) (m : Fin 3) : (s.answer w).uart m = s.uart m := rfl
@[simp] theorem State.answer_rg (s : State) (w : Word) (j : Nat) : (s.answer w).rg j = s.rg j := rfl
@[simp] theorem State.after_core (s : State) (n : Nat) (i : Instr) (m : CoreId) : (s.after n i).core m = s.core m := rfl
@[simp] theorem State.after_pt (s : State) (n : Nat) (i : Instr) (m : Fin 48) : (s.after n i).pt m = s.pt m := rfl
@[simp] theorem State.after_gt (s : State) (n : Nat) (i : Instr) (m : Fin 32) : (s.after n i).gt m = s.gt m := rfl
@[simp] theorem State.after_adc (s : State) (n : Nat) (i : Instr) (m : Fin 16) : (s.after n i).adc m = s.adc m := rfl
@[simp] theorem State.after_relief (s : State) (n : Nat) (i : Instr) (m : Fin 2) : (s.after n i).relief m = s.relief m := rfl
@[simp] theorem State.after_sd (s : State) (n : Nat) (i : Instr) (m : Fin 8) : (s.after n i).sd m = s.sd m := rfl
@[simp] theorem State.after_cmp (s : State) (n : Nat) (i : Instr) (m : Fin 32) : (s.after n i).cmp m = s.cmp m := rfl
@[simp] theorem State.after_pair (s : State) (n : Nat) (i : Instr) (m : Fin 16) : (s.after n i).pair m = s.pair m := rfl
@[simp] theorem State.after_dma (s : State) (n : Nat) (i : Instr) (m : Fin 16) : (s.after n i).dma m = s.dma m := rfl
@[simp] theorem State.after_flBank (s : State) (n : Nat) (i : Instr) (m : Fin 5) : (s.after n i).flBank m = s.flBank m := rfl
@[simp] theorem State.after_pg (s : State) (n : Nat) (i : Instr) (m : Fin 8) : (s.after n i).pg m = s.pg m := rfl
@[simp] theorem State.after_link (s : State) (n : Nat) (i : Instr) (m : Fin 4) : (s.after n i).link m = s.link m := rfl
@[simp] theorem State.after_eth (s : State) (n : Nat) (i : Instr) (m : Fin 2) : (s.after n i).eth m = s.eth m := rfl
@[simp] theorem State.after_can (s : State) (n : Nat) (i : Instr) (m : Fin 6) : (s.after n i).can m = s.can m := rfl
@[simp] theorem State.after_uart (s : State) (n : Nat) (i : Instr) (m : Fin 3) : (s.after n i).uart m = s.uart m := rfl
@[simp] theorem State.after_rg (s : State) (n : Nat) (i : Instr) (j : Nat) : (s.after n i).rg j = s.rg j := rfl
@[simp] theorem State.cancelDue_core (s : State) (i : Instr) (m : CoreId) : (s.cancelDue i).core m = s.core m := rfl
@[simp] theorem State.cancelDue_pt (s : State) (i : Instr) (m : Fin 48) : (s.cancelDue i).pt m = s.pt m := rfl
@[simp] theorem State.cancelDue_gt (s : State) (i : Instr) (m : Fin 32) : (s.cancelDue i).gt m = s.gt m := rfl
@[simp] theorem State.cancelDue_adc (s : State) (i : Instr) (m : Fin 16) : (s.cancelDue i).adc m = s.adc m := rfl
@[simp] theorem State.cancelDue_relief (s : State) (i : Instr) (m : Fin 2) : (s.cancelDue i).relief m = s.relief m := rfl
@[simp] theorem State.cancelDue_sd (s : State) (i : Instr) (m : Fin 8) : (s.cancelDue i).sd m = s.sd m := rfl
@[simp] theorem State.cancelDue_cmp (s : State) (i : Instr) (m : Fin 32) : (s.cancelDue i).cmp m = s.cmp m := rfl
@[simp] theorem State.cancelDue_pair (s : State) (i : Instr) (m : Fin 16) : (s.cancelDue i).pair m = s.pair m := rfl
@[simp] theorem State.cancelDue_dma (s : State) (i : Instr) (m : Fin 16) : (s.cancelDue i).dma m = s.dma m := rfl
@[simp] theorem State.cancelDue_flBank (s : State) (i : Instr) (m : Fin 5) : (s.cancelDue i).flBank m = s.flBank m := rfl
@[simp] theorem State.cancelDue_pg (s : State) (i : Instr) (m : Fin 8) : (s.cancelDue i).pg m = s.pg m := rfl
@[simp] theorem State.cancelDue_link (s : State) (i : Instr) (m : Fin 4) : (s.cancelDue i).link m = s.link m := rfl
@[simp] theorem State.cancelDue_eth (s : State) (i : Instr) (m : Fin 2) : (s.cancelDue i).eth m = s.eth m := rfl
@[simp] theorem State.cancelDue_can (s : State) (i : Instr) (m : Fin 6) : (s.cancelDue i).can m = s.can m := rfl
@[simp] theorem State.cancelDue_uart (s : State) (i : Instr) (m : Fin 3) : (s.cancelDue i).uart m = s.uart m := rfl
@[simp] theorem State.cancelDue_rg (s : State) (i : Instr) (j : Nat) : (s.cancelDue i).rg j = s.rg j := rfl
@[simp] theorem State.setCore_pt (s : State) (c : CoreId) (k : CoreState) (m : Fin 48) : (s.setCore c k).pt m = s.pt m := rfl
@[simp] theorem State.setCore_gt (s : State) (c : CoreId) (k : CoreState) (m : Fin 32) : (s.setCore c k).gt m = s.gt m := rfl
@[simp] theorem State.setCore_adc (s : State) (c : CoreId) (k : CoreState) (m : Fin 16) : (s.setCore c k).adc m = s.adc m := rfl
@[simp] theorem State.setCore_relief (s : State) (c : CoreId) (k : CoreState) (m : Fin 2) : (s.setCore c k).relief m = s.relief m := rfl
@[simp] theorem State.setCore_sd (s : State) (c : CoreId) (k : CoreState) (m : Fin 8) : (s.setCore c k).sd m = s.sd m := rfl
@[simp] theorem State.setCore_cmp (s : State) (c : CoreId) (k : CoreState) (m : Fin 32) : (s.setCore c k).cmp m = s.cmp m := rfl
@[simp] theorem State.setCore_pair (s : State) (c : CoreId) (k : CoreState) (m : Fin 16) : (s.setCore c k).pair m = s.pair m := rfl
@[simp] theorem State.setCore_dma (s : State) (c : CoreId) (k : CoreState) (m : Fin 16) : (s.setCore c k).dma m = s.dma m := rfl
@[simp] theorem State.setCore_flBank (s : State) (c : CoreId) (k : CoreState) (m : Fin 5) : (s.setCore c k).flBank m = s.flBank m := rfl
@[simp] theorem State.setCore_pg (s : State) (c : CoreId) (k : CoreState) (m : Fin 8) : (s.setCore c k).pg m = s.pg m := rfl
@[simp] theorem State.setCore_link (s : State) (c : CoreId) (k : CoreState) (m : Fin 4) : (s.setCore c k).link m = s.link m := rfl
@[simp] theorem State.setCore_eth (s : State) (c : CoreId) (k : CoreState) (m : Fin 2) : (s.setCore c k).eth m = s.eth m := rfl
@[simp] theorem State.setCore_can (s : State) (c : CoreId) (k : CoreState) (m : Fin 6) : (s.setCore c k).can m = s.can m := rfl
@[simp] theorem State.setCore_uart (s : State) (c : CoreId) (k : CoreState) (m : Fin 3) : (s.setCore c k).uart m = s.uart m := rfl
@[simp] theorem State.setCore_rg (s : State) (c : CoreId) (k : CoreState) (j : Nat) : (s.setCore c k).rg j = s.rg j := rfl
@[simp] theorem State.setPt_core (s : State) (n : Fin 48) (p : PwmState) (m : CoreId) : (s.setPt n p).core m = s.core m := rfl
@[simp] theorem State.setPt_gt (s : State) (n : Fin 48) (p : PwmState) (m : Fin 32) : (s.setPt n p).gt m = s.gt m := rfl
@[simp] theorem State.setPt_adc (s : State) (n : Fin 48) (p : PwmState) (m : Fin 16) : (s.setPt n p).adc m = s.adc m := rfl
@[simp] theorem State.setPt_relief (s : State) (n : Fin 48) (p : PwmState) (m : Fin 2) : (s.setPt n p).relief m = s.relief m := rfl
@[simp] theorem State.setPt_sd (s : State) (n : Fin 48) (p : PwmState) (m : Fin 8) : (s.setPt n p).sd m = s.sd m := rfl
@[simp] theorem State.setPt_cmp (s : State) (n : Fin 48) (p : PwmState) (m : Fin 32) : (s.setPt n p).cmp m = s.cmp m := rfl
@[simp] theorem State.setPt_pair (s : State) (n : Fin 48) (p : PwmState) (m : Fin 16) : (s.setPt n p).pair m = s.pair m := rfl
@[simp] theorem State.setPt_dma (s : State) (n : Fin 48) (p : PwmState) (m : Fin 16) : (s.setPt n p).dma m = s.dma m := rfl
@[simp] theorem State.setPt_flBank (s : State) (n : Fin 48) (p : PwmState) (m : Fin 5) : (s.setPt n p).flBank m = s.flBank m := rfl
@[simp] theorem State.setPt_pg (s : State) (n : Fin 48) (p : PwmState) (m : Fin 8) : (s.setPt n p).pg m = s.pg m := rfl
@[simp] theorem State.setPt_link (s : State) (n : Fin 48) (p : PwmState) (m : Fin 4) : (s.setPt n p).link m = s.link m := rfl
@[simp] theorem State.setPt_eth (s : State) (n : Fin 48) (p : PwmState) (m : Fin 2) : (s.setPt n p).eth m = s.eth m := rfl
@[simp] theorem State.setPt_can (s : State) (n : Fin 48) (p : PwmState) (m : Fin 6) : (s.setPt n p).can m = s.can m := rfl
@[simp] theorem State.setPt_uart (s : State) (n : Fin 48) (p : PwmState) (m : Fin 3) : (s.setPt n p).uart m = s.uart m := rfl
@[simp] theorem State.setPt_rg (s : State) (n : Fin 48) (p : PwmState) (j : Nat) : (s.setPt n p).rg j = s.rg j := rfl
@[simp] theorem State.setGt_core (s : State) (n : Fin 32) (p : GtState) (m : CoreId) : (s.setGt n p).core m = s.core m := rfl
@[simp] theorem State.setGt_pt (s : State) (n : Fin 32) (p : GtState) (m : Fin 48) : (s.setGt n p).pt m = s.pt m := rfl
@[simp] theorem State.setGt_adc (s : State) (n : Fin 32) (p : GtState) (m : Fin 16) : (s.setGt n p).adc m = s.adc m := rfl
@[simp] theorem State.setGt_relief (s : State) (n : Fin 32) (p : GtState) (m : Fin 2) : (s.setGt n p).relief m = s.relief m := rfl
@[simp] theorem State.setGt_sd (s : State) (n : Fin 32) (p : GtState) (m : Fin 8) : (s.setGt n p).sd m = s.sd m := rfl
@[simp] theorem State.setGt_cmp (s : State) (n : Fin 32) (p : GtState) (m : Fin 32) : (s.setGt n p).cmp m = s.cmp m := rfl
@[simp] theorem State.setGt_pair (s : State) (n : Fin 32) (p : GtState) (m : Fin 16) : (s.setGt n p).pair m = s.pair m := rfl
@[simp] theorem State.setGt_dma (s : State) (n : Fin 32) (p : GtState) (m : Fin 16) : (s.setGt n p).dma m = s.dma m := rfl
@[simp] theorem State.setGt_flBank (s : State) (n : Fin 32) (p : GtState) (m : Fin 5) : (s.setGt n p).flBank m = s.flBank m := rfl
@[simp] theorem State.setGt_pg (s : State) (n : Fin 32) (p : GtState) (m : Fin 8) : (s.setGt n p).pg m = s.pg m := rfl
@[simp] theorem State.setGt_link (s : State) (n : Fin 32) (p : GtState) (m : Fin 4) : (s.setGt n p).link m = s.link m := rfl
@[simp] theorem State.setGt_eth (s : State) (n : Fin 32) (p : GtState) (m : Fin 2) : (s.setGt n p).eth m = s.eth m := rfl
@[simp] theorem State.setGt_can (s : State) (n : Fin 32) (p : GtState) (m : Fin 6) : (s.setGt n p).can m = s.can m := rfl
@[simp] theorem State.setGt_uart (s : State) (n : Fin 32) (p : GtState) (m : Fin 3) : (s.setGt n p).uart m = s.uart m := rfl
@[simp] theorem State.setGt_rg (s : State) (n : Fin 32) (p : GtState) (j : Nat) : (s.setGt n p).rg j = s.rg j := rfl
@[simp] theorem State.setAdc_core (s : State) (n : Fin 16) (p : AdcState) (m : CoreId) : (s.setAdc n p).core m = s.core m := rfl
@[simp] theorem State.setAdc_pt (s : State) (n : Fin 16) (p : AdcState) (m : Fin 48) : (s.setAdc n p).pt m = s.pt m := rfl
@[simp] theorem State.setAdc_gt (s : State) (n : Fin 16) (p : AdcState) (m : Fin 32) : (s.setAdc n p).gt m = s.gt m := rfl
@[simp] theorem State.setAdc_relief (s : State) (n : Fin 16) (p : AdcState) (m : Fin 2) : (s.setAdc n p).relief m = s.relief m := rfl
@[simp] theorem State.setAdc_sd (s : State) (n : Fin 16) (p : AdcState) (m : Fin 8) : (s.setAdc n p).sd m = s.sd m := rfl
@[simp] theorem State.setAdc_cmp (s : State) (n : Fin 16) (p : AdcState) (m : Fin 32) : (s.setAdc n p).cmp m = s.cmp m := rfl
@[simp] theorem State.setAdc_pair (s : State) (n : Fin 16) (p : AdcState) (m : Fin 16) : (s.setAdc n p).pair m = s.pair m := rfl
@[simp] theorem State.setAdc_dma (s : State) (n : Fin 16) (p : AdcState) (m : Fin 16) : (s.setAdc n p).dma m = s.dma m := rfl
@[simp] theorem State.setAdc_flBank (s : State) (n : Fin 16) (p : AdcState) (m : Fin 5) : (s.setAdc n p).flBank m = s.flBank m := rfl
@[simp] theorem State.setAdc_pg (s : State) (n : Fin 16) (p : AdcState) (m : Fin 8) : (s.setAdc n p).pg m = s.pg m := rfl
@[simp] theorem State.setAdc_link (s : State) (n : Fin 16) (p : AdcState) (m : Fin 4) : (s.setAdc n p).link m = s.link m := rfl
@[simp] theorem State.setAdc_eth (s : State) (n : Fin 16) (p : AdcState) (m : Fin 2) : (s.setAdc n p).eth m = s.eth m := rfl
@[simp] theorem State.setAdc_can (s : State) (n : Fin 16) (p : AdcState) (m : Fin 6) : (s.setAdc n p).can m = s.can m := rfl
@[simp] theorem State.setAdc_uart (s : State) (n : Fin 16) (p : AdcState) (m : Fin 3) : (s.setAdc n p).uart m = s.uart m := rfl
@[simp] theorem State.setAdc_rg (s : State) (n : Fin 16) (p : AdcState) (j : Nat) : (s.setAdc n p).rg j = s.rg j := rfl
@[simp] theorem State.setRelief_core (s : State) (n : Fin 2) (p : ReliefState) (m : CoreId) : (s.setRelief n p).core m = s.core m := rfl
@[simp] theorem State.setRelief_pt (s : State) (n : Fin 2) (p : ReliefState) (m : Fin 48) : (s.setRelief n p).pt m = s.pt m := rfl
@[simp] theorem State.setRelief_gt (s : State) (n : Fin 2) (p : ReliefState) (m : Fin 32) : (s.setRelief n p).gt m = s.gt m := rfl
@[simp] theorem State.setRelief_adc (s : State) (n : Fin 2) (p : ReliefState) (m : Fin 16) : (s.setRelief n p).adc m = s.adc m := rfl
@[simp] theorem State.setRelief_sd (s : State) (n : Fin 2) (p : ReliefState) (m : Fin 8) : (s.setRelief n p).sd m = s.sd m := rfl
@[simp] theorem State.setRelief_cmp (s : State) (n : Fin 2) (p : ReliefState) (m : Fin 32) : (s.setRelief n p).cmp m = s.cmp m := rfl
@[simp] theorem State.setRelief_pair (s : State) (n : Fin 2) (p : ReliefState) (m : Fin 16) : (s.setRelief n p).pair m = s.pair m := rfl
@[simp] theorem State.setRelief_dma (s : State) (n : Fin 2) (p : ReliefState) (m : Fin 16) : (s.setRelief n p).dma m = s.dma m := rfl
@[simp] theorem State.setRelief_flBank (s : State) (n : Fin 2) (p : ReliefState) (m : Fin 5) : (s.setRelief n p).flBank m = s.flBank m := rfl
@[simp] theorem State.setRelief_pg (s : State) (n : Fin 2) (p : ReliefState) (m : Fin 8) : (s.setRelief n p).pg m = s.pg m := rfl
@[simp] theorem State.setRelief_link (s : State) (n : Fin 2) (p : ReliefState) (m : Fin 4) : (s.setRelief n p).link m = s.link m := rfl
@[simp] theorem State.setRelief_eth (s : State) (n : Fin 2) (p : ReliefState) (m : Fin 2) : (s.setRelief n p).eth m = s.eth m := rfl
@[simp] theorem State.setRelief_can (s : State) (n : Fin 2) (p : ReliefState) (m : Fin 6) : (s.setRelief n p).can m = s.can m := rfl
@[simp] theorem State.setRelief_uart (s : State) (n : Fin 2) (p : ReliefState) (m : Fin 3) : (s.setRelief n p).uart m = s.uart m := rfl
@[simp] theorem State.setRelief_rg (s : State) (n : Fin 2) (p : ReliefState) (j : Nat) : (s.setRelief n p).rg j = s.rg j := rfl
@[simp] theorem State.setSd_core (s : State) (n : Fin 8) (p : SdState) (m : CoreId) : (s.setSd n p).core m = s.core m := rfl
@[simp] theorem State.setSd_pt (s : State) (n : Fin 8) (p : SdState) (m : Fin 48) : (s.setSd n p).pt m = s.pt m := rfl
@[simp] theorem State.setSd_gt (s : State) (n : Fin 8) (p : SdState) (m : Fin 32) : (s.setSd n p).gt m = s.gt m := rfl
@[simp] theorem State.setSd_adc (s : State) (n : Fin 8) (p : SdState) (m : Fin 16) : (s.setSd n p).adc m = s.adc m := rfl
@[simp] theorem State.setSd_relief (s : State) (n : Fin 8) (p : SdState) (m : Fin 2) : (s.setSd n p).relief m = s.relief m := rfl
@[simp] theorem State.setSd_cmp (s : State) (n : Fin 8) (p : SdState) (m : Fin 32) : (s.setSd n p).cmp m = s.cmp m := rfl
@[simp] theorem State.setSd_pair (s : State) (n : Fin 8) (p : SdState) (m : Fin 16) : (s.setSd n p).pair m = s.pair m := rfl
@[simp] theorem State.setSd_dma (s : State) (n : Fin 8) (p : SdState) (m : Fin 16) : (s.setSd n p).dma m = s.dma m := rfl
@[simp] theorem State.setSd_flBank (s : State) (n : Fin 8) (p : SdState) (m : Fin 5) : (s.setSd n p).flBank m = s.flBank m := rfl
@[simp] theorem State.setSd_pg (s : State) (n : Fin 8) (p : SdState) (m : Fin 8) : (s.setSd n p).pg m = s.pg m := rfl
@[simp] theorem State.setSd_link (s : State) (n : Fin 8) (p : SdState) (m : Fin 4) : (s.setSd n p).link m = s.link m := rfl
@[simp] theorem State.setSd_eth (s : State) (n : Fin 8) (p : SdState) (m : Fin 2) : (s.setSd n p).eth m = s.eth m := rfl
@[simp] theorem State.setSd_can (s : State) (n : Fin 8) (p : SdState) (m : Fin 6) : (s.setSd n p).can m = s.can m := rfl
@[simp] theorem State.setSd_uart (s : State) (n : Fin 8) (p : SdState) (m : Fin 3) : (s.setSd n p).uart m = s.uart m := rfl
@[simp] theorem State.setSd_rg (s : State) (n : Fin 8) (p : SdState) (j : Nat) : (s.setSd n p).rg j = s.rg j := rfl
@[simp] theorem State.setCmp_core (s : State) (n : Fin 32) (p : CmpCore) (m : CoreId) : (s.setCmp n p).core m = s.core m := rfl
@[simp] theorem State.setCmp_pt (s : State) (n : Fin 32) (p : CmpCore) (m : Fin 48) : (s.setCmp n p).pt m = s.pt m := rfl
@[simp] theorem State.setCmp_gt (s : State) (n : Fin 32) (p : CmpCore) (m : Fin 32) : (s.setCmp n p).gt m = s.gt m := rfl
@[simp] theorem State.setCmp_adc (s : State) (n : Fin 32) (p : CmpCore) (m : Fin 16) : (s.setCmp n p).adc m = s.adc m := rfl
@[simp] theorem State.setCmp_relief (s : State) (n : Fin 32) (p : CmpCore) (m : Fin 2) : (s.setCmp n p).relief m = s.relief m := rfl
@[simp] theorem State.setCmp_sd (s : State) (n : Fin 32) (p : CmpCore) (m : Fin 8) : (s.setCmp n p).sd m = s.sd m := rfl
@[simp] theorem State.setCmp_pair (s : State) (n : Fin 32) (p : CmpCore) (m : Fin 16) : (s.setCmp n p).pair m = s.pair m := rfl
@[simp] theorem State.setCmp_dma (s : State) (n : Fin 32) (p : CmpCore) (m : Fin 16) : (s.setCmp n p).dma m = s.dma m := rfl
@[simp] theorem State.setCmp_flBank (s : State) (n : Fin 32) (p : CmpCore) (m : Fin 5) : (s.setCmp n p).flBank m = s.flBank m := rfl
@[simp] theorem State.setCmp_pg (s : State) (n : Fin 32) (p : CmpCore) (m : Fin 8) : (s.setCmp n p).pg m = s.pg m := rfl
@[simp] theorem State.setCmp_link (s : State) (n : Fin 32) (p : CmpCore) (m : Fin 4) : (s.setCmp n p).link m = s.link m := rfl
@[simp] theorem State.setCmp_eth (s : State) (n : Fin 32) (p : CmpCore) (m : Fin 2) : (s.setCmp n p).eth m = s.eth m := rfl
@[simp] theorem State.setCmp_can (s : State) (n : Fin 32) (p : CmpCore) (m : Fin 6) : (s.setCmp n p).can m = s.can m := rfl
@[simp] theorem State.setCmp_uart (s : State) (n : Fin 32) (p : CmpCore) (m : Fin 3) : (s.setCmp n p).uart m = s.uart m := rfl
@[simp] theorem State.setCmp_rg (s : State) (n : Fin 32) (p : CmpCore) (j : Nat) : (s.setCmp n p).rg j = s.rg j := rfl
@[simp] theorem State.setPair_core (s : State) (n : Fin 16) (p : PairState) (m : CoreId) : (s.setPair n p).core m = s.core m := rfl
@[simp] theorem State.setPair_pt (s : State) (n : Fin 16) (p : PairState) (m : Fin 48) : (s.setPair n p).pt m = s.pt m := rfl
@[simp] theorem State.setPair_gt (s : State) (n : Fin 16) (p : PairState) (m : Fin 32) : (s.setPair n p).gt m = s.gt m := rfl
@[simp] theorem State.setPair_adc (s : State) (n : Fin 16) (p : PairState) (m : Fin 16) : (s.setPair n p).adc m = s.adc m := rfl
@[simp] theorem State.setPair_relief (s : State) (n : Fin 16) (p : PairState) (m : Fin 2) : (s.setPair n p).relief m = s.relief m := rfl
@[simp] theorem State.setPair_sd (s : State) (n : Fin 16) (p : PairState) (m : Fin 8) : (s.setPair n p).sd m = s.sd m := rfl
@[simp] theorem State.setPair_cmp (s : State) (n : Fin 16) (p : PairState) (m : Fin 32) : (s.setPair n p).cmp m = s.cmp m := rfl
@[simp] theorem State.setPair_dma (s : State) (n : Fin 16) (p : PairState) (m : Fin 16) : (s.setPair n p).dma m = s.dma m := rfl
@[simp] theorem State.setPair_flBank (s : State) (n : Fin 16) (p : PairState) (m : Fin 5) : (s.setPair n p).flBank m = s.flBank m := rfl
@[simp] theorem State.setPair_pg (s : State) (n : Fin 16) (p : PairState) (m : Fin 8) : (s.setPair n p).pg m = s.pg m := rfl
@[simp] theorem State.setPair_link (s : State) (n : Fin 16) (p : PairState) (m : Fin 4) : (s.setPair n p).link m = s.link m := rfl
@[simp] theorem State.setPair_eth (s : State) (n : Fin 16) (p : PairState) (m : Fin 2) : (s.setPair n p).eth m = s.eth m := rfl
@[simp] theorem State.setPair_can (s : State) (n : Fin 16) (p : PairState) (m : Fin 6) : (s.setPair n p).can m = s.can m := rfl
@[simp] theorem State.setPair_uart (s : State) (n : Fin 16) (p : PairState) (m : Fin 3) : (s.setPair n p).uart m = s.uart m := rfl
@[simp] theorem State.setPair_rg (s : State) (n : Fin 16) (p : PairState) (j : Nat) : (s.setPair n p).rg j = s.rg j := rfl
@[simp] theorem State.setDma_core (s : State) (n : Fin 16) (p : DmaState) (m : CoreId) : (s.setDma n p).core m = s.core m := rfl
@[simp] theorem State.setDma_pt (s : State) (n : Fin 16) (p : DmaState) (m : Fin 48) : (s.setDma n p).pt m = s.pt m := rfl
@[simp] theorem State.setDma_gt (s : State) (n : Fin 16) (p : DmaState) (m : Fin 32) : (s.setDma n p).gt m = s.gt m := rfl
@[simp] theorem State.setDma_adc (s : State) (n : Fin 16) (p : DmaState) (m : Fin 16) : (s.setDma n p).adc m = s.adc m := rfl
@[simp] theorem State.setDma_relief (s : State) (n : Fin 16) (p : DmaState) (m : Fin 2) : (s.setDma n p).relief m = s.relief m := rfl
@[simp] theorem State.setDma_sd (s : State) (n : Fin 16) (p : DmaState) (m : Fin 8) : (s.setDma n p).sd m = s.sd m := rfl
@[simp] theorem State.setDma_cmp (s : State) (n : Fin 16) (p : DmaState) (m : Fin 32) : (s.setDma n p).cmp m = s.cmp m := rfl
@[simp] theorem State.setDma_pair (s : State) (n : Fin 16) (p : DmaState) (m : Fin 16) : (s.setDma n p).pair m = s.pair m := rfl
@[simp] theorem State.setDma_flBank (s : State) (n : Fin 16) (p : DmaState) (m : Fin 5) : (s.setDma n p).flBank m = s.flBank m := rfl
@[simp] theorem State.setDma_pg (s : State) (n : Fin 16) (p : DmaState) (m : Fin 8) : (s.setDma n p).pg m = s.pg m := rfl
@[simp] theorem State.setDma_link (s : State) (n : Fin 16) (p : DmaState) (m : Fin 4) : (s.setDma n p).link m = s.link m := rfl
@[simp] theorem State.setDma_eth (s : State) (n : Fin 16) (p : DmaState) (m : Fin 2) : (s.setDma n p).eth m = s.eth m := rfl
@[simp] theorem State.setDma_can (s : State) (n : Fin 16) (p : DmaState) (m : Fin 6) : (s.setDma n p).can m = s.can m := rfl
@[simp] theorem State.setDma_uart (s : State) (n : Fin 16) (p : DmaState) (m : Fin 3) : (s.setDma n p).uart m = s.uart m := rfl
@[simp] theorem State.setDma_rg (s : State) (n : Fin 16) (p : DmaState) (j : Nat) : (s.setDma n p).rg j = s.rg j := rfl
@[simp] theorem State.setSpg_core (s : State) (n : SpargeTarget) (p : SpargeState) (m : CoreId) : (s.setSpg n p).core m = s.core m := rfl
@[simp] theorem State.setSpg_pt (s : State) (n : SpargeTarget) (p : SpargeState) (m : Fin 48) : (s.setSpg n p).pt m = s.pt m := rfl
@[simp] theorem State.setSpg_gt (s : State) (n : SpargeTarget) (p : SpargeState) (m : Fin 32) : (s.setSpg n p).gt m = s.gt m := rfl
@[simp] theorem State.setSpg_adc (s : State) (n : SpargeTarget) (p : SpargeState) (m : Fin 16) : (s.setSpg n p).adc m = s.adc m := rfl
@[simp] theorem State.setSpg_relief (s : State) (n : SpargeTarget) (p : SpargeState) (m : Fin 2) : (s.setSpg n p).relief m = s.relief m := rfl
@[simp] theorem State.setSpg_sd (s : State) (n : SpargeTarget) (p : SpargeState) (m : Fin 8) : (s.setSpg n p).sd m = s.sd m := rfl
@[simp] theorem State.setSpg_cmp (s : State) (n : SpargeTarget) (p : SpargeState) (m : Fin 32) : (s.setSpg n p).cmp m = s.cmp m := rfl
@[simp] theorem State.setSpg_pair (s : State) (n : SpargeTarget) (p : SpargeState) (m : Fin 16) : (s.setSpg n p).pair m = s.pair m := rfl
@[simp] theorem State.setSpg_dma (s : State) (n : SpargeTarget) (p : SpargeState) (m : Fin 16) : (s.setSpg n p).dma m = s.dma m := rfl
@[simp] theorem State.setSpg_flBank (s : State) (n : SpargeTarget) (p : SpargeState) (m : Fin 5) : (s.setSpg n p).flBank m = s.flBank m := rfl
@[simp] theorem State.setSpg_pg (s : State) (n : SpargeTarget) (p : SpargeState) (m : Fin 8) : (s.setSpg n p).pg m = s.pg m := rfl
@[simp] theorem State.setSpg_link (s : State) (n : SpargeTarget) (p : SpargeState) (m : Fin 4) : (s.setSpg n p).link m = s.link m := rfl
@[simp] theorem State.setSpg_eth (s : State) (n : SpargeTarget) (p : SpargeState) (m : Fin 2) : (s.setSpg n p).eth m = s.eth m := rfl
@[simp] theorem State.setSpg_can (s : State) (n : SpargeTarget) (p : SpargeState) (m : Fin 6) : (s.setSpg n p).can m = s.can m := rfl
@[simp] theorem State.setSpg_uart (s : State) (n : SpargeTarget) (p : SpargeState) (m : Fin 3) : (s.setSpg n p).uart m = s.uart m := rfl
@[simp] theorem State.setSpg_rg (s : State) (n : SpargeTarget) (p : SpargeState) (j : Nat) : (s.setSpg n p).rg j = s.rg j := rfl
@[simp] theorem State.setFlBank_core (s : State) (n : Fin 5) (p : FlBank) (m : CoreId) : (s.setFlBank n p).core m = s.core m := rfl
@[simp] theorem State.setFlBank_pt (s : State) (n : Fin 5) (p : FlBank) (m : Fin 48) : (s.setFlBank n p).pt m = s.pt m := rfl
@[simp] theorem State.setFlBank_gt (s : State) (n : Fin 5) (p : FlBank) (m : Fin 32) : (s.setFlBank n p).gt m = s.gt m := rfl
@[simp] theorem State.setFlBank_adc (s : State) (n : Fin 5) (p : FlBank) (m : Fin 16) : (s.setFlBank n p).adc m = s.adc m := rfl
@[simp] theorem State.setFlBank_relief (s : State) (n : Fin 5) (p : FlBank) (m : Fin 2) : (s.setFlBank n p).relief m = s.relief m := rfl
@[simp] theorem State.setFlBank_sd (s : State) (n : Fin 5) (p : FlBank) (m : Fin 8) : (s.setFlBank n p).sd m = s.sd m := rfl
@[simp] theorem State.setFlBank_cmp (s : State) (n : Fin 5) (p : FlBank) (m : Fin 32) : (s.setFlBank n p).cmp m = s.cmp m := rfl
@[simp] theorem State.setFlBank_pair (s : State) (n : Fin 5) (p : FlBank) (m : Fin 16) : (s.setFlBank n p).pair m = s.pair m := rfl
@[simp] theorem State.setFlBank_dma (s : State) (n : Fin 5) (p : FlBank) (m : Fin 16) : (s.setFlBank n p).dma m = s.dma m := rfl
@[simp] theorem State.setFlBank_pg (s : State) (n : Fin 5) (p : FlBank) (m : Fin 8) : (s.setFlBank n p).pg m = s.pg m := rfl
@[simp] theorem State.setFlBank_link (s : State) (n : Fin 5) (p : FlBank) (m : Fin 4) : (s.setFlBank n p).link m = s.link m := rfl
@[simp] theorem State.setFlBank_eth (s : State) (n : Fin 5) (p : FlBank) (m : Fin 2) : (s.setFlBank n p).eth m = s.eth m := rfl
@[simp] theorem State.setFlBank_can (s : State) (n : Fin 5) (p : FlBank) (m : Fin 6) : (s.setFlBank n p).can m = s.can m := rfl
@[simp] theorem State.setFlBank_uart (s : State) (n : Fin 5) (p : FlBank) (m : Fin 3) : (s.setFlBank n p).uart m = s.uart m := rfl
@[simp] theorem State.setFlBank_rg (s : State) (n : Fin 5) (p : FlBank) (j : Nat) : (s.setFlBank n p).rg j = s.rg j := rfl
@[simp] theorem State.setPg_core (s : State) (n : Fin 8) (p : PeGroup) (m : CoreId) : (s.setPg n p).core m = s.core m := rfl
@[simp] theorem State.setPg_pt (s : State) (n : Fin 8) (p : PeGroup) (m : Fin 48) : (s.setPg n p).pt m = s.pt m := rfl
@[simp] theorem State.setPg_gt (s : State) (n : Fin 8) (p : PeGroup) (m : Fin 32) : (s.setPg n p).gt m = s.gt m := rfl
@[simp] theorem State.setPg_adc (s : State) (n : Fin 8) (p : PeGroup) (m : Fin 16) : (s.setPg n p).adc m = s.adc m := rfl
@[simp] theorem State.setPg_relief (s : State) (n : Fin 8) (p : PeGroup) (m : Fin 2) : (s.setPg n p).relief m = s.relief m := rfl
@[simp] theorem State.setPg_sd (s : State) (n : Fin 8) (p : PeGroup) (m : Fin 8) : (s.setPg n p).sd m = s.sd m := rfl
@[simp] theorem State.setPg_cmp (s : State) (n : Fin 8) (p : PeGroup) (m : Fin 32) : (s.setPg n p).cmp m = s.cmp m := rfl
@[simp] theorem State.setPg_pair (s : State) (n : Fin 8) (p : PeGroup) (m : Fin 16) : (s.setPg n p).pair m = s.pair m := rfl
@[simp] theorem State.setPg_dma (s : State) (n : Fin 8) (p : PeGroup) (m : Fin 16) : (s.setPg n p).dma m = s.dma m := rfl
@[simp] theorem State.setPg_flBank (s : State) (n : Fin 8) (p : PeGroup) (m : Fin 5) : (s.setPg n p).flBank m = s.flBank m := rfl
@[simp] theorem State.setPg_link (s : State) (n : Fin 8) (p : PeGroup) (m : Fin 4) : (s.setPg n p).link m = s.link m := rfl
@[simp] theorem State.setPg_eth (s : State) (n : Fin 8) (p : PeGroup) (m : Fin 2) : (s.setPg n p).eth m = s.eth m := rfl
@[simp] theorem State.setPg_can (s : State) (n : Fin 8) (p : PeGroup) (m : Fin 6) : (s.setPg n p).can m = s.can m := rfl
@[simp] theorem State.setPg_uart (s : State) (n : Fin 8) (p : PeGroup) (m : Fin 3) : (s.setPg n p).uart m = s.uart m := rfl
@[simp] theorem State.setPg_rg (s : State) (n : Fin 8) (p : PeGroup) (j : Nat) : (s.setPg n p).rg j = s.rg j := rfl
@[simp] theorem State.setLink_core (s : State) (n : Fin 4) (p : LinkState) (m : CoreId) : (s.setLink n p).core m = s.core m := rfl
@[simp] theorem State.setLink_pt (s : State) (n : Fin 4) (p : LinkState) (m : Fin 48) : (s.setLink n p).pt m = s.pt m := rfl
@[simp] theorem State.setLink_gt (s : State) (n : Fin 4) (p : LinkState) (m : Fin 32) : (s.setLink n p).gt m = s.gt m := rfl
@[simp] theorem State.setLink_adc (s : State) (n : Fin 4) (p : LinkState) (m : Fin 16) : (s.setLink n p).adc m = s.adc m := rfl
@[simp] theorem State.setLink_relief (s : State) (n : Fin 4) (p : LinkState) (m : Fin 2) : (s.setLink n p).relief m = s.relief m := rfl
@[simp] theorem State.setLink_sd (s : State) (n : Fin 4) (p : LinkState) (m : Fin 8) : (s.setLink n p).sd m = s.sd m := rfl
@[simp] theorem State.setLink_cmp (s : State) (n : Fin 4) (p : LinkState) (m : Fin 32) : (s.setLink n p).cmp m = s.cmp m := rfl
@[simp] theorem State.setLink_pair (s : State) (n : Fin 4) (p : LinkState) (m : Fin 16) : (s.setLink n p).pair m = s.pair m := rfl
@[simp] theorem State.setLink_dma (s : State) (n : Fin 4) (p : LinkState) (m : Fin 16) : (s.setLink n p).dma m = s.dma m := rfl
@[simp] theorem State.setLink_flBank (s : State) (n : Fin 4) (p : LinkState) (m : Fin 5) : (s.setLink n p).flBank m = s.flBank m := rfl
@[simp] theorem State.setLink_pg (s : State) (n : Fin 4) (p : LinkState) (m : Fin 8) : (s.setLink n p).pg m = s.pg m := rfl
@[simp] theorem State.setLink_eth (s : State) (n : Fin 4) (p : LinkState) (m : Fin 2) : (s.setLink n p).eth m = s.eth m := rfl
@[simp] theorem State.setLink_can (s : State) (n : Fin 4) (p : LinkState) (m : Fin 6) : (s.setLink n p).can m = s.can m := rfl
@[simp] theorem State.setLink_uart (s : State) (n : Fin 4) (p : LinkState) (m : Fin 3) : (s.setLink n p).uart m = s.uart m := rfl
@[simp] theorem State.setLink_rg (s : State) (n : Fin 4) (p : LinkState) (j : Nat) : (s.setLink n p).rg j = s.rg j := rfl
@[simp] theorem State.setEth_core (s : State) (n : Fin 2) (p : RingState) (m : CoreId) : (s.setEth n p).core m = s.core m := rfl
@[simp] theorem State.setEth_pt (s : State) (n : Fin 2) (p : RingState) (m : Fin 48) : (s.setEth n p).pt m = s.pt m := rfl
@[simp] theorem State.setEth_gt (s : State) (n : Fin 2) (p : RingState) (m : Fin 32) : (s.setEth n p).gt m = s.gt m := rfl
@[simp] theorem State.setEth_adc (s : State) (n : Fin 2) (p : RingState) (m : Fin 16) : (s.setEth n p).adc m = s.adc m := rfl
@[simp] theorem State.setEth_relief (s : State) (n : Fin 2) (p : RingState) (m : Fin 2) : (s.setEth n p).relief m = s.relief m := rfl
@[simp] theorem State.setEth_sd (s : State) (n : Fin 2) (p : RingState) (m : Fin 8) : (s.setEth n p).sd m = s.sd m := rfl
@[simp] theorem State.setEth_cmp (s : State) (n : Fin 2) (p : RingState) (m : Fin 32) : (s.setEth n p).cmp m = s.cmp m := rfl
@[simp] theorem State.setEth_pair (s : State) (n : Fin 2) (p : RingState) (m : Fin 16) : (s.setEth n p).pair m = s.pair m := rfl
@[simp] theorem State.setEth_dma (s : State) (n : Fin 2) (p : RingState) (m : Fin 16) : (s.setEth n p).dma m = s.dma m := rfl
@[simp] theorem State.setEth_flBank (s : State) (n : Fin 2) (p : RingState) (m : Fin 5) : (s.setEth n p).flBank m = s.flBank m := rfl
@[simp] theorem State.setEth_pg (s : State) (n : Fin 2) (p : RingState) (m : Fin 8) : (s.setEth n p).pg m = s.pg m := rfl
@[simp] theorem State.setEth_link (s : State) (n : Fin 2) (p : RingState) (m : Fin 4) : (s.setEth n p).link m = s.link m := rfl
@[simp] theorem State.setEth_can (s : State) (n : Fin 2) (p : RingState) (m : Fin 6) : (s.setEth n p).can m = s.can m := rfl
@[simp] theorem State.setEth_uart (s : State) (n : Fin 2) (p : RingState) (m : Fin 3) : (s.setEth n p).uart m = s.uart m := rfl
@[simp] theorem State.setEth_rg (s : State) (n : Fin 2) (p : RingState) (j : Nat) : (s.setEth n p).rg j = s.rg j := rfl
@[simp] theorem State.setCan_core (s : State) (n : Fin 6) (p : RingState) (m : CoreId) : (s.setCan n p).core m = s.core m := rfl
@[simp] theorem State.setCan_pt (s : State) (n : Fin 6) (p : RingState) (m : Fin 48) : (s.setCan n p).pt m = s.pt m := rfl
@[simp] theorem State.setCan_gt (s : State) (n : Fin 6) (p : RingState) (m : Fin 32) : (s.setCan n p).gt m = s.gt m := rfl
@[simp] theorem State.setCan_adc (s : State) (n : Fin 6) (p : RingState) (m : Fin 16) : (s.setCan n p).adc m = s.adc m := rfl
@[simp] theorem State.setCan_relief (s : State) (n : Fin 6) (p : RingState) (m : Fin 2) : (s.setCan n p).relief m = s.relief m := rfl
@[simp] theorem State.setCan_sd (s : State) (n : Fin 6) (p : RingState) (m : Fin 8) : (s.setCan n p).sd m = s.sd m := rfl
@[simp] theorem State.setCan_cmp (s : State) (n : Fin 6) (p : RingState) (m : Fin 32) : (s.setCan n p).cmp m = s.cmp m := rfl
@[simp] theorem State.setCan_pair (s : State) (n : Fin 6) (p : RingState) (m : Fin 16) : (s.setCan n p).pair m = s.pair m := rfl
@[simp] theorem State.setCan_dma (s : State) (n : Fin 6) (p : RingState) (m : Fin 16) : (s.setCan n p).dma m = s.dma m := rfl
@[simp] theorem State.setCan_flBank (s : State) (n : Fin 6) (p : RingState) (m : Fin 5) : (s.setCan n p).flBank m = s.flBank m := rfl
@[simp] theorem State.setCan_pg (s : State) (n : Fin 6) (p : RingState) (m : Fin 8) : (s.setCan n p).pg m = s.pg m := rfl
@[simp] theorem State.setCan_link (s : State) (n : Fin 6) (p : RingState) (m : Fin 4) : (s.setCan n p).link m = s.link m := rfl
@[simp] theorem State.setCan_eth (s : State) (n : Fin 6) (p : RingState) (m : Fin 2) : (s.setCan n p).eth m = s.eth m := rfl
@[simp] theorem State.setCan_uart (s : State) (n : Fin 6) (p : RingState) (m : Fin 3) : (s.setCan n p).uart m = s.uart m := rfl
@[simp] theorem State.setCan_rg (s : State) (n : Fin 6) (p : RingState) (j : Nat) : (s.setCan n p).rg j = s.rg j := rfl
@[simp] theorem State.setUart_core (s : State) (n : Fin 3) (p : UartState) (m : CoreId) : (s.setUart n p).core m = s.core m := rfl
@[simp] theorem State.setUart_pt (s : State) (n : Fin 3) (p : UartState) (m : Fin 48) : (s.setUart n p).pt m = s.pt m := rfl
@[simp] theorem State.setUart_gt (s : State) (n : Fin 3) (p : UartState) (m : Fin 32) : (s.setUart n p).gt m = s.gt m := rfl
@[simp] theorem State.setUart_adc (s : State) (n : Fin 3) (p : UartState) (m : Fin 16) : (s.setUart n p).adc m = s.adc m := rfl
@[simp] theorem State.setUart_relief (s : State) (n : Fin 3) (p : UartState) (m : Fin 2) : (s.setUart n p).relief m = s.relief m := rfl
@[simp] theorem State.setUart_sd (s : State) (n : Fin 3) (p : UartState) (m : Fin 8) : (s.setUart n p).sd m = s.sd m := rfl
@[simp] theorem State.setUart_cmp (s : State) (n : Fin 3) (p : UartState) (m : Fin 32) : (s.setUart n p).cmp m = s.cmp m := rfl
@[simp] theorem State.setUart_pair (s : State) (n : Fin 3) (p : UartState) (m : Fin 16) : (s.setUart n p).pair m = s.pair m := rfl
@[simp] theorem State.setUart_dma (s : State) (n : Fin 3) (p : UartState) (m : Fin 16) : (s.setUart n p).dma m = s.dma m := rfl
@[simp] theorem State.setUart_flBank (s : State) (n : Fin 3) (p : UartState) (m : Fin 5) : (s.setUart n p).flBank m = s.flBank m := rfl
@[simp] theorem State.setUart_pg (s : State) (n : Fin 3) (p : UartState) (m : Fin 8) : (s.setUart n p).pg m = s.pg m := rfl
@[simp] theorem State.setUart_link (s : State) (n : Fin 3) (p : UartState) (m : Fin 4) : (s.setUart n p).link m = s.link m := rfl
@[simp] theorem State.setUart_eth (s : State) (n : Fin 3) (p : UartState) (m : Fin 2) : (s.setUart n p).eth m = s.eth m := rfl
@[simp] theorem State.setUart_can (s : State) (n : Fin 3) (p : UartState) (m : Fin 6) : (s.setUart n p).can m = s.can m := rfl
@[simp] theorem State.setUart_rg (s : State) (n : Fin 3) (p : UartState) (j : Nat) : (s.setUart n p).rg j = s.rg j := rfl
@[simp] theorem State.memPut_core (s : State) (a : Nat) (b : List Byte) (m : CoreId) : (s.memPut a b).core m = s.core m := rfl
@[simp] theorem State.memPut_pt (s : State) (a : Nat) (b : List Byte) (m : Fin 48) : (s.memPut a b).pt m = s.pt m := rfl
@[simp] theorem State.memPut_gt (s : State) (a : Nat) (b : List Byte) (m : Fin 32) : (s.memPut a b).gt m = s.gt m := rfl
@[simp] theorem State.memPut_adc (s : State) (a : Nat) (b : List Byte) (m : Fin 16) : (s.memPut a b).adc m = s.adc m := rfl
@[simp] theorem State.memPut_relief (s : State) (a : Nat) (b : List Byte) (m : Fin 2) : (s.memPut a b).relief m = s.relief m := rfl
@[simp] theorem State.memPut_sd (s : State) (a : Nat) (b : List Byte) (m : Fin 8) : (s.memPut a b).sd m = s.sd m := rfl
@[simp] theorem State.memPut_cmp (s : State) (a : Nat) (b : List Byte) (m : Fin 32) : (s.memPut a b).cmp m = s.cmp m := rfl
@[simp] theorem State.memPut_pair (s : State) (a : Nat) (b : List Byte) (m : Fin 16) : (s.memPut a b).pair m = s.pair m := rfl
@[simp] theorem State.memPut_dma (s : State) (a : Nat) (b : List Byte) (m : Fin 16) : (s.memPut a b).dma m = s.dma m := rfl
@[simp] theorem State.memPut_flBank (s : State) (a : Nat) (b : List Byte) (m : Fin 5) : (s.memPut a b).flBank m = s.flBank m := rfl
@[simp] theorem State.memPut_pg (s : State) (a : Nat) (b : List Byte) (m : Fin 8) : (s.memPut a b).pg m = s.pg m := rfl
@[simp] theorem State.memPut_link (s : State) (a : Nat) (b : List Byte) (m : Fin 4) : (s.memPut a b).link m = s.link m := rfl
@[simp] theorem State.memPut_eth (s : State) (a : Nat) (b : List Byte) (m : Fin 2) : (s.memPut a b).eth m = s.eth m := rfl
@[simp] theorem State.memPut_can (s : State) (a : Nat) (b : List Byte) (m : Fin 6) : (s.memPut a b).can m = s.can m := rfl
@[simp] theorem State.memPut_uart (s : State) (a : Nat) (b : List Byte) (m : Fin 3) : (s.memPut a b).uart m = s.uart m := rfl
@[simp] theorem State.memPut_rg (s : State) (a : Nat) (b : List Byte) (j : Nat) : (s.memPut a b).rg j = s.rg j := rfl
@[simp] theorem State.push_core (s : State) (i : Instr) (m : CoreId) : (s.push i).core m = s.core m := rfl
@[simp] theorem State.push_pt (s : State) (i : Instr) (m : Fin 48) : (s.push i).pt m = s.pt m := rfl
@[simp] theorem State.push_gt (s : State) (i : Instr) (m : Fin 32) : (s.push i).gt m = s.gt m := rfl
@[simp] theorem State.push_adc (s : State) (i : Instr) (m : Fin 16) : (s.push i).adc m = s.adc m := rfl
@[simp] theorem State.push_relief (s : State) (i : Instr) (m : Fin 2) : (s.push i).relief m = s.relief m := rfl
@[simp] theorem State.push_sd (s : State) (i : Instr) (m : Fin 8) : (s.push i).sd m = s.sd m := rfl
@[simp] theorem State.push_cmp (s : State) (i : Instr) (m : Fin 32) : (s.push i).cmp m = s.cmp m := rfl
@[simp] theorem State.push_pair (s : State) (i : Instr) (m : Fin 16) : (s.push i).pair m = s.pair m := rfl
@[simp] theorem State.push_dma (s : State) (i : Instr) (m : Fin 16) : (s.push i).dma m = s.dma m := rfl
@[simp] theorem State.push_flBank (s : State) (i : Instr) (m : Fin 5) : (s.push i).flBank m = s.flBank m := rfl
@[simp] theorem State.push_pg (s : State) (i : Instr) (m : Fin 8) : (s.push i).pg m = s.pg m := rfl
@[simp] theorem State.push_link (s : State) (i : Instr) (m : Fin 4) : (s.push i).link m = s.link m := rfl
@[simp] theorem State.push_eth (s : State) (i : Instr) (m : Fin 2) : (s.push i).eth m = s.eth m := rfl
@[simp] theorem State.push_can (s : State) (i : Instr) (m : Fin 6) : (s.push i).can m = s.can m := rfl
@[simp] theorem State.push_uart (s : State) (i : Instr) (m : Fin 3) : (s.push i).uart m = s.uart m := rfl
@[simp] theorem State.push_rg (s : State) (i : Instr) (j : Nat) : (s.push i).rg j = s.rg j := rfl

/-- A register after a write: the word at the key written, every other as before. -/
@[simp] theorem State.setRg_rg (s : State) (k j : Nat) (w : Word) : (s.setRg k w).rg j = if j = k then w else s.rg j :=
  sget_sput _ _ _ _ _ _ (fun h => by rw [h])

theorem State.setFld_rg (s : State) (k lo len v j : Nat) :
    (s.setFld k lo len v).rg j = if j = k then setBits (s.rg k) lo len v else s.rg j := by simp [State.setFld]

theorem State.setFlag_rg (s : State) (k i j : Nat) (b : Bool) :
    (s.setFlag k i b).rg j = if j = k then setBit (s.rg k) i b else s.rg j := by simp [State.setFlag]

theorem State.hwFlag_rg (s : State) (k i j : Nat) :
    (s.hwFlag k i).rg j = if j = k then setBit (s.rg k) i true else s.rg j := State.setFlag_rg s k i j true

theorem State.count_rg (s : State) (k lo len n j : Nat) :
    (s.count k lo len n).rg j = if j = k then setBits (s.rg k) lo len (min (2 ^ len - 1) (s.fld k lo len + n)) else s.rg j := by
  simp [State.count, State.setFld]

theorem State.writeRg_rg (s : State) (l : Bool) (k : Nat) (v : Word) (j : Nat) :
    (s.writeRg l k v).rg j = if j = k then (descOf k).write l (sget 0 s.hwSet k) v (s.rg k) else s.rg j := by
  simp [State.writeRg]

end Sys2Proof.Machine
end

