-- ==== Sys2Proof/Laws/Core.lean ====
section
/-! SUPPORT. Laws of one instruction of a core: the fetch, the retirement, and `runInstr` as a whole on a core that executes
undisturbed (State.runs). -/

namespace Sys2Proof.Machine

/-! ## Register reads after register writes -/

@[simp] theorem CoreState.setSpOf_st (k : CoreState) (a b : Bool) (v : Word) : (k.setSpOf a b v).st = k.st := rfl
@[simp] theorem CoreState.setSpOf_acc (k : CoreState) (a b : Bool) (v : Word) : (k.setSpOf a b v).acc = k.acc := rfl
@[simp] theorem CoreState.setSpOf_gpr (k : CoreState) (a b : Bool) (v : Word) : (k.setSpOf a b v).gpr = k.gpr := rfl

theorem CoreState.setW_eq (k : CoreState) (r : Reg) (v : Word) :
    k.setW r v = { k with gpr := (k.setW r v).gpr, sp := (k.setW r v).sp } := by
  unfold CoreState.setW CoreState.setSpOf
  split
  · rfl
  · split <;> rfl

@[simp] theorem CoreState.setW_st (k : CoreState) (r : Reg) (v : Word) : (k.setW r v).st = k.st := by rw [CoreState.setW_eq]
@[simp] theorem CoreState.setW_acc (k : CoreState) (r : Reg) (v : Word) : (k.setW r v).acc = k.acc := by rw [CoreState.setW_eq]

/-- A register reads as it was written; w0 reads 0 and takes no write (R197). -/
theorem CoreState.setW_w (k : CoreState) (a r : Reg) (v : Word) :
    (k.setW a v).w r = if r = a ∧ a ≠ 0 then v else k.w r := by
  by_cases ha : a = 0
  · subst ha; simp [CoreState.setW]
  · by_cases hl : a.val < 31
    · have e1 : k.setW a v = { k with gpr := k.gpr.set (a.val - 1) v (by omega) } := by
        unfold CoreState.setW; rw [if_neg ha, dif_pos hl]
      rw [e1]
      unfold CoreState.w
      by_cases hr : r = 0
      · subst hr
        have : ¬ (0 : Reg) = a := fun h => ha h.symm
        simp [this]
      · by_cases hrl : r.val < 31
        · simp only [hr, if_false, hrl, dif_pos]
          have h0 : 0 < a.val := Nat.pos_of_ne_zero (fun h => ha (Fin.ext h))
          have h1 : 0 < r.val := Nat.pos_of_ne_zero (fun h => hr (Fin.ext h))
          rw [Vector.getElem_set]
          by_cases he : r = a
          · subst he; simp [ha]
          · have : ¬ a.val - 1 = r.val - 1 := fun h => he (Fin.ext (by omega))
            simp [this, he]
        · have hne : ¬ r = a := fun h => hrl (h ▸ hl)
          simp only [hr, if_false, hrl, dif_neg, not_false_eq_true, hne, false_and]
          rfl
    · have e1 : k.setW a v = k.setSpOf k.world k.lvl v := by
        unfold CoreState.setW; rw [if_neg ha, dif_neg hl]
      rw [e1]
      unfold CoreState.w
      by_cases hr : r = 0
      · subst hr
        have : ¬ (0 : Reg) = a := fun h => ha h.symm
        simp [this]
      · by_cases hrl : r.val < 31
        · have hne : ¬ r = a := fun h => hl (h ▸ hrl)
          simp [hr, hrl, hne]
        · have he : r = a := Fin.ext (by omega)
          subst he
          simp [ha, hl, CoreState.curSp, CoreState.spOf, CoreState.setSpOf, CoreState.world, CoreState.lvl]

/-- A write to a register leaves the stack pointers of the other worlds and levels. -/
theorem CoreState.setW_sp (k : CoreState) (a : Reg) (v : Word) (i : Fin 4) (h : i ≠ spIdx k.world k.lvl) :
    (k.setW a v).sp[i] = k.sp[i] := by
  unfold CoreState.setW CoreState.setSpOf
  split
  · rfl
  · split
    · rfl
    · have : ¬ (spIdx k.world k.lvl).val = i.val := fun e => h (Fin.ext e.symm)
      simp [this]

/-! ## Fetch -/

theorem State.setCore_self (s : State) (c : CoreId) : s.setCore c (s.core c) = s := by
  unfold State.setCore State.core
  have : s.cores.set c s.cores[c] = s.cores := by
    apply Vector.ext
    intro i hi
    rw [Vector.getElem_set]
    split
    · next h => subst h; rfl
    · rfl
  rw [this]

theorem cores_set_set (v : Vector CoreState 37) (c : CoreId) (a b : CoreState) : (v.set c a).set c b = v.set c b := by
  apply Vector.ext
  intro i hi
  simp only [Vector.getElem_set]
  split <;> rfl

@[simp] theorem State.setCore_setCore (s : State) (c : CoreId) (a b : CoreState) : (s.setCore c a).setCore c b = s.setCore c b := by
  unfold State.setCore
  dsimp only
  rw [cores_set_set]

/-- With no standing ECC error and no capture, the fetch of allowed words changes nothing. -/
theorem State.fetchAll_ok (s : State) (c : CoreId) (pc : Nat) (hb : (s.core c).lbBase = none) (he : s.ecc = []) :
    ∀ (ws : List Nat) (n : Nat), (∀ w ∈ ws, max pc w < localSize ∧
      s.rgnAllows c (s.core c).world (s.core c).lvl .exec (max pc w) = true) →
      s.fetchAll c pc ws n = (none, n + ws.length, s) := by
  intro ws
  induction ws with
  | nil => intro n _; rfl
  | cons w r ih =>
    intro n h
    have hw := h w (by simp)
    have h1 : ¬ localSize ≤ max pc w := by omega
    have hcap : (s.core c).captured w = false := by simp [CoreState.captured, CoreState.capIdx, hb]
    have hread : s.eccRead (locAddr c w) = (true, s) := by simp [State.eccRead, he]
    have hc : (s.core c).capture w = s.core c := by simp [CoreState.capture, CoreState.capIdx, hb]
    have := ih (n + 1) (fun x hx => h x (by simp [hx]))
    simp only [State.fetchAll]
    simp [h1, hw.2, hcap, hread, hc, State.setCore_self, this]
    omega

/-! ## Retirement -/

/-- K is k but for the loop counts, the capture and the pc. -/
def CoreState.moved (k K : CoreState) : Prop :=
  ∃ lc lb ll cap pc, K = { k with lc := lc, lbBase := lb, lbLen := ll, lbCap := cap, pc := pc }

theorem CoreState.moved_refl (k : CoreState) : k.moved k := ⟨_, _, _, _, _, rfl⟩

theorem CoreState.moved_trans {a b c : CoreState} (h : a.moved b) (h2 : b.moved c) : a.moved c := by
  obtain ⟨l, m, n, o, p, rfl⟩ := h
  obtain ⟨l2, m2, n2, o2, p2, rfl⟩ := h2
  exact ⟨l2, m2, n2, o2, p2, rfl⟩

theorem CoreState.moved_pc {a b : CoreState} (x : Word) (h : a.moved b) : a.moved { b with pc := x } := by
  obtain ⟨l, m, n, o, p, rfl⟩ := h
  exact ⟨l, m, n, o, x, rfl⟩

theorem CoreState.moved_lc {a b : CoreState} (l : Vector Word 2) (x : Word) (h : a.moved b) :
    a.moved { b with lc := l, pc := x } := by
  obtain ⟨_, m, n, o, p, rfl⟩ := h
  exact ⟨l, m, n, o, x, rfl⟩

theorem CoreState.endLevel_moved (k : CoreState) (l : Fin 2) : k.moved (k.endLevel l) := by
  unfold CoreState.endLevel CoreState.lbRelease
  dsimp only
  split <;> exact ⟨_, _, _, _, _, rfl⟩

/-- Reaching an address in sequence changes the loop counts, the capture and the pc only. -/
theorem CoreState.advance_moved (k : CoreState) (a : Word) : k.moved (k.advance a) := by
  unfold CoreState.advance
  dsimp only
  split
  · exact CoreState.moved_lc _ _ k.moved_refl
  · have h1 : k.moved (if (k.judged 1 && k.le[1] == a) = true then k.endLevel 1 else k) := by
      split
      · exact k.endLevel_moved 1
      · exact k.moved_refl
    revert h1
    generalize (if (k.judged 1 && k.le[1] == a) = true then k.endLevel 1 else k) = k1
    intro h1
    split
    · split
      · exact CoreState.moved_lc _ _ h1
      · exact CoreState.moved_pc a (CoreState.moved_trans h1 (CoreState.endLevel_moved _ 0))
    · exact CoreState.moved_pc a h1

/-- With no loop active, execution goes on at the address reached. -/
theorem CoreState.advance_noLoop (k : CoreState) (a : Word) (h : k.noLoop) : k.advance a = { k with pc := a } := by
  unfold CoreState.advance CoreState.judged
  simp [h.1, h.2]

/-- A taken branch changes the loop counts and the capture only. -/
theorem CoreState.leave_moved (k : CoreState) (pc a : Word) : k.moved (k.leave pc a) := by
  unfold CoreState.leave
  have step : ∀ (k2 : CoreState) (b : Bool) (l : Fin 2), k2.moved (if b = true then k2.endLevel l else k2) := by
    intro k2 b l
    split
    · exact k2.endLevel_moved l
    · exact k2.moved_refl
  exact CoreState.moved_trans (step k _ 0) (step _ _ 1)

/-- The core after an instruction of cyc core cycles that took it to k has retired (`hold` by R206). -/
def CoreState.retire (k : CoreState) (cyc : Nat) (hold : Bool) : CoreState :=
  { k with noInt := hold, resumed := false, prefetched := false, retired := k.retired + 1, cycles := k.cycles + cyc }

/-- Where a flow takes the core. -/
def CoreState.flowTo (k : CoreState) (pc : Word) (len : Nat) : Flow → CoreState
  | .seq => k.advance (pc + BitVec.ofNat 32 len)
  | .skip a => k.advance a
  | .jump a => { k.leave pc a with pc := a }
  | .call a => { k with pc := a }
  | .back _ => k

theorem CoreState.flowTo_moved (k : CoreState) (pc : Word) (len : Nat) (f : Flow) : k.moved (k.flowTo pc len f) := by
  cases f with
  | seq => exact k.advance_moved _
  | skip a => exact k.advance_moved a
  | jump a => exact CoreState.moved_pc a (k.leave_moved pc a)
  | call a => exact CoreState.moved_pc a k.moved_refl
  | back _ => exact k.moved_refl

/-- Retirement in a core of no pair, with no performance counter, no watchpoint that hits, no step and no halt request: the core
moves on, and nothing else changes. -/
theorem State.finish_quiet (s : State) (c : CoreId) (pc : Word) (len cyc n : Nat) (r : Ret) (hs : s.role c = .solo)
    (hp : s.pmSel = []) (hw : s.wpHits c r.acc = 0) (hr : (s.core c).run = .running) (ht : (s.core c).stepping = false)
    (hh : (s.core c).haltReq = false) :
    s.finish c pc len cyc n r = s.setCore c (((s.core c).flowTo pc len r.flow).retire cyc r.hold) := by
  have e1 : ∀ K, (s.setCore c K).role c = .solo := fun K => hs
  have e2 : ∀ K t p, (s.setCore c K).recBranch c t p = s.setCore c K := by
    intro K t p; unfold State.recBranch State.record; rw [e1]
  have e3 : ∀ K n b, (s.setCore c K).pmRetired c n b = s.setCore c K := by
    intro K n b; unfold State.pmRetired
    have : (s.setCore c K).pmSel = [] := hp
    rw [this]; rfl
  have e4 : ∀ K ck, (s.setCore c K).countRetired c ck = s.setCore c K := by
    intro K ck; unfold State.countRetired; dsimp only; rw [e1]
  have e5 : ∀ K, (s.setCore c K).isChecker c = false := by intro K; unfold State.isChecker; rw [e1]
  have e6 : ∀ K, (s.setCore c K).wpHits c r.acc = 0 := fun K => hw
  have hk : ((((s.core c).flowTo pc len r.flow).retire cyc r.hold)).run = .running ∧
      (((s.core c).flowTo pc len r.flow).retire cyc r.hold).stepping = false ∧
      (((s.core c).flowTo pc len r.flow).retire cyc r.hold).haltReq = false := by
    obtain ⟨_, _, _, _, _, e⟩ := (s.core c).flowTo_moved pc len r.flow
    rw [e]; exact ⟨hr, ht, hh⟩
  have e7 : (s.setCore c (((s.core c).flowTo pc len r.flow).retire cyc r.hold)).boundary c =
      s.setCore c (((s.core c).flowTo pc len r.flow).retire cyc r.hold) := by
    unfold State.boundary
    simp [hk.1, hk.2.1, hk.2.2]
  have e8 : s.finish c pc len cyc n r = (s.setCore c (((s.core c).flowTo pc len r.flow).retire cyc r.hold)).boundary c := by
    unfold State.finish
    obtain ⟨flow, mem, acc, ck, hold⟩ := r
    dsimp only at *
    cases flow with
    | back t => cases t <;> simp only [e2, e3, e4, e5, e6, CoreState.flowTo] <;> rfl
    | _ => simp only [e2, e3, e4, e5, e6, CoreState.flowTo] <;> rfl
  rw [e8, e7]

/-- No enabled performance counter, nothing counted. -/
theorem State.pmFetch_none (s : State) (c : CoreId) (n : Nat) (h : s.pmSel = []) : s.pmFetch c n = s := by
  unfold State.pmFetch State.pmCore State.pmEvents
  rw [h]
  split <;> rfl

/-- A core that runs undisturbed comes to the legality check, the state being as before. -/
theorem State.runInstr_runs (s : State) (c : CoreId) (e : Enc) (body : CoreState → State → Pass) (h : s.runs c e.len) :
    s.runInstr c e body =
      (let k := s.core c
       let n := 0 + ((fetchWords k.pc.toNat e.len).drop (if k.prefetched then k.preWords else 0)).length
       let pre := if k.prefetched then n else n + 1
       if !e.legal then s.instrFault c pre (faultIllegal k.pc)
       else if !ccHolds k e.cc then (s.setCore c (s.regsOf c)).finish c k.pc e.len (pre + e.ex + e.data) n {}
       else match body k (s.setCore c (s.regsOf c)) with
         | .done t r => t.finish c k.pc e.len (pre + e.ex + r.mem) n r
         | .fault t f m => t.instrFault c (pre + e.ex + m) f
         | .stay t m => t.parked c (pre + e.ex + m) n
         | .later => s) := by
  have hw : s.wakeCore c = s := by unfold State.wakeCore; dsimp only; rw [h.run]
  have hf := s.fetchAll_ok c (s.core c).pc.toNat h.lb h.ecc
    ((fetchWords (s.core c).pc.toNat e.len).drop (if (s.core c).prefetched then (s.core c).preWords else 0)) 0
    (fun w hm => h.fetch w (List.mem_of_mem_drop hm))
  have hp : ((s.core c).prefetched && (s.core c).preFault.isSome) = false := by
    rcases h.pre with h1 | h1 <;> simp [h1]
  have hi : s.fetchInstr c e.len = (none, 0 + ((fetchWords (s.core c).pc.toNat e.len).drop
      (if (s.core c).prefetched then (s.core c).preWords else 0)).length, s) := by
    unfold State.fetchInstr
    simp only [hp]
    exact hf
  unfold State.runInstr
  simp only [h.solo, hw, h.on, h.run, h.bp, hi, s.pmFetch_none c _ h.pm]
  simp only [Bool.not_true, Bool.false_or, bne_self_eq_false, ite_self, ne_eq, not_true_eq_false]
  rfl

/-- An instruction on a core that runs undisturbed, whose condition holds and whose operation is done: it retires from the state
that the operation left. -/
theorem State.runInstr_done (s : State) (c : CoreId) (e : Enc) (body : CoreState → State → Pass) (h : s.runs c e.len)
    (hl : e.legal = true) (hc : ccHolds (s.core c) e.cc = true) (t : State) (r : Ret)
    (hb : body (s.core c) (s.setCore c (s.regsOf c)) = .done t r) :
    ∃ cyc n, s.runInstr c e body = t.finish c (s.core c).pc e.len cyc n r := by
  rw [s.runInstr_runs c e body h]
  simp only [hl, hc, hb]
  exact ⟨_, _, rfl⟩

/-- The same when the condition does not hold: nothing happens but the retirement (R204), the load shadow being written. -/
theorem State.runInstr_skip (s : State) (c : CoreId) (e : Enc) (body : CoreState → State → Pass) (h : s.runs c e.len)
    (hl : e.legal = true) (hc : ccHolds (s.core c) e.cc = false) :
    ∃ cyc n, s.runInstr c e body = (s.setCore c (s.regsOf c)).finish c (s.core c).pc e.len cyc n {} := by
  rw [s.runInstr_runs c e body h]
  simp only [hl, hc]
  exact ⟨_, _, rfl⟩

/-- The same when the operation faults: the fault is taken (R257), and nothing retires. -/
theorem State.runInstr_fault (s : State) (c : CoreId) (e : Enc) (body : CoreState → State → Pass) (h : s.runs c e.len)
    (hl : e.legal = true) (hc : ccHolds (s.core c) e.cc = true) (t : State) (f : FaultRec)
    (m : Nat) (hb : body (s.core c) (s.setCore c (s.regsOf c)) = .fault t f m) :
    ∃ cyc, s.runInstr c e body = t.instrFault c cyc f := by
  rw [s.runInstr_runs c e body h]
  simp only [hl, hc, hb]
  exact ⟨_, rfl⟩

/-- An illegal encoding takes ILLEGAL_OPCODE at the instruction's address (R201), whatever its condition. -/
theorem State.runInstr_illegal (s : State) (c : CoreId) (e : Enc) (body : CoreState → State → Pass) (h : s.runs c e.len)
    (hl : e.legal = false) : ∃ cyc, s.runInstr c e body = s.instrFault c cyc (faultIllegal (s.core c).pc) := by
  rw [s.runInstr_runs c e body h]
  simp only [hl]
  exact ⟨_, rfl⟩

/-- A core that runs undisturbed and whose operation only changes the core: it retires, and nothing outside the core changes. -/
theorem State.runInstr_core (s : State) (c : CoreId) (e : Enc) (body : CoreState → State → Pass) (h : s.runs c e.len)
    (hl : e.legal = true) (hc : ccHolds (s.core c) e.cc = true) (K : CoreState) (r : Ret)
    (hb : body (s.core c) (s.setCore c (s.regsOf c)) = .done (s.setCore c K) r)
    (hw : s.wpHits c r.acc = 0) (hr : K.run = .running) (ht : K.stepping = false) (hh : K.haltReq = false) :
    ∃ cyc, s.runInstr c e body = s.setCore c ((K.flowTo (s.core c).pc e.len r.flow).retire cyc r.hold) := by
  obtain ⟨cyc, n, he⟩ := s.runInstr_done c e body h hl hc _ r hb
  refine ⟨cyc, ?_⟩
  rw [he, State.finish_quiet (s.setCore c K) c _ _ _ _ r h.solo h.pm hw (by simpa using hr) (by simpa using ht) (by simpa using hh)]
  simp

/-! ## What register instructions leave (wrote, wroteFlag, wroteAcc, wroteSt) -/

theorem CoreState.commitShadow_eq (k : CoreState) :
    k.commitShadow = { k with gpr := k.commitShadow.gpr, sp := k.commitShadow.sp, shadow := k.commitShadow.shadow } := by
  unfold CoreState.commitShadow
  split
  · rw [CoreState.setW_eq]
  · rfl

/-- Writing the load shadow changes general registers and stack pointers only. -/
theorem State.regsOf_run (s : State) (c : CoreId) : (s.regsOf c).run = (s.core c).run := by
  unfold State.regsOf; rw [CoreState.commitShadow_eq]
theorem State.regsOf_stepping (s : State) (c : CoreId) : (s.regsOf c).stepping = (s.core c).stepping := by
  unfold State.regsOf; rw [CoreState.commitShadow_eq]
theorem State.regsOf_haltReq (s : State) (c : CoreId) : (s.regsOf c).haltReq = (s.core c).haltReq := by
  unfold State.regsOf; rw [CoreState.commitShadow_eq]
theorem State.regsOf_st (s : State) (c : CoreId) : (s.regsOf c).st = (s.core c).st := by
  unfold State.regsOf; rw [CoreState.commitShadow_eq]
theorem State.regsOf_acc (s : State) (c : CoreId) : (s.regsOf c).acc = (s.core c).acc := by
  unfold State.regsOf; rw [CoreState.commitShadow_eq]
theorem State.regsOf_pc (s : State) (c : CoreId) : (s.regsOf c).pc = (s.core c).pc := by
  unfold State.regsOf; rw [CoreState.commitShadow_eq]

/-- K is k but for what a register instruction may write: registers, the current stack pointer, accumulators, ST. -/
def CoreState.wrote0 (k K : CoreState) : Prop :=
  ∃ gpr sp acc st, K = { k with gpr := gpr, sp := sp, acc := acc, st := st } ∧ ∀ i, i ≠ spIdx k.world k.lvl → sp[i] = k.sp[i]

/-- A register instruction in sequence: what `wrote0` allows, and the retirement. -/
theorem State.runInstr_regs (s : State) (c : CoreId) (e : Enc) (f : CoreState → CoreState → CoreState) (h : s.runs c e.len)
    (hl : e.legal = true) (hc : ccHolds (s.core c) e.cc = true)
    (hf : (s.regsOf c).wrote0 (f (s.core c) (s.regsOf c))) :
    ∃ K, s.runInstr c e (onRegs c f) = s.setCore c K ∧
      (∀ r, K.w r = (f (s.core c) (s.regsOf c)).w r) ∧ K.st = (f (s.core c) (s.regsOf c)).st ∧
      K.acc = (f (s.core c) (s.regsOf c)).acc ∧ (s.regsOf c).keeps K ∧
      ((s.regsOf c).noLoop → K.pc = (s.core c).pc + BitVec.ofNat 32 e.len) := by
  obtain ⟨gpr, sp, acc, st, hK, hsp⟩ := hf
  have hrun : (f (s.core c) (s.regsOf c)).run = .running := by rw [hK]; exact (s.regsOf_run c).trans h.run
  have hst : (f (s.core c) (s.regsOf c)).stepping = false := by rw [hK]; exact (s.regsOf_stepping c).trans h.stepping
  have hh : (f (s.core c) (s.regsOf c)).haltReq = false := by rw [hK]; exact (s.regsOf_haltReq c).trans h.halt
  have hb : onRegs c f (s.core c) (s.setCore c (s.regsOf c)) = .done (s.setCore c (f (s.core c) (s.regsOf c))) {} := by
    simp [onRegs]
  obtain ⟨cyc, he⟩ := s.runInstr_core c e (onRegs c f) h hl hc _ {} hb rfl hrun hst hh
  refine ⟨_, he, ?_⟩
  obtain ⟨lc, lb, ll, cap, pc, hm⟩ :=
    (f (s.core c) (s.regsOf c)).flowTo_moved (s.core c).pc e.len ({} : Ret).flow
  have hpc : (s.regsOf c).noLoop → ((f (s.core c) (s.regsOf c)).flowTo (s.core c).pc e.len .seq).pc =
      (s.core c).pc + BitVec.ofNat 32 e.len := by
    intro hn
    have hn2 : (f (s.core c) (s.regsOf c)).noLoop := by rw [hK]; exact hn
    show (CoreState.advance _ _).pc = _
    rw [CoreState.advance_noLoop _ _ hn2]
  refine ⟨?_, ?_, ?_, ?_, ?_⟩
  · intro r; rw [hm]; rfl
  · rw [hm]; rfl
  · rw [hm]; rfl
  · rw [hm, hK]
    exact ⟨hsp, rfl, rfl, rfl, rfl, rfl, rfl, rfl, rfl, rfl, rfl, rfl, rfl, rfl⟩
  · intro hn
    exact hpc hn

theorem CoreState.setW_wrote0 (k : CoreState) (a : Reg) (v : Word) : k.wrote0 (k.setW a v) := by
  refine ⟨_, _, k.acc, k.st, CoreState.setW_eq k a v, fun i hi => ?_⟩
  exact CoreState.setW_sp k a v i hi

/-- An instruction that writes one register. -/
theorem State.runReg_wrote (s : State) (c : CoreId) (e : Enc) (a : Reg) (v : CoreState → Word) (h : s.runs c e.len)
    (hl : e.legal = true) (hc : ccHolds (s.core c) e.cc = true) :
    ∃ K, s.runReg c e a v = s.setCore c K ∧
      (s.regsOf c).wrote K a (v (s.core c)) ((s.core c).pc + BitVec.ofNat 32 e.len) := by
  obtain ⟨K, he, hw, hst, hacc, hk, hp⟩ := s.runInstr_regs c e (fun k0 k => k.setW a (v k0)) h hl hc (CoreState.setW_wrote0 _ _ _)
  exact ⟨K, he, fun r => (hw r).trans (CoreState.setW_w _ _ _ _), hst.trans (by simp), hacc.trans (by simp), hk, hp⟩

/-! ## Flags -/

/-- Two cores with the same registers, whose status words agree in L and W, read the same. -/
theorem CoreState.w_congr (k K : CoreState) (hg : K.gpr = k.gpr) (hs : K.sp = k.sp) (h1 : bit K.st 12 = bit k.st 12)
    (h2 : bit K.st 13 = bit k.st 13) (r : Reg) : K.w r = k.w r := by
  unfold CoreState.w CoreState.curSp CoreState.spOf CoreState.world CoreState.lvl
  rw [hg, hs, h1, h2]

theorem CoreState.setSt_w (k : CoreState) (i : Nat) (b : Bool) (r : Reg) (h : i < 12) : (k.setSt i b).w r = k.w r := by
  apply CoreState.w_congr
  · rfl
  · rfl
  · show bit (setBit k.st i b) 12 = _
    rw [bit_setBit _ _ _ _ (by omega), if_neg (by omega)]
  · show bit (setBit k.st i b) 13 = _
    rw [bit_setBit _ _ _ _ (by omega), if_neg (by omega)]

theorem CoreState.sticky_w (k : CoreState) (i : Nat) (b : Bool) (r : Reg) (h : i < 12) : (k.sticky i b).w r = k.w r := by
  unfold CoreState.sticky
  split
  · exact k.setSt_w i true r h
  · rfl

theorem CoreState.sticky_st (k : CoreState) (i : Nat) (b : Bool) : (k.sticky i b).st = if b then setBit k.st i true else k.st := by
  unfold CoreState.sticky CoreState.setSt
  split <;> rfl

theorem CoreState.sticky_acc (k : CoreState) (i : Nat) (b : Bool) : (k.sticky i b).acc = k.acc := by
  unfold CoreState.sticky CoreState.setSt
  split <;> rfl

theorem CoreState.sticky_wrote0 (k : CoreState) (i : Nat) (b : Bool) : k.wrote0 (k.sticky i b) := by
  unfold CoreState.sticky CoreState.setSt
  split
  · exact ⟨k.gpr, k.sp, k.acc, _, rfl, fun _ _ => rfl⟩
  · exact ⟨k.gpr, k.sp, k.acc, k.st, rfl, fun _ _ => rfl⟩

theorem CoreState.putFlags_w (k : CoreState) (f : Bool × Bool × Bool × Bool) (r : Reg) : (k.putFlags f).w r = k.w r := by
  apply CoreState.w_congr
  · rfl
  · rfl
  · show bit (setBit (setBit (setBit (setBit k.st 0 _) 1 _) 2 _) 3 _) 12 = _
    rw [bit_setBit _ _ _ _ (by omega), bit_setBit _ _ _ _ (by omega), bit_setBit _ _ _ _ (by omega),
      bit_setBit _ _ _ _ (by omega)]
    rfl
  · show bit (setBit (setBit (setBit (setBit k.st 0 _) 1 _) 2 _) 3 _) 13 = _
    rw [bit_setBit _ _ _ _ (by omega), bit_setBit _ _ _ _ (by omega), bit_setBit _ _ _ _ (by omega),
      bit_setBit _ _ _ _ (by omega)]
    rfl

/-- A register and a sticky flag written: `setSat` and `setFloat`. -/
theorem CoreState.stickySetW_wrote0 (k : CoreState) (i : Nat) (b : Bool) (a : Reg) (v : Word) (h : i < 12) :
    k.wrote0 ((k.sticky i b).setW a v) := by
  refine ⟨((k.sticky i b).setW a v).gpr, ((k.sticky i b).setW a v).sp, k.acc, (k.sticky i b).st,
    (CoreState.setW_eq _ a v).trans ?_, fun j hj => ?_⟩
  · unfold CoreState.sticky CoreState.setSt
    split <;> rfl
  · have e : spIdx (k.sticky i b).world (k.sticky i b).lvl = spIdx k.world k.lvl := by
      unfold CoreState.sticky CoreState.setSt
      split
      · unfold CoreState.world CoreState.lvl
        dsimp only
        rw [bit_setBit _ _ _ _ (by omega), if_neg (by omega), bit_setBit _ _ _ _ (by omega), if_neg (by omega)]
      · rfl
    rw [CoreState.setW_sp _ _ _ _ (by rw [e]; exact hj)]
    unfold CoreState.sticky CoreState.setSt
    split <;> rfl

/-- An instruction that writes a register and may set a sticky flag. -/
theorem State.runFlag_wrote (s : State) (c : CoreId) (e : Enc) (a : Reg) (i : Nat) (hi : i < 12)
    (v : CoreState → Word × Bool) (h : s.runs c e.len) (hl : e.legal = true) (hc : ccHolds (s.core c) e.cc = true) :
    ∃ K, s.runInstr c e (onRegs c (fun k0 k => (k.sticky i (v k0).2).setW a (v k0).1)) = s.setCore c K ∧
      (s.regsOf c).wroteFlag K a (v (s.core c)).1 i (v (s.core c)).2 ((s.core c).pc + BitVec.ofNat 32 e.len) := by
  obtain ⟨K, he, hw, hst, hacc, hk, hp⟩ := s.runInstr_regs c e (fun k0 k => (k.sticky i (v k0).2).setW a (v k0).1) h hl hc
    (CoreState.stickySetW_wrote0 _ _ _ _ _ hi)
  refine ⟨K, he, fun r => ?_, ?_, ?_, hk, hp⟩
  · rw [hw r, CoreState.setW_w, CoreState.sticky_w _ _ _ _ hi]
  · rw [hst, CoreState.setW_st, CoreState.sticky_st]
  · rw [hacc, CoreState.setW_acc, CoreState.sticky_acc]

/-- An instruction that writes an accumulator. -/
theorem State.runAcc_wrote (s : State) (c : CoreId) (e : Enc) (i : Fin 4) (v : CoreState → BitVec 72) (h : s.runs c e.len)
    (hl : e.legal = true) (hc : ccHolds (s.core c) e.cc = true) :
    ∃ K, s.runInstr c e (onRegs c (fun k0 k => { k with acc := k.acc.set i (v k0) })) = s.setCore c K ∧
      (s.regsOf c).wroteAcc K i (v (s.core c)) ((s.core c).pc + BitVec.ofNat 32 e.len) := by
  obtain ⟨K, he, hw, hst, hacc, hk, hp⟩ := s.runInstr_regs c e (fun k0 k => { k with acc := k.acc.set i (v k0) }) h hl hc
    ⟨_, _, _, _, rfl, fun _ _ => rfl⟩
  exact ⟨K, he, fun r => (hw r).trans rfl, hst, hacc, hk, hp⟩

end Sys2Proof.Machine
end

