-- ==== Sys2Proof/Laws/Mem.lean ====
section
/-! SUPPORT. Laws of memory: every operation on the bytes of the shared SRAM and the local memories keeps the canonical form
`Memory.wf`, the memory after reset has it, and a byte reads as it was last written. -/

namespace Sys2Proof.Machine

theorem putBytes_wf (bs : List Byte) : ∀ (m : List Host.Cell) (a : Nat), Memory.wf m = true → Memory.wf (putBytes m a bs) = true := by
  induction bs with
  | nil => exact fun _ _ h => h
  | cons b r ih => exact fun m a h => ih _ _ (swf_sput (fun _ => 0) m a b h)

theorem State.memPut_wf (s : State) (a : Nat) (bs : List Byte) (h : Memory.wf s.mem = true) :
    Memory.wf (s.memPut a bs).mem = true := putBytes_wf bs _ _ h

theorem State.memPutWord_wf (s : State) (a : Nat) (w : Word) (h : Memory.wf s.mem = true) :
    Memory.wf (s.memPutWord a w).mem = true := s.memPut_wf a _ h

theorem State.memZero_wf (s : State) (a n : Nat) (h : Memory.wf s.mem = true) : Memory.wf (s.memZero a n).mem = true :=
  swf_sclear _ _ _ _ h

theorem State.memUndef_wf (s : State) (a n : Nat) (h : Memory.wf s.mem = true) : Memory.wf (s.memUndef a n).mem = true :=
  swf_sclear _ _ _ _ h

theorem State.memCopy_wf (s : State) (src dst n : Nat) (h : Memory.wf s.mem = true) :
    Memory.wf (s.memCopy src dst n).mem = true := by
  have h0 := s.memZero_wf dst n h
  have key : ∀ (l m : List Host.Cell), Memory.wf m = true →
      Memory.wf (l.foldl (fun m e => sput 0 m e.1 e.2) m) = true := by
    intro l
    induction l with
    | nil => exact fun _ h => h
    | cons e r ih => exact fun m hm => ih _ (swf_sput (fun _ => 0) m e.1 e.2 hm)
  exact key _ _ h0

theorem reset_memory_wf : Memory.wf State.reset.mem = true := rfl

/-! ## Reading what was written -/

theorem putBytes_other (bs : List Byte) : ∀ (m : List Host.Cell) (a j : Nat), (j < a ∨ a + bs.length ≤ j) →
    sget 0 (putBytes m a bs) j = sget 0 m j := by
  induction bs with
  | nil => exact fun _ _ _ _ => rfl
  | cons b r ih =>
    intro m a j h
    have hl : (b :: r).length = r.length + 1 := rfl
    rw [putBytes, ih _ _ _ (by omega)]
    exact sget_sput_other 0 0 m b (by omega)

theorem putBytes_same (bs : List Byte) : ∀ (m : List Host.Cell) (a i : Nat) (h : i < bs.length),
    sget 0 (putBytes m a bs) (a + i) = bs[i] := by
  induction bs with
  | nil => exact fun _ _ _ h => absurd h (by simp)
  | cons b r ih =>
    intro m a i h
    rw [putBytes]
    cases i with
    | zero =>
      rw [putBytes_other _ _ _ _ (.inl (by omega))]
      exact sget_sput_same 0 m a b
    | succ i =>
      have h2 := ih (sput 0 m a b) (a + 1) i (by simpa using h)
      rw [show a + (i + 1) = a + 1 + i by omega, h2]
      rfl

theorem State.memByte_plain (s : State) (a : Nat) (h : s.poison = []) : s.memByte a = sget 0 s.mem a := by
  unfold State.memByte
  rw [h]
  rfl

theorem State.memPut_poison (s : State) (a : Nat) (bs : List Byte) (h : s.poison = []) : (s.memPut a bs).poison = [] := by
  unfold State.memPut
  rw [h]
  rfl

/-- Outside the bytes put, and with no undefined range, a byte reads as before. -/
theorem State.memPut_byte_other (s : State) (a j : Nat) (bs : List Byte) (hp : s.poison = []) (h : j < a ∨ a + bs.length ≤ j) :
    (s.memPut a bs).memByte j = s.memByte j := by
  rw [State.memByte_plain _ _ (s.memPut_poison a bs hp), State.memByte_plain _ _ hp]
  exact putBytes_other bs s.mem a j h

/-- A byte put reads as put. -/
theorem State.memPut_byte (s : State) (a i : Nat) (bs : List Byte) (hp : s.poison = []) (h : i < bs.length) :
    (s.memPut a bs).memByte (a + i) = bs[i] := by
  rw [State.memByte_plain _ _ (s.memPut_poison a bs hp)]
  exact putBytes_same bs s.mem a i h

end Sys2Proof.Machine
end

