-- ==== Sys2Proof/Laws/Access.lean ====
section
/-! SUPPORT. Laws of the data accesses of a core to its own local memory, with no ECC error standing. -/

namespace Sys2Proof.Machine

theorem regionOf_local (a : Nat) (h : a < localSize) : regionOf a = .local := by simp [regionOf, h]

theorem not_outside (a : Nat) (h : a < localSize) : outside a = false := by simp [outside, regionOf_local a h]

theorem not_remote (a : Nat) (h : a < localSize) : isRemote a = false := by
  have : a < 0x30000 := h
  unfold isRemote
  have h2 : ¬ 0x30000000 ≤ a := by omega
  simp [h2]

theorem State.not_flashWaits (s : State) (a : Nat) (h : a < 0x10000000 ∨ 0x18008000 ≤ a) : s.flashWaits a = false := by
  unfold State.flashWaits State.flLocate
  rw [if_neg (by omega), if_neg (by omega)]

theorem not_wordOnly (a : Nat) (h : a < localSize) : wordOnly a = false := by simp [wordOnly, regionOf_local a h]

theorem isSram_locAddr (c : CoreId) (a : Nat) (h : a < localSize) : isSram (locAddr c a) = false := by
  have h1 : a < 0x30000 := h
  have h2 := c.isLt
  unfold isSram locAddr sramBase
  have : ¬ 0x20000000 ≤ 0x04000000 + c.val * 0x40000 + a := by omega
  simp [this]

/-- A word read from the core's own memory. -/
theorem State.busRead_local (s : State) (c : CoreId) (a : Nat) (h : a < localSize) (he : s.ecc = []) (hc : s.collided = none) :
    s.busRead (s.ctxOf c) a = (.ok (s.memWord (locAddr c a / 4 * 4)), s) := by
  have hid : (s.ctxOf c).id = c.val := rfl
  have hlt := c.isLt
  unfold State.busRead
  rw [regionOf_local a h]
  simp [hid, State.ramRead, hc, State.eccRead, he]

theorem State.read1_local (s : State) (c : CoreId) (a : Nat) (m : BitVec 4) (u : RemoteUse) (h : a < localSize) (he : s.ecc = [])
    (hc : s.collided = none) : s.read1 c a m u = .ok (s.memWord (locAddr c a / 4 * 4)) s := by
  unfold State.read1 State.busIn
  simp [not_outside a h, not_remote a h, s.busRead_local c a h he hc, s.not_flashWaits a (Or.inl (by unfold localSize at h; omega))]

/-- Bytes of a word stored in the core's own memory. -/
theorem State.write1_local (s : State) (c : CoreId) (a n : Nat) (d : Word) (u : RemoteUse) (h : a < localSize) (he : s.ecc = []) :
    s.write1 c a n d u = .ok 0 (s.memPutWord (locAddr c a / 4 * 4)
      (if (lanes a n d).2 = 15 then (lanes a n d).1 else mergeBytes (s.memWord (locAddr c a / 4 * 4)) (lanes a n d).1 (lanes a n d).2)) := by
  have hid : (s.ctxOf c).id = c.val := rfl
  have hlt := c.isLt
  unfold State.write1 State.busOut State.busWrite
  simp [not_outside a h, not_remote a h, regionOf_local a h, hid, State.ramStore, State.ramWrite, isSram_locAddr c a h, he]

/-! ## Data of several bytes -/

theorem leNat_append (a b : List Byte) : leNat (a ++ b) = leNat a + 2 ^ (8 * a.length) * leNat b := by
  induction a with
  | nil => simp [leNat]
  | cons x r ih =>
    simp only [List.cons_append, leNat, ih, List.length_cons]
    rw [Nat.mul_add, ← Nat.mul_assoc, show 8 * (r.length + 1) = 8 + 8 * r.length by omega, Nat.pow_add,
      show (2 : Nat) ^ 8 = 256 from rfl]
    omega

theorem leNat_lt (a : List Byte) : leNat a < 2 ^ (8 * a.length) := by
  induction a with
  | nil => simp [leNat]
  | cons x r ih =>
    have hx := x.isLt
    simp only [leNat, List.length_cons]
    rw [show 8 * (r.length + 1) = 8 + 8 * r.length by omega, Nat.pow_add]
    omega

theorem State.memBytes_length (s : State) (a n : Nat) : (s.memBytes a n).length = n := by simp [State.memBytes]

theorem State.memBytes_append (s : State) (a m n : Nat) : s.memBytes a (m + n) = s.memBytes a m ++ s.memBytes (a + m) n := by
  unfold State.memBytes
  rw [List.range_add, List.map_append, List.map_map]
  congr 1
  apply List.map_congr_left
  intro i _
  simp [Nat.add_assoc]

/-- A field of whole bytes of a memory word is what its bytes spell. -/
theorem State.memWord_bits (s : State) (a o n : Nat) (h : o + n ≤ 4) :
    bits (s.memWord a) (8 * o) (8 * n) = leNat (s.memBytes (a + o) n) := by
  have e : s.memBytes a 4 = s.memBytes a o ++ (s.memBytes (a + o) n ++ s.memBytes (a + o + n) (4 - o - n)) := by
    rw [← State.memBytes_append, ← State.memBytes_append]
    congr 1
    omega
  have h4 : leNat (s.memBytes a 4) < 2 ^ 32 := by
    have := leNat_lt (s.memBytes a 4)
    rwa [State.memBytes_length] at this
  have hl := State.memBytes_length s a 4
  unfold bits State.memWord leWord
  rw [List.take_of_length_le (by omega), BitVec.toNat_ofNat, Nat.mod_eq_of_lt h4, e, leNat_append, leNat_append,
    State.memBytes_length, State.memBytes_length, Nat.shiftRight_eq_div_pow]
  have l1 := leNat_lt (s.memBytes a o)
  have l2 := leNat_lt (s.memBytes (a + o) n)
  rw [State.memBytes_length] at l1 l2
  rw [Nat.add_mul_div_left _ _ (Nat.two_pow_pos _), Nat.div_eq_of_lt l1, Nat.zero_add, Nat.add_mul_mod_self_left,
    Nat.mod_eq_of_lt l2]

/-- Parts of a datum in the core's own memory are read without any effect. -/
theorem State.readAll_local (s0 s : State) (c : CoreId) (w l : Bool) (use : List Word → RemoteUse) (he : s.ecc = [])
    (hc : s.collided = none) : ∀ (ps : List (Nat × Nat)) (acc : List Word) (cyc : Nat),
    (∀ p ∈ ps, p.1 < localSize ∧ s.rgnAllows c w l .read p.1 = true) →
    ∃ cyc', s0.readAll c w l use ps [] acc cyc s = .ok (acc ++ ps.map (fun p => s.memWord (locAddr c p.1 / 4 * 4))) s cyc' := by
  intro ps
  induction ps with
  | nil => intro acc cyc _; exact ⟨cyc, by simp [State.readAll]⟩
  | cons p r ih =>
    intro acc cyc h
    have hp := h p (by simp)
    obtain ⟨cyc', e⟩ := ih (acc ++ [s.memWord (locAddr c p.1 / 4 * 4)]) (cyc + s.memCycles p.1) (fun q hq => h q (by simp [hq]))
    refine ⟨cyc', ?_⟩
    unfold State.readAll
    simp only [hp.2, not_remote p.1 hp.1, State.read1_local s c p.1 _ _ hp.1 he hc]
    simp [e]

/-- The words of the parts of a datum hold its bytes. -/
theorem gather_parts (s : State) (c : CoreId) (ea n : Nat) (una : Bool) (hn : n = 1 ∨ n = 2 ∨ n = 4) (he : ea + n ≤ localSize)
    (ha : una = true ∨ ea % n = 0) :
    gather (dataParts ea n una) ((dataParts ea n una).map (fun p => s.memWord (locAddr c p.1 / 4 * 4))) 0 =
      leNat (s.memBytes (locAddr c ea) n) := by
  have hls : localSize = 0x30000 := rfl
  have addr : ∀ x, locAddr c x / 4 * 4 + x % 4 = locAddr c x := by intro x; unfold locAddr; omega
  have one : ∀ x m, x % 4 + m ≤ 4 →
      bits (s.memWord (locAddr c x / 4 * 4)) (8 * (x % 4)) (8 * m) = leNat (s.memBytes (locAddr c x) m) := by
    intro x m hm
    rw [s.memWord_bits _ _ _ hm, addr]
  unfold dataParts
  cases una with
  | false =>
    have hal : ea % n = 0 := by simpa using ha
    have : ea % 4 + n ≤ 4 := by rcases hn with h | h | h <;> subst h <;> omega
    simp [gather, one ea n this]
  | true =>
    by_cases hlt : min n (4 - ea % 4) < n
    · have hm : min n (4 - ea % 4) = 4 - ea % 4 := by omega
      have e2 : (ea / 4 * 4 + 4) % 2 ^ 32 = ea + (4 - ea % 4) := by omega
      have hm4 : (ea + (4 - ea % 4)) % 4 = 0 := by omega
      have h2 : (ea + (4 - ea % 4)) % 4 + (n - (4 - ea % 4)) ≤ 4 := by omega
      have o1 := one ea (4 - ea % 4) (by omega)
      have o2 := one (ea + (4 - ea % 4)) (n - (4 - ea % 4)) h2
      have hlt' : 4 - ea % 4 < n := by omega
      simp only [if_true, hm, hlt', e2, List.map_cons, List.map_nil, gather, o1, o2, Nat.shiftLeft_zero, Nat.add_zero, Nat.zero_add]
      have hsplit : s.memBytes (locAddr c ea) n =
          s.memBytes (locAddr c ea) (4 - ea % 4) ++ s.memBytes (locAddr c ea + (4 - ea % 4)) (n - (4 - ea % 4)) := by
        rw [← State.memBytes_append]
        congr 1
        omega
      rw [hsplit, leNat_append, State.memBytes_length, Nat.shiftLeft_eq, Nat.mul_comm]
      have hla : locAddr c (ea + (4 - ea % 4)) = locAddr c ea + (4 - ea % 4) := by unfold locAddr; omega
      rw [hla]
    · have : ea % 4 + n ≤ 4 := by omega
      simp [hlt, gather, one ea n this]

/-- Where the parts of a datum lie. -/
theorem dataParts_lt (ea n : Nat) (una : Bool) (hn : n = 1 ∨ n = 2 ∨ n = 4) (he : ea + n ≤ localSize) :
    ∀ p ∈ dataParts ea n una, p.1 < localSize ∧ p.1 % 4 + p.2 ≤ 4 + (if una then 0 else ea % n) ∧ ea ≤ p.1 ∧ p.1 + p.2 ≤ ea + n := by
  have hls : localSize = 0x30000 := rfl
  intro p hp
  unfold dataParts at hp
  cases una with
  | false =>
    simp at hp
    subst hp
    rcases hn with h | h | h <;> subst h <;> simp <;> omega
  | true =>
    by_cases hlt : min n (4 - ea % 4) < n
    · simp [hlt] at hp
      rcases hp with hp | hp <;> subst hp <;> simp <;> omega
    · simp [hlt] at hp
      subst hp
      simp
      omega

/-! ## Stores -/

/-- Byte i of a word. -/
def byteOf (w : Word) (i : Nat) : Byte := w.extractLsb' (8 * i) 8

theorem byteOf_bit (w : Word) (i j : Nat) (h : j < 8) : (byteOf w i).getLsbD j = bit w (8 * i + j) := by
  simp [byteOf, bit, h]

theorem byteOf_setBits (w : Word) (k i v : Nat) (hi : i < 4) :
    byteOf (setBits w (8 * k) 8 v) i = if i = k then BitVec.ofNat 8 v else byteOf w i := by
  apply BitVec.eq_of_getLsbD_eq
  intro j hj
  rw [byteOf_bit _ _ _ hj, bit_setBits _ _ _ _ _ (by omega)]
  by_cases h : i = k
  · subst h
    have h1 : 8 * i ≤ 8 * i + j ∧ 8 * i + j < 8 * i + 8 := by omega
    rw [if_pos h1, if_pos rfl, BitVec.getLsbD_ofNat, Nat.add_sub_cancel_left]
    simp [hj]
  · have h1 : ¬ (8 * k ≤ 8 * i + j ∧ 8 * i + j < 8 * k + 8) := by omega
    simp [h1, h, byteOf_bit _ _ _ hj]

theorem byteOf_bits (w : Word) (i : Nat) : BitVec.ofNat 8 (bits w (8 * i) 8) = byteOf w i := by
  apply BitVec.eq_of_getLsbD_eq
  intro j hj
  rw [byteOf_bit _ _ _ hj, BitVec.getLsbD_ofNat, testBit_bits]
  simp [hj]

/-- A byte of a merged word. -/
theorem byteOf_merge (old v : Word) (m i : Nat) (hi : i < 4) :
    byteOf (mergeBytes old v m) i = if m.testBit i then byteOf v i else byteOf old i := by
  have step : ∀ (w : Word) (k : Nat), byteOf (if m.testBit k then setBits w (8 * k) 8 (bits v (8 * k) 8) else w) i =
      if i = k ∧ m.testBit k = true then byteOf v i else byteOf w i := by
    intro w k
    by_cases hk : m.testBit k
    · simp only [hk, if_true, and_true]
      rw [byteOf_setBits _ _ _ _ hi]
      by_cases h : i = k
      · subst h; simp [byteOf_bits]
      · simp [h]
    · simp [hk]
  unfold mergeBytes
  have hr : List.range 4 = [0, 1, 2, 3] := rfl
  rw [hr]
  simp only [List.foldl]
  rw [step, step, step, step]
  rcases (by omega : i = 0 ∨ i = 1 ∨ i = 2 ∨ i = 3) with h | h | h | h <;> subst h <;> simp

theorem State.memPutWord_byte (s : State) (a d : Nat) (w : Word) (hp : s.poison = []) :
    (s.memPutWord a w).memByte d = if a ≤ d ∧ d < a + 4 then byteOf w (d - a) else s.memByte d := by
  by_cases h : a ≤ d ∧ d < a + 4
  · rw [if_pos h]
    have := s.memPut_byte a (d - a) (wordBytes w) hp (by simp [wordBytes]; omega)
    rw [show a + (d - a) = d by omega] at this
    unfold State.memPutWord
    rw [this]
    rcases (by omega : d - a = 0 ∨ d - a = 1 ∨ d - a = 2 ∨ d - a = 3) with h | h | h | h <;> simp only [h] <;> rfl
  · rw [if_neg h]
    exact s.memPut_byte_other a d (wordBytes w) hp (by simp [wordBytes]; omega)

theorem memWord_byteOf (s : State) (a i : Nat) (h : i < 4) : byteOf (s.memWord a) i = s.memByte (a + i) := by
  have := s.memWord_bits a i 1 (by omega)
  rw [← byteOf_bits]
  show BitVec.ofNat 8 (bits (s.memWord a) (8 * i) (8 * 1)) = _
  rw [this]
  simp [State.memBytes, leNat]

/-- A store of n bytes within a word of the core's own memory: those bytes, and no others. -/
theorem State.write1_bytes (s : State) (c : CoreId) (a n : Nat) (d : Word) (u : RemoteUse) (h : a < localSize) (hn : a % 4 + n ≤ 4)
    (he : s.ecc = []) (hp : s.poison = []) :
    ∃ t, s.write1 c a n d u = .ok 0 t ∧ t = { s with mem := t.mem } ∧ (∀ x, t.memByte x =
      if locAddr c a ≤ x ∧ x < locAddr c a + n then byteOf d (x - locAddr c a) else s.memByte x) := by
  refine ⟨_, s.write1_local c a n d u h he, ?_, ?_⟩
  · unfold State.memPutWord State.memPut
    rw [hp]
    simp
  · intro x
    rw [State.memPutWord_byte _ _ _ _ hp]
    have hla : locAddr c a / 4 * 4 + a % 4 = locAddr c a := by unfold locAddr; omega
    have hm4 : locAddr c a % 4 = a % 4 := by unfold locAddr; omega
    have tb : ∀ i, i < 4 → (lanes a n d).2.testBit i = decide (a % 4 ≤ i ∧ i < a % 4 + n) := by
      intro i hi
      unfold lanes
      dsimp only
      rw [show (16 : Nat) = 2 ^ 4 from rfl, Nat.testBit_mod_two_pow, Nat.testBit_shiftLeft, Nat.testBit_two_pow_sub_one]
      by_cases h1 : a % 4 ≤ i
      · by_cases h2 : i < a % 4 + n
        · have : i - a % 4 < n := by omega
          simp [hi, h1, h2, this]
        · have : ¬ i - a % 4 < n := by omega
          simp [hi, h1, h2, this]
      · simp [hi, h1]
    have vb : ∀ i, i < 4 → a % 4 ≤ i → byteOf (lanes a n d).1 i = byteOf d (i - a % 4) := by
      intro i hi h1
      apply BitVec.eq_of_getLsbD_eq
      intro j hj
      rw [byteOf_bit _ _ _ hj, byteOf_bit _ _ _ hj]
      unfold lanes bit
      dsimp only
      rw [BitVec.getLsbD_shiftLeft]
      have e1 : ¬ 8 * i + j < 8 * (a % 4) := by omega
      have e2 : 8 * i + j - 8 * (a % 4) = 8 * (i - a % 4) + j := by omega
      have e3 : 8 * i + j < 32 := by omega
      simp [e1, e2, e3]
    by_cases hx : locAddr c a / 4 * 4 ≤ x ∧ x < locAddr c a / 4 * 4 + 4
    · rw [if_pos hx]
      have hi : x - locAddr c a / 4 * 4 < 4 := by omega
      have hmem : byteOf (s.memWord (locAddr c a / 4 * 4)) (x - locAddr c a / 4 * 4) = s.memByte x := by
        rw [memWord_byteOf _ _ _ hi]; congr 1; omega
      have key : byteOf (mergeBytes (s.memWord (locAddr c a / 4 * 4)) (lanes a n d).1 (lanes a n d).2) (x - locAddr c a / 4 * 4) =
          if locAddr c a ≤ x ∧ x < locAddr c a + n then byteOf d (x - locAddr c a) else s.memByte x := by
        rw [byteOf_merge _ _ _ _ hi, tb _ hi, hmem]
        by_cases hin : locAddr c a ≤ x ∧ x < locAddr c a + n
        · have h1 : a % 4 ≤ x - locAddr c a / 4 * 4 ∧ x - locAddr c a / 4 * 4 < a % 4 + n := by omega
          rw [if_pos hin, if_pos (by simpa using h1), vb _ hi h1.1]
          congr 1
          omega
        · have h1 : ¬ (a % 4 ≤ x - locAddr c a / 4 * 4 ∧ x - locAddr c a / 4 * 4 < a % 4 + n) := by omega
          rw [if_neg hin, if_neg (by simpa using h1)]
      by_cases h15 : (lanes a n d).2 = 15
      · rw [if_pos h15, ← key, byteOf_merge _ _ _ _ hi, h15]
        rcases (by omega : x - locAddr c a / 4 * 4 = 0 ∨ x - locAddr c a / 4 * 4 = 1 ∨ x - locAddr c a / 4 * 4 = 2 ∨ x - locAddr c a / 4 * 4 = 3) with h | h | h | h <;> rw [h] <;> rfl
      · rw [if_neg h15, key]
    · rw [if_neg hx, if_neg (by omega)]

end Sys2Proof.Machine
end

