-- ==== Sys2Proof/Laws/Rows.lean ====
section
/-! SUPPORT. Laws of the commands that are one access to a register: what reaches the block, and what a field keeps. -/

namespace Sys2Proof.Machine

theorem coreId_mk (n : Nat) (h : n < 36) : coreId n = ⟨n, by omega⟩ := by
  unfold coreId; rw [dif_pos (by omega)]

/-- The context of a core that makes an access is its own (R250). -/
theorem State.enters_core {s : State} {m : Master} {w : Bool} {x : Ctx} {as : List Nat} (h : s.enters m w x as) (hx : x.id < 36) :
    x = s.ctxOf (coreId x.id) := by
  have h1 := h.1
  cases m with
  | core n =>
    simp only [State.ctxMaster, Option.some.injEq] at h1
    subst h1
    have e : coreId (s.ctxOf (coreId n)).id = coreId n := by
      show coreId (coreId n).val = coreId n
      rw [coreId_mk n n.isLt]
      exact coreId_mk n n.isLt
    rw [e]
  | sc => simp only [State.ctxMaster, Option.some.injEq] at h1; subst h1; exact absurd hx (show ¬ (36 : CoreId).val < 36 by decide)
  | debug => simp only [State.ctxMaster, Option.some.injEq] at h1; subst h1; exact absurd hx (by decide)
  | dma n =>
    simp only [State.ctxMaster, Option.some.injEq] at h1; subst h1
    exact absurd hx (by simp [State.dmaCtx]; omega)
  | _ => exact absurd h1 (by simp [State.ctxMaster])

theorem lanes_word (a : Nat) (v : Word) (h : a % 4 = 0) : lanes a 4 v = (v, 15) := by
  unfold lanes; simp [h]

/-- What core c's own write of a word to the bus comes to. -/
def State.storeRes (s : State) (c : CoreId) (a : Nat) (v : Word) : Acc1 :=
  match s.busWrite (s.ctxOf c) a v 15 with
  | (none, t) => .ok 0 t
  | (some e, t) => .bad e (if outside a then t.agreePush c 0 (some e) else t)

/-- What core c's own read of a word from the bus comes to. -/
def State.loadRes (s : State) (c : CoreId) (a : Nat) : Acc1 :=
  match s.busRead (s.ctxOf c) a with
  | (.ok w, t) => .ok w (if outside a then t.agreePush c w none else t)
  | (.error e, t) => .bad e (if outside a then t.agreePush c 0 (some e) else t)

/-- A core of no pair, not fenced, makes its accesses itself. -/
theorem State.write1_solo (s : State) (c : CoreId) (a : Nat) (v : Word) (u : RemoteUse) (hs : s.role c = .solo)
    (hf : s.fenced c = false) (ha : a % 4 = 0) (hr : isRemote a = false) : s.write1 c a 4 v u = s.storeRes c a v := by
  unfold State.write1 State.sluiced State.storeRes
  simp only [hs, lanes_word a v ha, hr, State.busOut, hf, Bool.and_false, Bool.false_and, Bool.false_eq_true, if_false]
  by_cases ho : outside a <;> simp [ho] <;> rfl

theorem State.read1_solo (s : State) (c : CoreId) (a : Nat) (k : BitVec 4) (u : RemoteUse) (hs : s.role c = .solo)
    (hf : s.fenced c = false) (hr : isRemote a = false) (hw : s.flashWaits a = false) : s.read1 c a k u = s.loadRes c a := by
  unfold State.read1 State.sluiced State.loadRes
  simp only [hs, hr, hw, State.busIn, hf, Bool.and_false, Bool.false_and, Bool.false_eq_true, if_false]
  by_cases ho : outside a <;> simp [ho] <;> rfl

/-- What a core of no pair reads leaves no entry in an agreement buffer, and its stores no record. -/
theorem State.agreePush_solo (s : State) (c : CoreId) (v : Word) (e : Option BusCause) (h : s.role c = .solo) : s.agreePush c v e = s := by
  unfold State.agreePush; rw [h]

theorem State.recStore_solo (s : State) (c : CoreId) (a : Word) (n : Nat) (v : Word) (h : s.role c = .solo) : s.recStore c a n v = s := by
  unfold State.recStore State.record; rw [h]

/-- A write that is the first of its cycle has its own value. -/
theorem State.ordered_first (s : State) (i a : Nat) (v : Word) (h : s.wrote = []) : s.ordered i a v = v := by
  unfold State.ordered; rw [h]; rfl

/-- A write by SC, a DMA channel or the debug port. -/
theorem State.cmdWrite_enters (s : State) (m : Master) (x : Ctx) (as : List Nat) (a : Nat) (v : Word) (h : s.enters m true x as) (hx : 36 ≤ x.id)
    (ha : a ∈ as) (hr : isRemote a = false) :
    s.cmdWrite m a v = match s.busWrite x a v 15 with | (none, t) => t.answer 0 | (some e, t) => t.refuse e := by
  have hg : s.ownGrants x .write a = true := h.2.2.2.2.2 a ha
  obtain ⟨h1, -, h3, -⟩ := h
  unfold State.cmdWrite
  rw [if_neg (fun c => by rw [h3 c.1] at c; exact absurd c.2 (by decide)), h1]
  dsimp only
  rw [hg, if_neg (by decide), dif_neg (by omega), hr]
  rfl

/-- A write by a core. -/
theorem State.cmdWrite_core (s : State) (m : Master) (x : Ctx) (as : List Nat) (a : Nat) (v : Word) (h : s.enters m true x as) (hx : x.id < 36)
    (hb : a ∈ as) (ha : a % 4 = 0) (hr : isRemote a = false) :
    s.cmdWrite m a v = s.rowEnd (s.storeRes (coreId x.id) a v)
      (fun _ t => (t.recStore (coreId x.id) (BitVec.ofNat 32 a) 4 v).answer 0) := by
  have hg : s.ownGrants x .write a = true := h.2.2.2.2.2 a hb
  obtain ⟨h1, h2, h3, h4, -⟩ := h
  have h4 := h4 hx
  unfold State.cmdWrite
  rw [if_neg (fun c => by rw [h3 c.1] at c; exact absurd c.2 (by decide)), h1]
  dsimp only
  rw [hg, if_neg (by decide), dif_pos hx]
  rw [coreId_mk _ hx] at h4 ⊢
  rw [s.write1_solo _ a v _ h4 h2 ha hr]

/-- A read by SC, a DMA channel or the debug port. -/
theorem State.cmdRead_enters (s : State) (m : Master) (x : Ctx) (as : List Nat) (a : Nat) (h : s.enters m false x as) (hx : 36 ≤ x.id)
    (ha : a ∈ as) (hr : isRemote a = false) (hw : s.flashWaits a = false) :
    s.cmdRead m a = match s.busRead x a with | (.ok w, t) => t.answer w | (.error e, t) => t.refuse e := by
  have hg : s.ownGrants x .read a = true := h.2.2.2.2.2 a ha
  obtain ⟨h1, -, h3, -⟩ := h
  unfold State.cmdRead
  rw [if_neg (fun c => by rw [h3 c.1] at c; exact absurd c.2 (by decide)), h1]
  dsimp only
  rw [hg, if_neg (by decide), dif_neg (by omega), hr, hw]
  rfl

/-- A read by a core. -/
theorem State.cmdRead_core (s : State) (m : Master) (x : Ctx) (as : List Nat) (a : Nat) (h : s.enters m false x as) (hx : x.id < 36)
    (ha : a ∈ as) (hr : isRemote a = false) (hw : s.flashWaits a = false) :
    s.cmdRead m a = s.rowEnd (s.loadRes (coreId x.id) a) (fun w t => t.answer w) := by
  have hg : s.ownGrants x .read a = true := h.2.2.2.2.2 a ha
  obtain ⟨h1, h2, h3, h4, -⟩ := h
  have h4 := h4 hx
  unfold State.cmdRead
  rw [if_neg (fun c => by rw [h3 c.1] at c; exact absurd c.2 (by decide)), h1]
  dsimp only
  rw [hg, if_neg (by decide), dif_pos hx]
  rw [coreId_mk _ hx] at h4 ⊢
  rw [s.read1_solo _ a _ _ h4 h2 hr hw]

theorem regionOf_periph (b o : Nat) (h : b < 18) (ho : o < 0x10000) : regionOf (0x40000000 + 0x10000 * b + o) = .periph := by
  unfold regionOf
  have h1 : isSram (0x40000000 + 0x10000 * b + o) = false := by unfold isSram sramBase; simp; omega
  have h2 : isRemote (0x40000000 + 0x10000 * b + o) = false := by unfold isRemote; simp; omega
  rw [if_neg (by unfold localSize; omega), if_neg (by omega), if_neg (by omega), h1, h2, if_neg (by decide), if_neg (by decide), if_pos (by omega)]

theorem not_remote_periph (b o : Nat) : isRemote (0x40000000 + 0x10000 * b + o) = false := by unfold isRemote; simp; omega

/-- A word write of a peripheral register in block b at offset o. -/
theorem State.busWrite_periph (s : State) (x : Ctx) (b o : Nat) (v : Word) (m : Nat) (h : b < 18) (ho : o < 0x10000) (h4 : o % 4 = 0) :
    s.busWrite x (0x40000000 + 0x10000 * b + o) v m = if s.periphOff b o then (some .timeout, s) else s.periphPut x b o v := by
  unfold State.busWrite
  rw [regionOf_periph b o h ho]
  have e1 : (0x40000000 + 0x10000 * b + o) / 0x10000 - 0x4000 = b := by omega
  have e2 : (0x40000000 + 0x10000 * b + o) % 0x10000 / 4 * 4 = o := by omega
  dsimp only
  rw [e1, e2]

/-- The first write of its cycle to a peripheral register. -/
theorem State.periphPut_first (s : State) (x : Ctx) (b o : Nat) (v : Word) (h : s.wrote = []) :
    s.periphPut x b o v = match s.periphWrite x b o v with
      | (none, t) => (none, t.noteWrite x.id (0x40000000 + 0x10000 * b + o) v (s.putMask x b o))
      | r => r := by
  unfold State.periphPut
  dsimp only
  rw [s.ordered_first _ _ _ h] <;> rfl

theorem State.cmdWrite_periph (s : State) (ma : Master) (x : Ctx) (b o : Nat) (v : Word) (as : List Nat) (he : s.enters ma true x as) (hx : 36 ≤ x.id)
    (h : b < 18) (ho : o < 0x10000) (h4 : o % 4 = 0) (ha : 0x40000000 + 0x10000 * b + o ∈ as) :
    s.cmdWrite ma (0x40000000 + 0x10000 * b + o) v = if s.periphOff b o then s.refuse .timeout
      else match s.periphPut x b o v with | (none, t) => t.answer 0 | (some e, t) => t.refuse e := by
  rw [s.cmdWrite_enters ma x as _ v he hx ha (not_remote_periph b o), s.busWrite_periph x b o v 15 h ho h4]
  by_cases hd : s.periphOff b o = true
  · rw [if_pos hd, if_pos hd]
  · rw [if_neg hd, if_neg hd]

theorem State.busRead_periph (s : State) (x : Ctx) (a b o : Nat) (hr : regionOf a = .periph) (e1 : a / 0x10000 - 0x4000 = b)
    (e2 : a % 0x10000 / 4 * 4 = o) :
    s.busRead x a = if s.periphOff b o then (.error .timeout, s) else (.ok (s.periphRead x b o).1, (s.periphRead x b o).2) := by
  unfold State.busRead
  rw [hr]
  dsimp only
  rw [e1, e2]

theorem State.cmdRead_periph (s : State) (ma : Master) (x : Ctx) (b o : Nat) (as : List Nat) (he : s.enters ma false x as) (hx : 36 ≤ x.id) (h : b < 18)
    (ho : o < 0x10000) (h4 : o % 4 = 0) (ha : 0x40000000 + 0x10000 * b + o ∈ as) :
    s.cmdRead ma (0x40000000 + 0x10000 * b + o) = if s.periphOff b o then s.refuse .timeout
      else (s.periphRead x b o).2.answer (s.periphRead x b o).1 := by
  rw [s.cmdRead_enters ma x as _ he hx ha (not_remote_periph b o) (s.not_flashWaits _ (Or.inr (by omega)))]
  rw [s.busRead_periph x _ b o (regionOf_periph b o h ho) (by omega) (by omega)]
  by_cases hd : s.periphOff b o = true
  · rw [if_pos hd, if_pos hd]
  · rw [if_neg hd, if_neg hd]

end Sys2Proof.Machine
end

