-- ==== Sys2Proof/Tests/Slice0.lean ====
section
/-! SUPPORT. Slice0.lean: tests of this model: what WellFormed refuses, a few single steps whose results are worked out from the spec, and for
each statement of Obligations.lean with hypotheses one theorem (witness_<its name>) that shows states and operands which meet the
hypotheses of its clauses together. -/

namespace Sys2Proof.Tests
open Sys2Proof Sys2Proof.Machine
set_option Elab.async false
set_option linter.unusedVariables false

/-! ## Deciding the premises that are not decidable as they stand -/

theorem runs_of {s : State} {c : CoreId} {n : Nat}
    (h : (s.domReady c && (s.core c).run == .running && s.role c == .solo && !(s.core c).stepping && !(s.core c).haltReq &&
      s.bpHits c (s.core c).pc == 0 && s.pmSel == [] && s.ecc == [] && (s.core c).lbBase == none &&
      (!(s.core c).prefetched || (s.core c).preFault == none) &&
      (fetchWords (s.core c).pc.toNat n).all (fun w => decide (max (s.core c).pc.toNat w < localSize) &&
        s.rgnAllows c (s.core c).world (s.core c).lvl .exec (max (s.core c).pc.toNat w))) = true) : s.runs c n := by
  simp only [Bool.and_eq_true, Bool.or_eq_true, beq_iff_eq, Bool.not_eq_true', List.all_eq_true, decide_eq_true_eq] at h
  obtain ⟨⟨⟨⟨⟨⟨⟨⟨⟨⟨h1, h2⟩, h3⟩, h4⟩, h5⟩, h6⟩, h7⟩, h8⟩, h9⟩, hp⟩, h10⟩ := h
  exact ⟨h1, h2, h3, h4, h5, h6, h7, h8, h9, hp, h10⟩

theorem serves_of {s : State} {h : ReqHdr} {y : Session} {op : Nat} {p : List Byte}
    (e : (s.ozOn && s.oz.wait == none && s.oz.queue == [] && s.oz.lower == none && s.sessOn h.via h.session == some y &&
      s.opCheck y.gen y.auth op p == none) = true) : s.serves h y op p := by
  simp only [Bool.and_eq_true, beq_iff_eq] at e
  exact ⟨e.1.1.1.1.1, e.1.1.1.1.2, e.1.1.1.2, e.1.1.2, e.1.2, e.2⟩

theorem ok_of {α β : Type} [DecidableEq β] {x : Except α β} {v : β}
    (h : (match x with | .ok w => decide (w = v) | .error _ => false) = true) : x = .ok v := by
  cases x with
  | ok w => simp only [decide_eq_true_eq] at h; rw [h]
  | error e => cases h

theorem error_of {α β : Type} [DecidableEq α] {x : Except α β} {v : α}
    (h : (match x with | .error w => decide (w = v) | .ok _ => false) = true) : x = .error v := by
  cases x with
  | error w => simp only [decide_eq_true_eq] at h; rw [h]
  | ok e => cases h

theorem notBlank_of {o : Option FlashOp} (h : (match o with | some (.blankCheck _ _) => false | _ => true) = true) :
    ∀ c m, o ≠ some (.blankCheck c m) := by
  intro c m e; rw [e] at h; cases h

theorem wpHits_off {s : State} {c : CoreId} (h : ([4, 5].all fun u => bits (s.rg (rDbg c (0x10 + 0xC * u + 8))) 0 3 == 0) = true)
    (l : List (Word × Bool)) : s.wpHits c l = 0 := by
  simp only [List.all_cons, List.all_nil, Bool.and_true, Bool.and_eq_true, beq_iff_eq] at h
  have e : ∀ b : Bool, ((0 : Nat) == 4 || (0 : Nat) == (if b then 3 else 2)) = false := by decide
  have n : (l.any fun _ => false) = false := by simp
  unfold State.wpHits
  split
  · rfl
  · simp only [List.foldl_cons, List.foldl_nil, h.1, h.2, e, Bool.false_and, n, Bool.false_eq_true, if_false]

/-! ## A valid OTP image: its CRC register is 0 after nine bytes and stays 0 over zeros -/

def imgHead : List Byte := [0xF1, 0xC0, 0x40, 0x88, 0, 0x8A, 0x00, 0x04, 0xB9]
def img : List Byte := imgHead ++ (List.replicate 1011 0 ++ [0xFF, 0xFF, 0xFF, 0xFF])
/-- The bytes of the image that are not 0, stored from address a. -/
def imgAt (a : Nat) : List (Nat × Byte) :=
  [(a, 0xF1), (a + 1, 0xC0), (a + 2, 0x40), (a + 3, 0x88), (a + 5, 0x8A), (a + 7, 4), (a + 8, 0xB9),
   (a + 1020, 0xFF), (a + 1021, 0xFF), (a + 1022, 0xFF), (a + 1023, 0xFF)]

theorem crc_zeros (n : Nat) : (List.replicate n (0 : Byte)).foldl (fun c b => crc32Shift 8 (c ^^^ b.toNat)) 0 = 0 := by
  induction n with
  | zero => rfl
  | succ n ih => rw [List.replicate_succ, List.foldl_cons]; exact ih

theorem crc_img : crc32 (imgHead ++ List.replicate 1011 0) = 0xFFFFFFFF := by
  unfold crc32; rw [List.foldl_append, show imgHead.foldl (fun c b => crc32Shift 8 (c ^^^ b.toNat)) 0xFFFFFFFF = 0 by decide +kernel,
    crc_zeros]; rfl

theorem img_take : img.take 1020 = imgHead ++ List.replicate 1011 0 := by
  unfold img; rw [← List.append_assoc]; exact List.take_left' (by decide +kernel)

theorem img_valid : otpValid false img = true := by
  have h : (crc32 (img.take (otpLen false - 4))).toNat = leAt img (otpLen false - 4) 4 := by
    rw [show otpLen false - 4 = 1020 by decide, img_take, crc_img]; decide +kernel
  unfold otpValid
  simp only [h, decide_true, Bool.and_true]; decide +kernel

theorem img_tail (j : Nat) : img[j + 9]? = (List.replicate 1011 (0 : Byte) ++ [0xFF, 0xFF, 0xFF, 0xFF])[j]? := by
  unfold img; rw [List.getElem?_append_right (by show 9 ≤ j + 9; omega)]; rfl

theorem imgAt_get (a i : Nat) (h : i < 1024) : sget 0 (imgAt a) (a + i) = img.getD i 0 := by
  by_cases h9 : i < 9
  · have : i = 0 ∨ i = 1 ∨ i = 2 ∨ i = 3 ∨ i = 4 ∨ i = 5 ∨ i = 6 ∨ i = 7 ∨ i = 8 := by omega
    rcases this with rfl | rfl | rfl | rfl | rfl | rfl | rfl | rfl | rfl <;> simp [imgAt, sget, sfind] <;> rfl
  · obtain ⟨j, rfl⟩ : ∃ j, i = j + 9 := ⟨i - 9, by omega⟩
    rw [List.getD_eq_getElem?_getD, img_tail]
    by_cases h4 : 1011 ≤ j
    · rw [List.getElem?_append_right (by rw [List.length_replicate]; omega), List.length_replicate]
      have : j = 1011 ∨ j = 1012 ∨ j = 1013 ∨ j = 1014 := by omega
      rcases this with rfl | rfl | rfl | rfl <;> simp [imgAt, sget, sfind]
    · rw [List.getElem?_append_left (by rw [List.length_replicate]; omega), List.getElem?_replicate, if_pos (by omega)]
      simp only [imgAt, sget, sfind]
      repeat rw [if_neg (by omega)]
      rfl

theorem img_range (f : Nat → Byte) (h : ∀ i, i < 1024 → f i = img.getD i 0) : (List.range 1024).map f = img := by
  apply List.ext_getElem?
  intro i
  by_cases hi : i < 1024
  · have l : i < img.length := by unfold img; simp only [List.length_append, List.length_replicate]; exact hi
    rw [List.getElem?_map, List.getElem?_range hi, Option.map_some, h i hi, List.getD_eq_getElem?_getD, List.getElem?_eq_getElem l]
    rfl
  · rw [List.getElem?_eq_none (by simpa using hi), List.getElem?_eq_none]
    unfold img; simp only [List.length_append, List.length_replicate]; show 1024 ≤ i; omega

theorem memBytes_img (s : State) (a : Nat) (hp : s.poison = []) (hm : s.mem = imgAt a) : s.memBytes a (otpLen false) = img :=
  img_range _ fun i h => by unfold State.memByte; rw [hp, hm]; exact imgAt_get a i h

theorem otpGen_img (s : State) (h : s.otp = imgAt 0) : s.otpGen false 0 = img :=
  img_range _ fun i hi => by
    have : otpAt false 0 + i = 0 + i := rfl
    unfold State.otpByte; rw [if_pos (by rw [this]; omega), h, this]; exact imgAt_get 0 i hi

theorem drop_img : ([0, 0, 0, 0] ++ img).drop 4 = img := List.drop_left' rfl

theorem burnCheck_img {s : State} {key : Bool} {l : List Byte} (hk : key = false) (hl : l = img) (hf : s.otpFree false = some 0)
    (hm : s.otpMode = true) : s.burnCheck key l = .ok 0 := by
  subst hk
  unfold State.burnCheck
  rw [hl, hf, img_valid, hm]; rfl

theorem revoke_img {s : State} (h : s.otp = imgAt 0) (hm : s.otpMode = true) (hb : s.otpBlank false 0 = false)
    (hr : s.otpRevoked false 0 = false) : s.revokeAllowed false 1 = true := by
  unfold State.revokeAllowed
  rw [hm, Bool.true_and, List.any_eq_true]
  refine ⟨0, by decide, ?_⟩
  have g : s.otpGen false (0 : Fin 4).val = img := otpGen_img s h
  unfold State.otpLives
  rw [g, img_valid]
  simp only [Fin.val_zero, hb, hr]; decide +kernel

/-! ## States the tests and witnesses start from -/

def wCore (c : CoreId) (f : CoreState → CoreState) (s : State := State.reset) : State :=
  s.setCore c (f { s.core c with run := .running, pc := 0x100 })
def w0 := wCore 0 id
def wFull := wCore 5 fun k => { k with gpr := Vector.ofFn (fun i => BitVec.ofNat 32 (0x11111111 * (i.val + 3))), acc := Vector.ofFn (fun i => BitVec.ofNat 72 (0x123456789abcdef01 * (i.val+7))), shadow := some (3, 0x55), st := 0x001FF2 }
def wMem := { wFull with mem := (List.range 64).map (fun i => ⟨0x04000000 + 5 * 0x40000 + 0x200 + i, BitVec.ofNat 8 (i * 37 + 129)⟩) }
def wEx : State := { wCore 5 (fun k => { k with gpr := Vector.ofFn (fun i => BitVec.ofNat 32 (0x100 * (i.val + 3))), shadow := some (3, 0x555), st := 0x001202 }) with mem := (List.range 64).map (fun i => ⟨0x04000000 + 5 * 0x40000 + 0x200 + i, BitVec.ofNat 8 (i * 37 + 129)⟩) }
def wAt : State := { wCore 5 (fun k => { k with gpr := Vector.ofFn (fun i => BitVec.ofNat 32 (0x20000000 + i.val)), st := 0x001202 }) with mem := (List.range 64).map (fun i => ⟨0x20000000 + i, BitVec.ofNat 8 (i * 37 + 129)⟩) }
def wRet : State := { wCore 5 (fun k => { k with rstack := [⟨0x777, 0x2c, false⟩, ⟨0x888, 0, true⟩], sp := k.sp.set 1 0x210, st := 0x1202 }) with mem := (List.range 64).map (fun i => ⟨0x04000000 + 5 * 0x40000 + 0x200 + i, BitVec.ofNat 8 (i * 37 + 129)⟩) }
def wRet2 : State := { wCore 5 (fun k => { k with sp := k.sp.set 1 0x210, st := 0x1202 }) with mem := [⟨0x04000000 + 5 * 0x40000 + 0x211, 0x66⟩, ⟨0x04000000 + 5 * 0x40000 + 0x214, 0x30⟩] }
def wGate (s : State) : State := s.setRg (rWc 5 true 0x44) 0xC0001234
def wUser : State := ((wCore 5 (fun k => {k with st := 0x202})).setRg (rWc 5 false 0x100) 1).setRg (rWc 5 false 0x104) 0x2FFFF
def bnd5 (s : State) : State := (s.setRg (rSbind 5 2) 0x8000).setRg (rSbind 5 3) 0x8001
def wGrant : State := ((wCore 5 (fun k => {k with st := 0x202})).setRg (rWc 5 false 0x100) 0x40000001).setRg (rWc 5 false 0x104) 0x401FFFFF
def wNew : State := bnd5 <| wCore 5 (fun k => {k with newE := 4, newF := 0x10, smp := Vector.ofFn (fun i => BitVec.ofNat 32 (77 + i.val))})
def wWait : State := bnd5 <| (wCore 5 (fun k => {k with newE := 4, newF := 0x10, waitPc := 0x300})).setCore 5 { (wCore 5 id).core 5 with newE := 4, newF := 0x10, waitPc := 0x300, run := .waiting 2 false }
def wDesc : State := { wCore 5 (fun k => { k with gpr := Vector.ofFn (fun i => if i.val = 2 then 0x240 else BitVec.ofNat 32 (0x1234567 * (i.val + 3))), shadow := some (3, 0x555), st := 0x001202 }) with mem := (List.range 64).map (fun i => ⟨0x04000000 + 5 * 0x40000 + 0x240 + i, BitVec.ofNat 8 (i * 37 + 129)⟩) }
def wSettle : State := { wDesc with mem := [⟨0x04000000 + 5 * 0x40000 + 0x240 + 5, 0x20⟩, ⟨0x04000000 + 5 * 0x40000 + 0x240 + 0x3c, 1⟩, ⟨0x04000000 + 5 * 0x40000 + 0x240 + 0x3d, 0x20⟩] }
def ctx (s : State) (m : Master) : Ctx := (s.ctxMaster m).getD debugCtx
def act (s : State) (sec off : Nat) (v : Word) : State := { s with active := sput (setReset (sec*0x10000+off)) s.active (sec*0x10000+off) v }
def shd (s : State) (sec off : Nat) (v : Word) : State := { s with shadow := sput (setReset (sec*0x10000+off)) s.shadow (sec*0x10000+off) v }
def irqX : State := act ((wCore 5 (fun k => {k with pc := 0x300, st := 0x202, susp := 1})).setRg (rIcPend 5 0) 0x8) 10 12 0x10805
def irqN : State := act ((wCore 5 (fun k => {k with pc := 0x300, st := 0x1802})).setRg (rIcPend 5 0) 0x8) 10 12 0x10805
def retX : State := { wCore 5 (fun k => { k with sp := k.sp.set 1 0x210, st := 0x1F02 }) with mem := (List.range 64).map (fun i => ⟨0x04000000 + 5 * 0x40000 + 0x200 + i, BitVec.ofNat 8 (i * 36 + 130)⟩) }
def tk : State := ((((wCore 5 id).setRg (rFrameOwn 0) 0xFFFF0023).setRg (rFdone 0) 0x21).setRg (rFrameOwn 1) 0xF).setRg (rOvrCnt 1) 0xFFFF
def sw (st : Nat) : State := (State.reset.setFlag rFrameCtl 24 true).setFld rSwapStat 0 3 st
def fo : State := ((State.reset.setRg rTickCtl 0x80A).setMode 2).setLkState 2 3
def R : State := State.reset
def adcA : State := act ({R.setFlag (rAdcCtl 3) 0 true with now := 100}) 7 (64*3) 0x1C030020
def adcHold : State := adcA.setAdc 3 {adcA.adc 3 with busy := true, trigAt := 50, word := 0x1C030020, nextHold := some 100, acq := 24, late := true}
def adcHold1 : State := adcA.setAdc 3 {adcA.adc 3 with busy := true, trigAt := 50, word := 0x1C000020, nextHold := some 100, acq := 24, convs := 0}
def bnd (s : State) : State := ((s.setRg (rSbind 7 4) 0x8703).setRg (rSbind 8 0) 0x8703).setRg (rSbind 8 1) 0x8703
def adcRes : State := let s := bnd (adcA.setRg (rAdcQCtl 3) 0x20F1); s.setAdc 3 {s.adc 3 with busy := true, trigAt := 50, word := 0x1C030020, convs := 4, inFlight := some 80, sum := 12345, queue := [7], nextHold := none}
def adcResFull : State := let s := bnd (adcA.setRg (rAdcQCtl 3) 0x20F1); s.setAdc 3 {s.adc 3 with busy := true, trigAt := 50, word := 0x1C000020, convs := 1, inFlight := some 80, sum := 12345, queue := List.replicate 64 5, nextHold := none}
def adcResMid : State := let s := bnd (adcA.setRg (rAdcQCtl 3) 0x20F1); s.setAdc 3 {s.adc 3 with busy := true, trigAt := 50, word := 0x1C030020, convs := 2, inFlight := some 80, sum := 12345, queue := List.replicate 64 5, nextHold := some 200}
def qu (l : List Word) : State := adcA.setAdc 3 {adcA.adc 3 with queue := l, gap := some 0xFFFFFF05, busy := true, convs := 2}
def domOff (s : State) (d : Nat) : State := ((s.setFlag (0x40110000 + 4 * (d/32)) (d%32) false).setFlag (0x40110010 + 4 * (d/32)) (d%32) false)
def c5 (s : State := R) : State := wCore 5 id s
def rlf (g : Fin 2) (st : Nat) (f : ReliefState → ReliefState) (s : State := adcA) : State := (s.setRelief g (f (s.relief g))).setFld (rRlStat g) 4 3 st
def pt (mode pol : Word) (f : PwmState → PwmState) (s : State := R) : State := let s := act (act (act s 5 (64*7) mode) 5 (64*7+4) pol) 5 (64*7+0x18) 0x12345; let s := {s with otpLoaded := true}; s.setPt 7 (f (s.pt 7))
def own5 (s : State) : State := act (wCore 5 id s) 12 120 0x8000
def gt (mode ccm : Word) (f : GtState → GtState := id) (n : Fin 32 := 6) (s : State := R) : State := let s := act (act (act s 6 (32*n) mode) 6 (32*n+4) ccm) 6 (32*n+0xC) 0x54321; s.setGt n (f (s.gt n))
def flc (b : Fin 5) (unit : Nat) (s : State := R) : State := ((s.setRg (rFl b 4) (BitVec.ofNat 32 (16*unit))).setRg (rFl b 8) 0x12345678).setRg (rFl b 0x14) 0xAABBCCDD
def flo (b : Fin 5) (op : FlashOp) (st : Nat := 1) (s : State := R) : State := (s.setFlBank b {s.flBanks[b] with op := some op}).setFld (rFlStat b) 0 3 st
def burnS : State := { (R.setRg rOtpSrc 0x20000000).setMode 2 with mem := imgAt 0x20000000 }
def eg (op hi lo : Nat) (f : PeEngine → PeEngine) (s : State := R) : State := let s := (act s 9 (8*(4*2+1)) 0x00010001).setRg (rEng 2 1 0) 0x3000200F; let s := (s.setRg (rPg 2 (4*5)) (BitVec.ofNat 32 (0x1000*op+0x300+0x40*hi+lo))).setRg (rEng 2 1 0x1C) 0xBEEF; s.setEng 2 1 (f {s.eng 2 1 with pc := 5, run := true, sr := 0x81234567, ct := 9, fc := 32})
def pr (st : Nat) (f : PairState → PairState) (s : State := R) : State := ((s.setPairSt 3 st).setPair 3 (f (s.pair 3)))
def dbgS (s : State := R) : State := {s with jtag := {s.jtag with stat := 0}, otpLoaded := true}
def both (f : CoreState → CoreState) (s : State := R) : State := (s.setCore 6 (f (s.core 6))).setCore 7 (f (s.core 7))
def rev : State := { burnS with mem := [], otp := imgAt 0 }
def via0 : Transport := .udp 0 0x0A000001 1000
def y0 : Session := ⟨via0, 2, true, [1,2,3], 5, 1, 2, 0, 0, 0, 0, 4⟩
def h0 : ReqHdr := ⟨via0, 3, 9⟩
def oz (md : Nat := 2) (s : State := R) : State := let s := (wCore 36 id s).setMode md; {s with oz := {s.oz with sessions := s.oz.sessions.set 2 (some y0)}}
def nb (k n : Nat) : List Byte := natBytes k n
def ozH (s : State := oz) : State := {s with oz := {s.oz with sessions := (s.oz.sessions.set 0 (some y0)).set 2 none}}
def jb (l : List Job) (s : State := oz) : State := {s with oz := {s.oz with jobs := l, nextJob := 9}}
def y3 : Session := {y0 with gen := 3}
def oz3 (s : State := oz) : State := {s with oz := {s.oz with sessions := s.oz.sessions.set 2 (some y3)}}
def kimg : List Byte := let h := [0x71, 0xCE, 0x40, 0x88] ++ [0,0,0,0,1] ++ List.replicate 499 (7 : Byte); h ++ (List.range 4).map (fun i => (crc32 h).extractLsb' (8*i) 8)
def ozK : State := {ozH with otp := (kimg.zipIdx.map (fun p => (0x1000+p.2, p.1))).filter (fun c => c.2 != 0)}
def dimg : List Byte :=
  let le := fun (n v : Nat) => natBytes n v
  let h0 := le 4 0x1C840A5E ++ le 2 2 ++ le 2 0x8840 ++ le 4 60 ++ le 4 0x77 ++ le 2 1 ++ le 2 1 ++ le 4 0 ++ le 4 0
  let h := h0 ++ le 4 (crc32 h0).toNat
  let sec := le 4 64 ++ le 4 0x285
  let b := h ++ (le 2 5 ++ le 2 2 ++ le 4 48 ++ le 4 8 ++ le 4 (crc32 sec).toNat) ++ sec
  b ++ le 4 (crc32 b).toNat
def lk (st : Nat) (f : LinkState → LinkState := id) (s : State := R) : State := let s := (s.setLkState 2 st).setRg (rLk 2 0) 0x9; let s := {s with now := 500}; s.setLink 2 (f (s.link 2))
def fl (ty cred seq ack : Nat) : List Byte := mkFlit 0 ty cred seq ack (0 + 8*3) 0x1234 (natBytes 4 0x104 ++ natBytes 8 0)
def lmem (s : State) : State := {s with mem := (List.range 16).map (fun i => ⟨0x20000100 + i, BitVec.ofNat 8 (i+3)⟩) ++ (List.range 4).map (fun i => ⟨0x20000900+i, 5⟩)}
def rq (w : Bool) (busy : Nat) (use : RemoteUse := .command) : RemoteReq := ⟨0x77, 2, 0x30000104, w, 5, 15, false, busy, 400, use⟩
def ethB : List Byte := [1,2,3,4,5,6,7,8,9,10,11,12,0x12,0x34] ++ List.replicate 10 0x5A
def ethF : List Byte := ethB ++ wordBytes (crc32 ethB)
def wle (a : Nat) (v : Nat) : List Host.Cell := ((natBytes 4 v).zipIdx.map (fun p => ((a + p.2, p.1) : Host.Cell))).filter (fun c => c.2 != 0)
def ethS (s : State := R) : State := let s := (((s.setRg (rEth 1 0) 1).setRg (rEth 1 0x40) 0x20000100).setRg (rEth 1 0x44) 0x20000200).setRg (rEth 1 0x48) 0x0404; {s with mem := wle 0x20000100 0x20000300 ++ wle 0x20000104 0x00010800 ++ wle 0x20000200 0x20000304 ++ wle 0x20000204 0x0001000B ++ (List.range 20).map (fun i => (0x20000304 + i, BitVec.ofNat 8 (i + 1)))}
def canS (err : Word) (ctl : Word := 3) (s : State := R) : State := ((s.setRg (rCan 2 0) ctl).setRg (rCan 2 0xC) err)
def canR : State := let s := (((canS 0).setRg (rCan 2 0x20) 0x20000100).setRg (rCan 2 0x24) 0x20000200).setRg (rCan 2 0x28) 0x0404; {s with mem := (ethS).mem}
def uaS (cfg : Word) (rx : List Word) (tx : List Byte) (s : State := R) : State := (s.setRg (rUart 1 0) cfg).setUart 1 ⟨rx, tx⟩
def f0 : BootFindings := ⟨0, 0, [], 0⟩
def bt (f : BootState → BootState) (s : State := R) : State := {s with boot := f s.boot}
def scr (s : State) : State := {(s.setCore 36 {s.core 36 with testEnd := some 0}) with now := 294912}
def loc (c n : Nat) : List Nat := (List.range n).map (fun i => 0x04000000 + 0x40000 * c + 4 * i)
def wGrantP : State := ((wCore 5 (fun k => {k with st := 0x202})).setRg (rWc 5 false 0x100) 0xE0000001).setRg (rWc 5 false 0x104) 0xE000FFFF
def wBare : State := wCore 5 (fun k => {k with st := 0x202})
def dty (dbind : Word) (hold claim : Bool) (f : CoreState → CoreState := id) : State := let s := (wEx.setRg (rDbind 5 2) dbind); let s := if hold then s.setFlag (rPtCtl 3) 0 true else s; let s := if claim then act s 12 120 0x40 else s; s.setCore 5 (f (s.core 5))
def rl (k : CoreState) : CoreState := {k with duty := (k.duty.set 0 (some 0x1111)).set 5 (some 0x2222)}
def sH : State := { (wCore 5 id).setRg (rIcPend 5 3) 0x808 with hwSet := [(rIcPend 5 3, 8)] }
def sHr : State := act (act sH 10 (4*97) 0x10805) 10 (4*99) 0x11805
def tk4 : State := (tk.setFlag rFrameCtl 24 true).setMode 2
def sdS (p : SdState → SdState) (s : State := R) : State := let s := bnd (act (act s 7 (0x400+32) 0x00070205) 7 (0x404+32) 0x00010030); (s.setRg (rSbind 7 4) 0x8712).setSd 2 (p (s.sd 2))
def cm (st : Word) (f : CmpCore → CmpCore) : State := let s := (act R 8 (16*6+4) 0x00100001).setRg (rCmpStat 6) st; s.setCmp 6 (f (s.cmp 6))
def fb (s : State := c5) : State := (act s 3 (8*19) 0x205).setRg (rChMuted 0) 0x80000
def wb : State := { R with now := 100, wbq := [⟨0x20000000, false, 0⟩, ⟨0x20000040, false, 0⟩], ecc := [(0x20000000, false)] }
def cl : State := act (act fb 4 (16*7) 0x0) 4 (16*7+4) 0x4FFFF
def dm (f : DmaState → DmaState) (st : Word) (cnt : Word) (s : State := R) : State := let s := {s with mem := (List.range 16).map (fun i => ⟨0x20000100 + i, BitVec.ofNat 8 (i+3)⟩)}; let s := (s.setRg (rDma 4 4) st).setRg (rDma 4 8) cnt; s.setDma 4 (f {s.dma 4 with src := 0x20000104, dst := 0x20000040, attr := 0x8})
def sl0 : State := {lk 2 with remotes := [rq false 2]}
def mfb : List Byte := nb 4 0x88404D46 ++ nb 2 1 ++ nb 2 1 ++ nb 4 0 ++ nb 4 128 ++ List.replicate 64 0 ++ [36, 0, 0, 0] ++ nb 4 0x100 ++ nb 4 0 ++ nb 4 0x1230 ++ sha256 []
def mfS : State := {scr <| bt (fun b => {b with scDown := true, start := [(36, 0x1230)]}) with flash := (mfb.zipIdx.map (fun p => (p.2, p.1))).filter (fun e => e.2 != 0xFF)}

/-! ## What WellFormed refuses -/

/-- An immediate of one byte holds no ninth bit (R199); each of the instructions with an immediate refuses it. -/
theorem test_wf_imm : Imm.wf ⟨.b1, 0xFF⟩ = true ∧ Imm.wf ⟨.b1, 0x100⟩ = false ∧ Imm.wf ⟨.b2, 0x10000⟩ = false ∧
    Imm.wf ⟨.b4, 0xFFFFFFFF⟩ = true := by decide
theorem test_wf_src : [Instr.add, .sub, .and, .or, .xor, .mul, .min, .max].all (fun f => !(f 5 none 1 2 (.imm ⟨.b1, 0x100⟩)).wf) = true ∧
    Instr.wf (.add 5 none 1 2 (.imm ⟨.b2, 0x100⟩)) = true ∧ Instr.wf (.cmp 5 none 2 (.imm ⟨.b1, 0x100⟩)) = false ∧
    Instr.wf (.movi 5 none 1 ⟨.b2, 0x10000⟩) = false := by decide
theorem test_wf_data : [Instr.ld, .st, .lds].all (fun f => !(f 5 none 1 2 (.imm ⟨.b1, 0x100⟩) .word false).wf) = true ∧
    [Instr.atadd, .atswp].all (fun f => !(f 5 none 1 2 3 ⟨.b2, 0x10000⟩).wf) = true := by decide
theorem test_wf_branch : Instr.wf (.j 5 none ⟨.b1, 0x100⟩) = false ∧ Instr.wf (.call 5 none ⟨.b2, 0x10000⟩ 0) = false ∧
    Instr.wf (.j 5 none ⟨.b1, 0xFE⟩) = true := by decide
/-- A payload has at most 4096 bytes (Table 73). -/
theorem test_wf_payload : payloadOk (List.replicate 4096 0) = true ∧ payloadOk (List.replicate 4097 0) = false := by decide +kernel
theorem test_wf_requests : [Instr.hello, .bye, .ping, .job, .batch, .getMode, .setMode, .release, .fireHev, .setLoad, .setWrite, .setRead,
    .swapSet, .swapCancel, .swapStatus, .setCopy, .coreHalt, .coreStart, .coreLoad, .pairMode, .readmit, .peLoad, .imageInfo, .readBlock,
    .subscribe, .unsubscribe, .flProgram, .flErase, .flLogErase, .flBlank, .flRead, .flProt, .dfHealth, .otpRead, .burnGen, .revoke,
    .otpStatus, .calReq, .spargeReq, .linkStatus, .linkRetrain, .linkUnquarantine, .diagRead, .diagClear, .regRead, .regWrite, .regModify,
    .dbgHalt, .dbgResume, .dbgRead, .dbgWrite, .dbgBreak, .dbgStep].all
      (fun f => !(f ⟨.spih, 1, 0⟩ (List.replicate 4097 0)).wf) = true := by decide +kernel
/-- A marker's period is a legal tick period, 1000 to 8 000 000 cycles (R46). -/
theorem test_wf_marker : Instr.wf (.tickMarker 0 1 999 0) = false ∧ Instr.wf (.tickMarker 0 1 1000 0) = true ∧
    Instr.wf (.tickMarker 0 1 8000000 0) = true ∧ Instr.wf (.tickMarker 0 1 8000001 0) = false := by decide
/-- A flit has 32 bytes; a generation is 1 or 2; a granted number is not 0; a CAN frame has the bytes of its DLC; the chain has 179 cells. -/
theorem test_wf_flit : Instr.wf (.flitReceive 0 (List.replicate 31 0)) = false ∧ Instr.wf (.flitReceive 0 (List.replicate 32 0)) = true := by
  decide
theorem test_wf_training : Instr.wf (.trainingComplete 0 0 0) = false ∧ Instr.wf (.trainingComplete 0 1 0) = true := by decide
theorem test_wf_number : Instr.wf (.numberAnnounce 0 (.grant 0 false)) = false ∧ Instr.wf (.numberAnnounce 0 (.announce 3 4)) = false := by
  decide
theorem test_wf_can : CanFrame.wf ⟨5, false, true, false, false, 9, List.replicate 12 0⟩ = true ∧
    Instr.wf (.canFrameReceive 0 ⟨5, false, false, false, false, 9, List.replicate 12 0⟩) = false := by decide
theorem test_wf_chain : Instr.wf (.samplePreload (List.replicate 178 true)) = false ∧ Instr.wf (.extest (List.replicate 179 true)) = true ∧
    Instr.wf (.extest []) = false := by decide +kernel
theorem test_wf_sparge : Instr.wf (.spargeRegionEnd (.quadrant 0) [3, 3]) = false ∧ Instr.wf (.spargeRegionEnd (.quadrant 0) [3, 4]) = true := by
  decide

/-! ## Single steps -/

/-- The state after a command. -/
def after (i : Instr) (s : State) : State := match exec i s with | .next t => t | _ => s
/-- Core 5 runs with w1, w2 and ST as given. -/
def two (x y : Word) (st : Word := 0x1202) : State :=
  wCore 5 (fun k => { k with gpr := (k.gpr.set 0 x).set 1 y, st := st })

/-- R198, R207: a sum wraps and leaves the flags alone. -/
theorem test_add_wraps : let t := after (.add 5 none 3 1 (.reg 2)) (two 0xFFFFFFFF 1)
    (t.core 5).w 3 = 0 ∧ (t.core 5).st = 0x1202 ∧ (t.core 5).pc = 0x103 := by decide +kernel
/-- R219: a saturated sum sets Q (bit 4 of ST). -/
theorem test_adds_saturates : let t := after (.adds 5 none 3 1 2) (two 0x7FFFFFFF 1)
    (t.core 5).w 3 = 0x7FFFFFFF ∧ bit (t.core 5).st stQ = true := by decide +kernel
/-- R219: the rows of its table. -/
theorem test_div_corners : ((after (.div 5 none 3 1 2) (two 0x80000000 0xFFFFFFFF)).core 5).w 3 = 0x7FFFFFFF ∧
    ((after (.div 5 none 3 1 2) (two 0xFFFFFFF9 0)).core 5).w 3 = 0x80000000 ∧
    ((after (.div 5 none 3 1 2) (two 0xFFFFFFF9 2)).core 5).w 3 = 0xFFFFFFFD := by decide +kernel
theorem test_rem_sign : ((after (.rem 5 none 3 1 2) (two 0xFFFFFFF9 2)).core 5).w 3 = 0xFFFFFFFF ∧
    ((after (.rem 5 none 3 1 2) (two 7 0xFFFFFFFE)).core 5).w 3 = 1 := by decide +kernel
/-- R198: 5 - 7 is negative and borrows (C is 0); 0x80000000 - 1 overflows. -/
theorem test_cmp_flags : let f := fun (w : Word) => (bit w stN, bit w stZ, bit w stC, bit w stV)
    f ((after (.cmp 5 none 1 (.reg 2)) (two 5 7)).core 5).st = (true, false, false, false) ∧
    f ((after (.cmp 5 none 1 (.reg 2)) (two 0x80000000 1)).core 5).st = (false, false, true, true) := by decide +kernel
/-- Q1.31: one half of one half is one quarter. -/
theorem test_mulq : ((after (.mulq 5 none 3 1 2) (two 0x40000000 0x40000000)).core 5).w 3 = 0x20000000 := by decide +kernel
/-- R220: 1.5 + 2.25 is 3.75; 1 / 3 is rounded to nearest. -/
theorem test_float : ((after (.fadd 5 none 3 1 2) (two 0x3FC00000 0x40100000)).core 5).w 3 = 0x40700000 ∧
    ((after (.fdiv 5 none 3 1 2) (two 0x3F800000 0x40400000)).core 5).w 3 = 0x3EAAAAAB := by decide +kernel
/-- R203, R208: a store is little-endian, a load fills the load shadow, and the next instruction sees the loaded value. -/
theorem test_store_bytes : let t := after (.st 5 none 2 0 (.imm ⟨.b2, 0x200⟩) .word false) (two 0 0x11223344)
    (t.memByte (locAddr 5 0x200), t.memByte (locAddr 5 0x203), t.memByte (locAddr 5 0x204)) = (0x44, 0x11, 0) := by decide +kernel
theorem test_load_shadow : let s := after (.st 5 none 2 0 (.imm ⟨.b2, 0x200⟩) .word false) (two 0 0x11223344)
    let t := after (.ld 5 none 3 0 (.imm ⟨.b2, 0x200⟩) .half false) s
    (t.core 5).w 3 = 0 ∧ ((after (.nop 5 none) t).core 5).w 3 = 0x3344 := by decide +kernel
/-- R60: the check value of CRC-32 over the nine digits. -/
theorem test_crc32 : crc32 [0x31, 0x32, 0x33, 0x34, 0x35, 0x36, 0x37, 0x38, 0x39] = 0xCBF43926 := by decide +kernel
/-- A write of w0 is discarded (R197). -/
theorem test_w0 : ((after (.add 5 none 0 1 (.reg 2)) (two 3 4)).core 5).w 0 = 0 := by decide +kernel
/-- With an empty queue a step is one edge of the timebase (log entry 1); a command leaves the queue's rest in place. -/
theorem test_idle_edge : step State.reset = .next State.reset.edge := rfl
theorem test_queue : (match step { State.reset with pending := [.powerOnReset, .pinReset] } with | .next t => t.pending | _ => []) = [.pinReset] := by
  decide +kernel
/-- The table spells no command, so nothing is put in front of the queue. -/
theorem test_fetch_word : State.reset.withFetchWord 24 0x301002 = State.reset := rfl

/-! ## Witnesses of the statements about every step -/

theorem witness_StepRunsTheFrontCommand : ∃ s : State, s.pending = [] ∧ s.mode = 0 := ⟨R.setMode 0, by decide +kernel⟩
theorem witness_EveryStepKeepsMemoryCanonical : ∃ s t : State, Memory.wf s.mem = true ∧ step s = .next t :=
  ⟨R, R.edge, by decide +kernel, rfl⟩
theorem witness_EveryStepKeepsOtpBits : ∃ s t : State, step s = .next t ∧ sget 0 s.otp 0x1800 = 3 :=
  ⟨{ R with otp := [(0x1800, 3)] }, State.edge { R with otp := [(0x1800, 3)] }, rfl, by decide +kernel⟩

/-! ## Witnesses: what each statement assumes is met -/

theorem witness_ResetLeavesTheStatedValues :
    (Fin.ofNat 32 0 ≠ (31 : Reg) ∧ 0 < 85) :=
  by decide +kernel

theorem witness_IntegerResultIsWritten :
    (∃ (s : State) (c : CoreId) (cc : CC) (x : Src) (y : ShAmt) (i : Imm) (sr : Fin 32),
      let n : Nat := srcLen x + ccLen cc
      let m : Nat := shLen y + ccLen cc
      let l : Nat := 3 + ccLen cc
      s.runs c n ∧ s.runs c m ∧ s.runs c l ∧ s.runs c (2 + ImmSize.len i.size + ccLen cc) ∧ ccHolds (s.core c) cc = true ∧ sr.val ≤ 8) :=
  ⟨wFull, 5, (some .eq), (Src.imm ⟨.b1, 0xFF⟩), (ShAmt.reg 3), ⟨.b1, 0xF7⟩, 7, runs_of (by decide +kernel),
    runs_of (by decide +kernel), runs_of (by decide +kernel), runs_of (by decide +kernel), by decide +kernel⟩

theorem witness_AddpAdvancesTwoPointers :
    (∃ (s : State) (c : CoreId) (cc : CC),
      s.runs c (5 + ccLen cc) ∧ ccHolds (s.core c) cc = true) :=
  ⟨wFull, 5, (some .eq), runs_of (by decide +kernel), by decide +kernel⟩

theorem witness_SaturatingResultSetsQ :
    (∃ (s : State) (c : CoreId) (cc : CC),
      s.runs c (3 + ccLen cc) ∧ ccHolds (s.core c) cc = true) :=
  ⟨wFull, 5, none, runs_of (by decide +kernel), by decide +kernel⟩

theorem witness_ComparisonsWriteTheFlags :
    (∃ (s : State) (c : CoreId) (cc : CC) (x : Src),
      s.runs c (srcLen x + ccLen cc) ∧ s.runs c (3 + ccLen cc) ∧ ccHolds (s.core c) cc = true) :=
  ⟨wFull, 5, none, (Src.reg 7), runs_of (by decide +kernel), runs_of (by decide +kernel), by decide +kernel⟩

theorem witness_FloatResultSetsFe :
    (∃ (s : State) (c : CoreId) (cc : CC),
      s.runs c (3 + ccLen cc) ∧ ccHolds (s.core c) cc = true) :=
  ⟨wFull, 5, none, runs_of (by decide +kernel), by decide +kernel⟩

theorem witness_AccumulatorsTakeSums :
    (∃ (s : State) (c : CoreId) (cc : CC) (i : Fin 4) (n : Fin 32),
      let len : Nat := (3 + if 2 ≤ i.val then 1 else 0) + ccLen cc
      s.runs c len ∧ ccHolds (s.core c) cc = true ∧ n.val ≤ 2) :=
  ⟨wFull, 5, none, 2, 2, runs_of (by decide +kernel), by decide +kernel⟩

theorem witness_UndefinedFieldsTakeIllegalOpcode :
    (∃ (s : State) (c : CoreId) (cc : CC) (i : Fin 4) (n : Fin 32),
      (s.runs c ((3 + if 2 ≤ i.val then 1 else 0) + ccLen cc)) ∧ s.runs c (3 + ccLen cc) ∧ s.runs c (2 + ccLen cc) ∧ 2 < n.val ∧
      8 < n.val ∧ 6 < n.val ∧ 15 < n.val) :=
  ⟨wFull, 5, none, 2, 31, runs_of (by decide +kernel), runs_of (by decide +kernel), runs_of (by decide +kernel), by decide +kernel⟩

theorem witness_FalseConditionHasNoEffect :
    (∃ (s : State) (c : CoreId) (cc : CC) (x : Src) (disp : Imm) (sz : MemSize),
      s.runs c (1 + ccLen cc) ∧ (s.regsOf c).noLoop ∧ s.runs c (srcLen x + ccLen cc) ∧ s.runs c (3 + ccLen cc) ∧
      s.runs c (1 + ImmSize.len disp.size + ccLen cc) ∧ s.runs c (2 + ccLen cc) ∧ s.runs c (srcLen x + dataPrefix sz false + ccLen cc) ∧
      ccHolds (s.core c) cc = false ∧ dataPrefix sz false + ccLen cc ≤ 3) :=
  ⟨wFull, 5, (some .ne), (Src.reg 7), ⟨.b2, 0xF7⟩, MemSize.half, runs_of (by decide +kernel),
    by unfold CoreState.noLoop; decide +kernel, runs_of (by decide +kernel), runs_of (by decide +kernel), runs_of (by decide +kernel),
    runs_of (by decide +kernel), runs_of (by decide +kernel), by decide +kernel⟩

theorem witness_LoadsFillTheShadow :
    (∃ (s : State) (c : CoreId) (cc : CC) (b : Reg) (x : Src) (sz : MemSize) (una : Bool),
      let k : CoreState := s.core c
      let n : Nat := sizeBytes sz
      let ea : Nat := BitVec.toNat (k.w b + srcS k x)
      let len : Nat := srcLen x + dataPrefix sz una + ccLen cc
      (∀ (l : List (Word × Bool)), s.wpHits c l = 0) ∧ s.runs c len ∧ ccHolds (s.core c) cc = true ∧ s.collided = none ∧
      dataPrefix sz una + ccLen cc ≤ 3 ∧ (¬(una = true ∧ sz = MemSize.byte)) ∧ ea + n ≤ localSize ∧ (una = true ∨ ea % n = 0) ∧
      (∀ (p : Nat × Nat), p ∈ dataParts ea n una → s.rgnAllows c.val k.world k.lvl Perm.read p.fst = true) ∧ sz ≠ MemSize.word) ∧
    (∃ (s : State) (c : CoreId) (cc : CC) (a : Reg) (sz : MemSize) (una : Bool),
      let k : CoreState := s.core c
      let n : Nat := sizeBytes sz
      (∀ (l : List (Word × Bool)), s.wpHits c l = 0) ∧ s.runs c (2 + ccLen cc) ∧ ccHolds (s.core c) cc = true ∧ s.collided = none ∧
      sz = MemSize.word ∧ una = false ∧ a ≠ (31 : Reg) ∧ k.curSp.toNat + n ≤ localSize ∧ (una = true ∨ k.curSp.toNat % n = 0) ∧
      (∀ (p : Nat × Nat), p ∈ dataParts k.curSp.toNat n una → s.rgnAllows c.val k.world k.lvl Perm.read p.fst = true)) :=
  ⟨⟨wMem, 5, none, 0, (Src.imm ⟨.b2, 0x201⟩), MemSize.half, true, wpHits_off (by decide +kernel), runs_of (by decide +kernel),
    by decide +kernel⟩,
   ⟨wMem, 5, none, 3, MemSize.word, false, wpHits_off (by decide +kernel), runs_of (by decide +kernel), by decide +kernel⟩⟩

theorem witness_StoresWriteTheirBytesOnly :
    (∃ (s : State) (c : CoreId) (cc : CC) (b : Reg) (x : Src) (sz : MemSize) (una : Bool),
      let k : CoreState := s.core c
      let n : Nat := sizeBytes sz
      let ea : Nat := BitVec.toNat (k.w b + srcS k x)
      (∀ (l : List (Word × Bool)), s.wpHits c l = 0) ∧ s.runs c (srcLen x + dataPrefix sz una + ccLen cc) ∧ s.runs c (2 + ccLen cc) ∧
      ccHolds (s.core c) cc = true ∧ s.poison = [] ∧ dataPrefix sz una + ccLen cc ≤ 3 ∧ (¬(una = true ∧ sz = MemSize.byte)) ∧
      ea + n ≤ localSize ∧ (una = true ∨ ea % n = 0) ∧
      (∀ (p : Nat × Nat), p ∈ dataParts ea n una → s.rgnAllows c.val k.world k.lvl Perm.write p.fst = true) ∧ sz = MemSize.word ∧
      una = false ∧ BitVec.toNat (k.curSp - (4 : Word)) + n ≤ localSize ∧ (una = true ∨ BitVec.toNat (k.curSp - (4 : Word)) % n = 0) ∧
      (∀ (p : Nat × Nat), p ∈ dataParts (BitVec.toNat (k.curSp - (4 : Word))) n una → s.rgnAllows c.val k.world k.lvl Perm.write p.fst = true) ∧
      BitVec.toNat (s.rg (rSplim c.val k.world k.lvl)) ≤ BitVec.toNat (k.curSp - (4 : Word))) :=
  ⟨wMem, 5, none, 0, (Src.imm ⟨.b2, 0x204⟩), MemSize.word, false, wpHits_off (by decide +kernel), runs_of (by decide +kernel),
    runs_of (by decide +kernel), by decide +kernel⟩

theorem witness_MisalignedDataTakesItsFault :
    (∃ (s : State) (c : CoreId) (cc : CC) (b : Reg) (x : Src) (sz : MemSize),
      let ea : Word := (s.core c).w b + srcS (s.core c) x
      s.runs c (srcLen x + dataPrefix sz false + ccLen cc) ∧ ccHolds (s.core c) cc = true ∧ dataPrefix sz false + ccLen cc ≤ 3 ∧
      ea.toNat % sizeBytes sz ≠ 0 ∧ regionOf ea.toNat ≠ Region.periph ∧ regionOf ea.toNat ≠ Region.priv) :=
  ⟨wMem, 5, none, 0, (Src.imm ⟨.b2, 0x201⟩), MemSize.half, runs_of (by decide +kernel), by decide +kernel⟩

theorem witness_AtomicsReplaceOneSramWord :
    (∃ (s : State) (c : CoreId) (cc : CC) (b : Reg) (i : Imm),
      let k : CoreState := s.core c
      let ea : Nat := BitVec.toNat (k.w b + immS i)
      (∀ (l : List (Word × Bool)), s.wpHits c l = 0) ∧ s.runs c (4 + ImmSize.len i.size + ccLen cc) ∧ ccHolds (s.core c) cc = true ∧
      s.collided = none ∧ s.poison = [] ∧ s.wbq = [] ∧ ea % 4 = 0 ∧ isSram ea = true ∧ s.sramBad ea = false ∧
      s.bankRefuses k.world ea = false ∧ s.fenced c.val = false ∧ s.rgnAllows c.val k.world k.lvl Perm.read ea = true ∧
      s.rgnAllows c.val k.world k.lvl Perm.write ea = true) :=
  ⟨wAt, 5, none, 1, ⟨.b1, 8⟩, wpHits_off (by decide +kernel), runs_of (by decide +kernel), by decide +kernel⟩

theorem witness_BranchesGoToTheirTarget :
    (∃ (s : State) (c : CoreId) (cc : CC) (disp : Imm),
      let k : CoreState := s.core c
      s.runs c (1 + ImmSize.len disp.size + ccLen cc) ∧ (s.regsOf c).noLoop ∧ s.runs c (2 + ccLen cc) ∧ s.runs c (1 + ccLen cc) ∧
      (s.setCore c k.lbRelease).runs c (1 + ccLen cc) ∧ ccHolds (s.core c) cc = true) :=
  ⟨wEx, 5, (some .eq), ⟨.b1, 0xF8⟩, runs_of (by decide +kernel), by unfold CoreState.noLoop; decide +kernel,
    runs_of (by decide +kernel), runs_of (by decide +kernel), runs_of (by decide +kernel), by decide +kernel⟩

theorem witness_CallsPushAReturnEntry :
    (∃ (s : State) (c : CoreId) (cc : CC) (disp : Imm) (mask : BitVec 16),
      let k : CoreState := s.core c
      let regs : List Reg := maskRegs mask
      let base : Word := k.curSp - BitVec.ofNat 32 (4 * regs.length)
      (∀ (l : List (Word × Bool)), s.wpHits c l = 0) ∧ s.runs c (3 + ImmSize.len disp.size + ccLen cc) ∧ s.runs c (4 + ccLen cc) ∧
      ccHolds (s.core c) cc = true ∧ maskOk mask = true ∧ s.rsFull c = false ∧ (regs ≠ [] → k.curSp.toNat % 4 = 0) ∧
      (regs ≠ [] → base.toNat + 4 * regs.length ≤ localSize ∧ BitVec.toNat (s.rg (rSplim c.val k.world k.lvl)) ≤ base.toNat ∧ ∀ (i : Nat), i < regs.length → s.rgnAllows c.val k.world k.lvl Perm.write (base.toNat + 4 * i) = true)) :=
  ⟨wEx, 5, (some .eq), ⟨.b1, 0xF8⟩, 0x2c, wpHits_off (by decide +kernel), runs_of (by decide +kernel), runs_of (by decide +kernel),
    by decide +kernel⟩

theorem witness_RetRestoresWhatTheCallSaved :
    (∃ (s : State) (c : CoreId) (e : RetEntry) (rest : List RetEntry),
      let k : CoreState := s.core c
      let regs : List Reg := maskRegs e.mask
      s.runs c 1 ∧ (∀ (l : List (Word × Bool)), s.wpHits c l = 0) ∧ s.collided = none ∧ k.rstack = e :: rest ∧ e.world = k.world ∧
      (regs ≠ [] → k.curSp.toNat % 4 = 0) ∧
      (∀ (i : Nat), i < regs.length → k.curSp.toNat + 4 * i < localSize ∧ s.rgnAllows c.val k.world k.lvl Perm.read (k.curSp.toNat + 4 * i) = true)) :=
  ⟨wRet, 5, ⟨0x777, 0x2c, false⟩, [(⟨0x888, 0, true⟩ : RetEntry)], runs_of (by decide +kernel), wpHits_off (by decide +kernel),
    by decide +kernel⟩

theorem witness_ReturnEntriesMoveToMemoryAndBack :
    (∃ (s : State) (c : CoreId) (e : RetEntry) (rest : List RetEntry),
      let k : CoreState := s.core c
      s.runs c 1 ∧ (∀ (l : List (Word × Bool)), s.wpHits c l = 0) ∧ s.collided = none ∧ k.rstack = e :: rest ∧ e.world = k.world ∧
      BitVec.toNat (k.curSp - (8 : Word)) % 4 = 0 ∧ BitVec.toNat (k.curSp - (8 : Word)) + 8 ≤ localSize ∧
      BitVec.toNat (s.rg (rSplim c.val k.world k.lvl)) ≤ BitVec.toNat (k.curSp - (8 : Word)) ∧
      s.rgnAllows c.val k.world k.lvl Perm.write (BitVec.toNat (k.curSp - (8 : Word))) = true ∧
      s.rgnAllows c.val k.world k.lvl Perm.write (BitVec.toNat (k.curSp - (8 : Word)) + 4) = true) ∧
    (∃ (s : State) (c : CoreId),
      let k : CoreState := s.core c
      s.runs c 1 ∧ (∀ (l : List (Word × Bool)), s.wpHits c l = 0) ∧ s.collided = none ∧ s.rsFull c = false ∧ k.curSp.toNat % 4 = 0 ∧
      k.curSp.toNat + 8 ≤ localSize ∧ BitVec.toNat (s.rg (rSplim c.val k.world k.lvl)) ≤ k.curSp.toNat ∧
      s.rgnAllows c.val k.world k.lvl Perm.read k.curSp.toNat = true ∧
      s.rgnAllows c.val k.world k.lvl Perm.read (k.curSp.toNat + 4) = true ∧
      maskOk (BitVec.extractLsb' 0 16 (s.memWord (locAddr c.val (k.curSp.toNat + 4) / 4 * 4))) = true) :=
  ⟨⟨wRet, 5, ⟨0x777, 0x2c, false⟩, [(⟨0x888, 0, true⟩ : RetEntry)], runs_of (by decide +kernel), wpHits_off (by decide +kernel),
    by decide +kernel⟩,
   ⟨wRet2, 5, runs_of (by decide +kernel), wpHits_off (by decide +kernel), by decide +kernel⟩⟩

theorem witness_LoopAndMtsSetLoopRegisters :
    (∃ (s : State) (c : CoreId) (cc : CC) (len : BitVec 16) (count : LoopCount),
      let k : CoreState := s.core c
      let n : Nat := match count with | LoopCount.reg b => 4 | LoopCount.imm n => 6
      let ls : Word := k.pc + BitVec.ofNat 32 n
      let le : Word := ls + BitVec.setWidth 32 len
      s.runs c n ∧ (s.regsOf c).noLoop ∧ s.runs c (3 + ccLen cc) ∧ len ≠ (0 : BitVec 16) ∧ ls ≠ le ∧ ccHolds k cc = true ∧
      (∀ (i : Fin 2), k.le[i] ≠ k.pc + BitVec.ofNat 32 (3 + ccLen cc))) :=
  ⟨wEx, 5, (some .eq), 0x20, (LoopCount.reg 7), runs_of (by decide +kernel), by unfold CoreState.noLoop; decide +kernel,
    runs_of (by decide +kernel), by decide +kernel⟩

def witLevelsAndWorldsChangeByTheirInstructions0 : State := wGate wEx

theorem witness_LevelsAndWorldsChangeByTheirInstructions :
    (∃ (s : State) (c : CoreId) (n : Fin 16),
      let k : CoreState := s.core c
      let g : Word := s.rg (rWc c.val (!k.world) (64 + 4 * n.val))
      s.runs c 2 ∧ k.lvl = true ∧ c ≠ (36 : CoreId) ∧ bit g 31 = true) ∧
    (∃ (s : State) (c : CoreId) (n : Fin 16),
      let k : CoreState := s.core c
      let g : Word := s.rg (rWc c.val (!k.world) (64 + 4 * n.val))
      s.runs c 2 ∧ k.lvl = false ∧ (c = (36 : CoreId) ∨ bit g 31 = false)) :=
  ⟨⟨witLevelsAndWorldsChangeByTheirInstructions0, 5, 1, runs_of (by decide +kernel), by decide +kernel⟩,
   ⟨wUser, 5, 1, runs_of (by decide +kernel), by decide +kernel⟩⟩

def witSamplesAndFdoneFollowTheFrame0 : State := wCore 36 id

theorem witness_SamplesAndFdoneFollowTheFrame :
    (∃ (s : State) (c : CoreId) (cc : CC) (n : Fin 16) (final : Bool),
      let k : CoreState := s.core c
      let flag : Bool := s.smpFresh c n final
      s.runs c (1 + ccLen cc) ∧ s.runs c 2 ∧ (s.regsOf c).noLoop ∧ s.runs c (3 + ccLen cc) ∧ ccHolds (s.core c) cc = true ∧ c.val < 36 ∧
      s.fab.feed.contains 979 = false ∧ c ≠ (36 : CoreId) ∧ flag = true ∧ ccHolds k cc = true) ∧
    (∃ (s : State) (c : CoreId) (n : Fin 16) (final : Bool),
      let flag : Bool := s.smpFresh c n final
      s.runs c 2 ∧ c ≠ (36 : CoreId) ∧ flag = false) ∧
    (∃ (s : State) (c : CoreId) (n : Fin 16) (final : Bool),
      let k : CoreState := s.core c
      let flag : Bool := s.smpFresh c n final
      k.noLoop ∧ c ≠ (36 : CoreId) ∧ k.run = RunState.waiting n final ∧ flag = true ∧ s.domReady c.val = true ∧
      s.role c.val = Role.solo ∧ s.pmSel = [] ∧ k.stepping = false ∧ k.haltReq = false) ∧
    (∃ (s : State) (c : CoreId) (cc : CC),
      s.runs c (1 + ccLen cc) ∧ ccHolds (s.core c) cc = true ∧ c = (36 : CoreId)) :=
  ⟨⟨wNew, 5, none, 2, false, runs_of (by decide +kernel), runs_of (by decide +kernel), by unfold CoreState.noLoop; decide +kernel,
    runs_of (by decide +kernel), by decide +kernel⟩,
   ⟨wNew, 5, 3, true, runs_of (by decide +kernel), by decide +kernel⟩,
   ⟨wWait, 5, 2, false, by unfold CoreState.noLoop; decide +kernel, by decide +kernel⟩,
   ⟨witSamplesAndFdoneFollowTheFrame0, 36, none, runs_of (by decide +kernel), by decide +kernel⟩⟩

theorem witness_PlainLawsWriteTwoResults :
    (∃ (s : State) (c : CoreId) (cc : CC) (a : Reg) (r : Reg),
      s.runs c (5 + ccLen cc) ∧ ccHolds (s.core c) cc = true ∧ c ≠ (36 : CoreId) ∧ a.val + 2 ≤ 32 ∧ r.val + 2 ≤ 32 ∧ r.val + 3 ≤ 32) :=
  ⟨wDesc, 5, (some .eq), 3, 4, runs_of (by decide +kernel), by decide +kernel⟩

theorem witness_DescriptorLawsWriteFieldsAndResults :
    (∃ (s : State) (c : CoreId) (cc : CC) (a : Reg) (b : Reg) (r : Reg) (m : Nat) (n : Nat),
      let k : CoreState := s.core c
      let p : Nat := BitVec.toNat (k.w b)
      s.runs c (5 + ccLen cc) ∧ (∀ (l : List (Word × Bool)), s.wpHits c l = 0) ∧ ccHolds (s.core c) cc = true ∧ c ≠ (36 : CoreId) ∧
      s.collided = none ∧ s.poison = [] ∧ p % 64 = 0 ∧ p < localSize ∧
      (∀ (i : Nat), i < 16 → s.rgnAllows c.val k.world k.lvl Perm.read (p + 4 * i) = true ∧ s.rgnAllows c.val k.world k.lvl Perm.write (p + 4 * i) = true) ∧
      a.val + 1 ≤ 32 ∧ r.val + 1 ≤ 32 ∧ (m < locAddr c.val p ∨ locAddr c.val p + 64 ≤ m) ∧ a.val + 3 ≤ 32 ∧ r.val + 2 ≤ 32 ∧
      ((svpwmLaw (k.w (fin 32 (r.val + 0) (by decide))) (k.w (fin 32 (r.val + 1) (by decide))) (List.map (fun i ↦ if [7].contains i = true then s.memWord (locAddr c.val (p + 4 * i)) else (0 : Word)) (List.range 16))).desc = none) ∧
      settleShape (s.memWord (locAddr c.val (p + 4 * 15))) a r (0 : Byte) = some (n, m)) :=
  ⟨wSettle, 5, (some .eq), 5, 3, 6, 1, 1, runs_of (by decide +kernel), wpHits_off (by decide +kernel), by decide +kernel⟩

def witDutyWritesReachTheBoundTimer0 : State := dty 0x8003 false true
def witDutyWritesReachTheBoundTimer3 : State := dty 0x8003 true true
def witDutyWritesReachTheBoundTimer4 : State := dty 0x8003 false false
def witDutyWritesReachTheBoundTimer7 : State := (((dty 0x8303 false true rl).setRg (rDbind 5 0) 0x8003).setRg (rDbind 5 5) 0x8103)
def witDutyWritesReachTheBoundTimer8 : State := (((dty 0x8303 false true rl).setRg (rDbind 5 0) 0x8003).setRg (rDbind 5 5) 0x8104)

theorem witness_DutyWritesReachTheBoundTimer :
    (∃ (s : State) (c : CoreId) (cc : CC) (d : Reg) (j : Fin 8),
      let k : CoreState := s.core c
      let n : Fin 48 := fin 48 (bits (s.rg (rDbind c.val j.val)) 0 6) (by decide)
      s.runs c (4 + ccLen cc) ∧ ccHolds (s.core c) cc = true ∧ c ≠ (36 : CoreId) ∧ d.val = j.val ∧ s.fenced c.val = false ∧
      bits (s.rg (rDbind c.val j.val)) 8 2 ≠ 3 ∧ bit (s.rg (rDbind c.val j.val)) 15 = true ∧ bits (s.rg (rDbind c.val j.val)) 0 6 < 48 ∧
      (s.claimIn c.val k.world (2 * bits (s.rg (rDbind c.val j.val)) 0 6) = true ∨ s.claimIn c.val k.world (2 * bits (s.rg (rDbind c.val j.val)) 0 6 + 1) = true) ∧
      s.flag (rPtCtl n.val) 0 = false) ∧
    (∃ (s : State) (c : CoreId) (cc : CC) (d : Reg) (j : Fin 8),
      let k : CoreState := s.core c
      let n : Fin 48 := fin 48 (bits (s.rg (rDbind c.val j.val)) 0 6) (by decide)
      s.runs c (4 + ccLen cc) ∧ ccHolds (s.core c) cc = true ∧ c ≠ (36 : CoreId) ∧ d.val = j.val ∧ s.fenced c.val = false ∧
      bits (s.rg (rDbind c.val j.val)) 8 2 ≠ 3 ∧ bit (s.rg (rDbind c.val j.val)) 15 = true ∧ bits (s.rg (rDbind c.val j.val)) 0 6 < 48 ∧
      (s.claimIn c.val k.world (2 * bits (s.rg (rDbind c.val j.val)) 0 6) = true ∨ s.claimIn c.val k.world (2 * bits (s.rg (rDbind c.val j.val)) 0 6 + 1) = true) ∧
      s.flag (rPtCtl n.val) 0 = true) ∧
    (∃ (s : State) (c : CoreId) (cc : CC) (d : Reg) (j : Fin 8),
      let k : CoreState := s.core c
      s.runs c (4 + ccLen cc) ∧ ccHolds (s.core c) cc = true ∧ c ≠ (36 : CoreId) ∧ d.val = j.val ∧ s.fenced c.val = false ∧
      bits (s.rg (rDbind c.val j.val)) 8 2 ≠ 3 ∧
      (¬(bit (s.rg (rDbind c.val j.val)) 15 = true ∧ bits (s.rg (rDbind c.val j.val)) 0 6 < 48 ∧ (s.claimIn c.val k.world (2 * bits (s.rg (rDbind c.val j.val)) 0 6) = true ∨ s.claimIn c.val k.world (2 * bits (s.rg (rDbind c.val j.val)) 0 6 + 1) = true)))) ∧
    (∃ (s : State) (c : CoreId) (cc : CC) (d : Reg) (b : Reg) (r : Reg) (j : Fin 8) (e : Instr) (i : Fin 8),
      let k : CoreState := s.core c
      s.runs c (4 + ccLen cc) ∧ ccHolds (s.core c) cc = true ∧ c ≠ (36 : CoreId) ∧ d.val = j.val ∧ s.fenced c.val = false ∧
      bits (s.rg (rDbind c.val j.val)) 8 2 = 3 ∧ bit (s.rg (rDbind c.val j.val)) 15 = true ∧
      (∀ (i : Fin 8), k.duty[i] ≠ none → bits (s.rg (rDbind c.val i.val)) 8 2 ≠ 3 → bit (s.rg (rDbind c.val i.val)) 15 = true ∧ bits (s.rg (rDbind c.val i.val)) 0 6 < 48 ∧ (s.claimIn c.val k.world (2 * bits (s.rg (rDbind c.val i.val)) 0 6) = true ∨ s.claimIn c.val k.world (2 * bits (s.rg (rDbind c.val i.val)) 0 6 + 1) = true)) ∧
      e ∈ [Instr.duty c cc d r, Instr.dutyc c cc d b r]) ∧
    (∃ (s : State) (c : CoreId) (cc : CC) (d : Reg) (b : Reg) (r : Reg) (j : Fin 8) (i : Fin 8) (e : Instr),
      let k : CoreState := s.core c
      s.runs c (4 + ccLen cc) ∧ ccHolds (s.core c) cc = true ∧ c ≠ (36 : CoreId) ∧ d.val = j.val ∧ s.fenced c.val = false ∧
      bits (s.rg (rDbind c.val j.val)) 8 2 = 3 ∧ bit (s.rg (rDbind c.val j.val)) 15 = true ∧ k.duty[i] ≠ none ∧
      bits (s.rg (rDbind c.val i.val)) 8 2 ≠ 3 ∧
      (¬(bit (s.rg (rDbind c.val i.val)) 15 = true ∧ bits (s.rg (rDbind c.val i.val)) 0 6 < 48 ∧ (s.claimIn c.val k.world (2 * bits (s.rg (rDbind c.val i.val)) 0 6) = true ∨ s.claimIn c.val k.world (2 * bits (s.rg (rDbind c.val i.val)) 0 6 + 1) = true))) ∧
      (∀ (h : Fin 8), h < i → k.duty[h] ≠ none → bits (s.rg (rDbind c.val h.val)) 8 2 ≠ 3 → bit (s.rg (rDbind c.val h.val)) 15 = true ∧ bits (s.rg (rDbind c.val h.val)) 0 6 < 48 ∧ (s.claimIn c.val k.world (2 * bits (s.rg (rDbind c.val h.val)) 0 6) = true ∨ s.claimIn c.val k.world (2 * bits (s.rg (rDbind c.val h.val)) 0 6 + 1) = true)) ∧
      e ∈ [Instr.duty c cc d r, Instr.dutyc c cc d b r]) :=
  ⟨⟨witDutyWritesReachTheBoundTimer0, 5, (some .eq), 2, 2, runs_of (by decide +kernel), by decide +kernel⟩,
   ⟨witDutyWritesReachTheBoundTimer3, 5, (some .eq), 2, 2, runs_of (by decide +kernel), by decide +kernel⟩,
   ⟨witDutyWritesReachTheBoundTimer4, 5, (some .eq), 2, 2, runs_of (by decide +kernel), by decide +kernel⟩,
   ⟨witDutyWritesReachTheBoundTimer7, 5, (some .eq), 2, 3, 6, 2, (Instr.dutyc 5 (some .eq) 2 3 6), 5, runs_of (by decide +kernel),
    by decide +kernel⟩,
   ⟨witDutyWritesReachTheBoundTimer8, 5, (some .eq), 2, 3, 6, 2, 5, (Instr.duty 5 (some .eq) 2 6), runs_of (by decide +kernel),
    by decide +kernel⟩⟩

def witFaultEntrySavesAndVectors0 : State := {wCore 5 (fun k => {k with pc := 0x300, st := 0x202, acc := Vector.replicate 4 3}) with mem := [⟨0x04000000 + 5 * 0x40000 + 3*4, 0x44⟩]}
def witFaultEntrySavesAndVectors2 : State := {wCore 5 (fun k => {k with pc := 0x300, st := 0x2F02, acc := Vector.replicate 4 3}) with mem := [⟨0x04000000 + 5 * 0x40000 + 7*4, 0x44⟩]}

theorem witness_FaultEntrySavesAndVectors :
    (∃ (s : State) (c : CoreId) (f : FaultRec),
      let k : CoreState := s.core c
      let w : Bool := k.world
      let base : Word := k.spOf w true - (16 : Word)
      k.shadow = none ∧ k.run = RunState.running ∧ k.stepping = false ∧ k.haltReq = false ∧ s.role c.val = Role.solo ∧ 1 ≤ f.vec ∧
      f.vec ≤ 6 ∧ f.bcause < 16 ∧ s.ecc = [] ∧ s.poison = [] ∧ k.im < 15 ∧ base.toNat % 4 = 0 ∧
      BitVec.toNat (s.rg (rSplim c.val w true)) ≤ base.toNat ∧ base.toNat + 15 ≤ 196479 ∧
      (∀ (i : Nat), i < 4 → s.rgnAllows c.val w true Perm.write (base.toNat + 4 * i) = true) ∧ 0 ≠ rWc c.val w 16 ∧ 0 ≠ rWc c.val w 20 ∧
      0 ≠ rWc c.val w 24) ∧
    (∃ (s : State) (c : CoreId) (f : FaultRec),
      let k : CoreState := s.core c
      k.shadow = none ∧ k.run = RunState.running ∧ k.stepping = false ∧ k.haltReq = false ∧ s.role c.val = Role.solo ∧ 1 ≤ f.vec ∧
      f.vec ≤ 6 ∧ f.bcause < 16 ∧ s.ecc = [] ∧ s.poison = [] ∧ k.im = 15 ∧ c ≠ (36 : CoreId)) :=
  ⟨⟨witFaultEntrySavesAndVectors0, 5, (faultIllegal 0x300), by decide +kernel⟩,
   ⟨witFaultEntrySavesAndVectors2, 5, (faultBus .denied 0x300), by decide +kernel⟩⟩

theorem witness_InterruptEntryTakesTheHighest :
    (∃ (s : State) (c : CoreId) (i : Irq),
      let k : CoreState := s.core c
      let base : Word := k.spOf i.world true - (16 : Word)
      k.shadow = none ∧ (k.run = RunState.running ∨ ∃ n f, k.run = RunState.waiting n f) ∧ k.stepping = false ∧ k.haltReq = false ∧
      k.noInt = false ∧ s.domReady c.val = true ∧ s.role c.val = Role.solo ∧ s.ecc = [] ∧ s.poison = [] ∧ s.pmSel = [] ∧
      s.entryOf c = none ∧ bestIrq (s.irqs c) k.im = some i ∧ 16 ≤ i.vec ∧ base.toNat % 4 = 0 ∧
      BitVec.toNat (s.rg (rSplim c.val i.world true)) ≤ base.toNat ∧ base.toNat + 15 ≤ 196479 ∧
      (∀ (j : Nat), j < 4 → s.rgnAllows c.val i.world true Perm.write (base.toNat + 4 * j) = true)) ∧
    (∃ (s : State) (c : CoreId),
      let k : CoreState := s.core c
      k.shadow = none ∧ (k.run = RunState.running ∨ ∃ n f, k.run = RunState.waiting n f) ∧ k.stepping = false ∧ k.haltReq = false ∧
      k.noInt = false ∧ s.domReady c.val = true ∧ s.role c.val = Role.solo ∧ s.ecc = [] ∧ s.poison = [] ∧ s.pmSel = [] ∧
      s.entryOf c = none ∧ bestIrq (s.irqs c) k.im = none) :=
  ⟨⟨irqX, 5, ⟨19, 8, false⟩, by decide +kernel⟩,
   ⟨irqN, 5, by decide +kernel⟩⟩

def witRetxRestoresTheFrame0 : State := retX.setCore 5 {retX.core 5 with sp := (retX.core 5).sp.set 1 0x211}

theorem witness_RetxRestoresTheFrame :
    (∃ (s : State) (c : CoreId),
      let k : CoreState := s.core c
      let sp : Word := k.curSp
      let st : Word := s.memWord (locAddr c.val (sp.toNat + 8) / 4 * 4) &&& (16255 : Word)
      s.runs c 1 ∧ (∀ (l : List (Word × Bool)), s.wpHits c l = 0) ∧ s.collided = none ∧ k.lvl = true ∧ sp.toNat % 4 = 0 ∧
      (∀ (o : Nat), o ∈ [4, 8, 12] → sp.toNat + o < localSize ∧ s.rgnAllows c.val k.world true Perm.read (sp.toNat + o) = true) ∧
      bit st 13 = k.world ∧ bestIrq (List.filter (fun i ↦ i.world == k.world) (s.irqs c)) (bits st 8 4) = none) ∧
    (∃ (s : State) (c : CoreId),
      let k : CoreState := s.core c
      s.runs c 1 ∧ (∀ (l : List (Word × Bool)), s.wpHits c l = 0) ∧ s.collided = none ∧ k.lvl = false) ∧
    (∃ (s : State) (c : CoreId),
      let k : CoreState := s.core c
      let sp : Word := k.curSp
      s.runs c 1 ∧ (∀ (l : List (Word × Bool)), s.wpHits c l = 0) ∧ s.collided = none ∧ k.lvl = true ∧ sp.toNat % 4 ≠ 0) :=
  ⟨⟨retX, 5, runs_of (by decide +kernel), wpHits_off (by decide +kernel), by decide +kernel⟩,
   ⟨wUser, 5, runs_of (by decide +kernel), wpHits_off (by decide +kernel), by decide +kernel⟩,
   ⟨witRetxRestoresTheFrame0, 5, runs_of (by decide +kernel), wpHits_off (by decide +kernel), by decide +kernel⟩⟩

def witPrivateSpaceWritesFollowWorldAndLevel0 : State := State.reset

theorem witness_PrivateSpaceWritesFollowWorldAndLevel :
    (∃ (s : State) (c : CoreId) (x : Ctx) (m : Fin 32),
      s.enters (masterOf c) true x [3758100608 + 4 * m.val, 3758100736 + 4 * m.val, 3758120960 + 1024 * b2n true, 3758116864] ∧
      s.enters (masterOf c) true x [3758100608 + 4 * m.val, 3758100736 + 4 * m.val, 3758120960 + 1024 * b2n false, 3758116864] ∧
      x.level = true ∧ true ≠ x.world ∧ false = x.world) ∧
    (∃ (s : State) (c : CoreId) (x : Ctx) (m : Fin 32),
      s.enters (masterOf c) true x [3758100608 + 4 * m.val, 3758100736 + 4 * m.val, 3758120960 + 1024 * b2n true, 3758116864] ∧
      x.level = false) :=
  ⟨⟨sHr, 5, (ctx sHr (.core 5)), 3, by unfold State.enters; decide +kernel, by unfold State.enters; decide +kernel, by decide +kernel⟩,
   ⟨wGrantP, 5, (ctx wGrantP (.core 5)), 3, by unfold State.enters; decide +kernel, by decide +kernel⟩⟩

def witTimebaseWritesComeFromScAndDebug0 : State := (State.reset.setFlag rFrameCtl 24 true).setFld rSwapStat 0 3 2
def witTimebaseWritesComeFromScAndDebug1 : State := wCore 5 id

theorem witness_TimebaseWritesComeFromScAndDebug :
    (∃ (s : State) (m : Master) (x : Ctx) (n : Fin 36) (k : Fin 16) (j : Fin 8) (v : Word),
      let pending : Prop := swapState s = 1 ∨ swapState s = 2
      let ref : Nat := if bits v 0 2 < 2 then bits v 0 2 else 0
      let same : Prop := ref = s.fld rTbCtl 0 2 ∧ bits v 2 2 = s.fld rTbCtl 2 2
      s.enters m true x [rSbind n.val k.val, rDbind n.val j.val, rFrameCtl, rTbCtl, rSwapCtl] ∧ x.free = true ∧ s.rebind = [] ∧
      (bit v 24 = true ∨ ¬pending) ∧ (¬same)) ∧
    (∃ (s : State) (m : Master) (x : Ctx) (n : Fin 36) (k : Fin 16) (j : Fin 8) (v : Word),
      let pending : Prop := swapState s = 1 ∨ swapState s = 2
      let ref : Nat := if bits v 0 2 < 2 then bits v 0 2 else 0
      let same : Prop := ref = s.fld rTbCtl 0 2 ∧ bits v 2 2 = s.fld rTbCtl 2 2
      s.enters m true x [rSbind n.val k.val, rDbind n.val j.val, rFrameCtl, rTbCtl, rSwapCtl] ∧ x.free = true ∧ bit v 24 = false ∧
      pending ∧ same) ∧
    (∃ (s : State) (m : Master) (x : Ctx) (n : Fin 36) (k : Fin 16) (j : Fin 8),
      s.enters m true x [rSbind n.val k.val, rDbind n.val j.val, rFrameCtl, rTbCtl, rSwapCtl] ∧ x.free = false) :=
  ⟨⟨witPrivateSpaceWritesFollowWorldAndLevel0, Master.sc, scCtx, 7, 3, 7, 0xFFFFFFFF, by unfold State.enters; decide +kernel,
    by decide +kernel⟩,
   ⟨witTimebaseWritesComeFromScAndDebug0, Master.sc, scCtx, 7, 3, 7, 0x0, by unfold State.enters; decide +kernel, by decide +kernel⟩,
   ⟨witTimebaseWritesComeFromScAndDebug1, (Master.core 5), (ctx (wCore 5 id) (.core 5)), 7, 3, 7,
    by unfold State.enters; decide +kernel, by decide +kernel⟩⟩

def witSwapsAreArmedCheckedAndExchanged0 : State := (sw 0).setRg rSwapTarget 0x7FFFFFFF
def witSwapsAreArmedCheckedAndExchanged1 : State := (sw 0).setRg rSwapTarget 0x80000000
def witSwapsAreArmedCheckedAndExchanged2 : State := (sw 1)
def witSwapsAreArmedCheckedAndExchanged3 : State := shd (shd ({sw 2 with due := [(5, .swapCheckComplete)]}) 5 0 0x100) 12 12 1
def witSwapsAreArmedCheckedAndExchanged5 : State := shd (shd (sw 1) 12 0 1) 12 24 1

theorem witness_SwapsAreArmedCheckedAndExchanged :
    (∃ (s : State) (m : Master) (x : Ctx),
      let busy : Prop := swapState s = 1 ∨ swapState s = 2
      let ahead : Nat := BitVec.toNat (s.rg rSwapTarget - s.rg rFrameNum)
      s.enters m true x [rSwapCtl] ∧ x.free = true ∧ (¬busy) ∧ s.flag rFrameCtl 24 = true ∧ 0 < ahead ∧ ahead < 2 ^ 31 ∧
      swapState s ≠ 1 ∧ swapState s ≠ 2) ∧
    (∃ (s : State) (m : Master) (x : Ctx),
      let busy : Prop := swapState s = 1 ∨ swapState s = 2
      s.enters m true x [rSwapCtl] ∧ x.free = true ∧ busy ∧ swapState s = 1 ∧ s.swapCheck = none) ∧
    (∃ (s : State) (m : Master) (x : Ctx),
      let busy : Prop := swapState s = 1 ∨ swapState s = 2
      let ahead : Nat := BitVec.toNat (s.rg rSwapTarget - s.rg rFrameNum)
      s.enters m true x [rSwapCtl] ∧ x.free = true ∧ (¬busy) ∧ (s.flag rFrameCtl 24 = false ∨ ahead = 0 ∨ 2 ^ 31 ≤ ahead)) ∧
    (∃ (s : State) (m : Master) (x : Ctx),
      s.enters m true x [rSwapCtl] ∧ x.free = true ∧ swapState s = 2) ∧
    (∃ (s : State) (m : Master) (x : Ctx) (code : Nat) (sec : Nat) (item : Nat),
      s.enters m true x [rSwapCtl] ∧ x.free = true ∧ code < 16 ∧ sec < 16 ∧ item < 4096 ∧ swapState s = 1 ∧
      s.swapCheck = some (code, sec, item)) :=
  ⟨⟨witSwapsAreArmedCheckedAndExchanged0, Master.sc, scCtx, by unfold State.enters; decide +kernel, by decide +kernel⟩,
   ⟨witSwapsAreArmedCheckedAndExchanged2, Master.sc, scCtx, by unfold State.enters; decide +kernel, by decide +kernel⟩,
   ⟨witSwapsAreArmedCheckedAndExchanged1, Master.sc, scCtx, by unfold State.enters; decide +kernel, by decide +kernel⟩,
   ⟨witSwapsAreArmedCheckedAndExchanged3, Master.sc, scCtx, by unfold State.enters; decide +kernel, by decide +kernel⟩,
   ⟨witSwapsAreArmedCheckedAndExchanged5, Master.sc, scCtx, (((shd (shd (sw 1) 12 0 1) 12 24 1).swapCheck.getD (0,0,0)).1),
    (((shd (shd (sw 1) 12 0 1) 12 24 1).swapCheck.getD (0,0,0)).2.1), (((shd (shd (sw 1) 12 0 1) 12 24 1).swapCheck.getD (0,0,0)).2.2),
    by unfold State.enters; decide +kernel, by decide +kernel⟩⟩

theorem witness_TicksJudgeTheDoneFlags :
    (∃ (s : State) (n : Nat),
      s.frameRuns = true ∧ n < 36 ∧ s.judged n = true ∧ s.bitOf (rFdone 0) n = false ∧ s.ovrPolicy n = 2) ∧
    (∃ (s : State),
      s.frameRuns = false) :=
  ⟨⟨tk4, 1, by decide +kernel⟩,
   ⟨witPrivateSpaceWritesFollowWorldAndLevel0, by decide +kernel⟩⟩

def witReferenceAndMarkersSteerTheFrame0 : State := (State.reset.setRg rTbCtl 1)
def witReferenceAndMarkersSteerTheFrame3 : State := (fo.setRg (rTloss 0) 0x2).setRg rShEn 0x2F
def witReferenceAndMarkersSteerTheFrame4 : State := {fo.setFlag rFrameCtl 24 true with markNum := some 0xF}

theorem witness_ReferenceAndMarkersSteerTheFrame :
    (∃ (s : State) (n : Fin 4) (i : Nat),
      2 ≤ s.mode ∧ s.boot.wait = none ∧ s.fld rTickCtl 0 2 = 2 ∧ i < 36 ∧ s.shEnabled 5 = true ∧ s.fld rTickCtl 2 2 = n.val ∧
      s.lkUp n = true ∧ s.frameRuns = false) ∧
    (∃ (s : State),
      s.fld rTickCtl 0 2 ≠ 2) ∧
    (∃ (s : State) (n : Fin 4),
      s.fld rTickCtl 0 2 = 2 ∧ (s.fld rTickCtl 2 2 ≠ n.val ∨ s.lkUp n = false)) ∧
    (∃ (s : State) (n : Fin 4),
      s.fld rTickCtl 0 2 = 2 ∧ s.fld rTickCtl 2 2 = n.val ∧ s.lkUp n = true ∧ s.frameRuns = true) :=
  ⟨⟨witReferenceAndMarkersSteerTheFrame3, 2, 1, by decide +kernel⟩,
   ⟨witReferenceAndMarkersSteerTheFrame0, by decide +kernel⟩,
   ⟨fo, 3, by decide +kernel⟩,
   ⟨witReferenceAndMarkersSteerTheFrame4, 2, by decide +kernel⟩⟩

def witConversionsFollowTheirTriggers0 : State := {adcHold with now := 50}
def witConversionsFollowTheirTriggers1 : State := {adcHold1 with now := 99}
def witConversionsFollowTheirTriggers2 : State := (let s := adcRes; {s.setAdc 3 {s.adc 3 with earlyVal := 0x2100} with now := 102} : State)
def witConversionsFollowTheirTriggers3 : State := (let s := adcRes; {s.setAdc 3 {s.adc 3 with earlyVal := 0x2100} with now := 119} : State)
def witConversionsFollowTheirTriggers6 : State := (let s := adcResFull; {s.setAdc 3 {s.adc 3 with earlyVal := 0x2100} with now := 119} : State)
def witConversionsFollowTheirTriggers9 : State := (let s := (adcResFull.setRg (rAdcQCtl 3) 0); {s.setAdc 3 {s.adc 3 with earlyVal := 0x2100} with now := 119} : State)
def witConversionsFollowTheirTriggers12 : State := (let s := adcResMid; {s.setAdc 3 {s.adc 3 with earlyVal := 0x2100} with now := 119} : State)
def witConversionsFollowTheirTriggers14 : State := (let s := (let s := adcRes; s.setAdc 3 {s.adc 3 with gap := some 0xFFFFFF05}); {s.setAdc 3 {s.adc 3 with earlyVal := 14000} with now := 119} : State)

theorem witness_ConversionsFollowTheirTriggers :
    (∃ (s : State) (n : Fin 16) (V : Volts) (h : Nat) (d : Fin 36) (k : Fin 16) (y : Word) (ys : List Word),
      let a : AdcState := s.adc n
      let tag : Nat := bits a.word 26 5
      let code : Int := adcCode V / (4 : Int)
      let on : Prop := s.flag (rAdcQCtl n.val) 0 = true ∧ s.flag (rAdcQCtl n.val) (4 + bits a.word 24 2) = true
      0 < V.vref.toNat ∧ code ≠ (-8192 : Int) ∧ code ≠ (8191 : Int) ∧ s.adcOn n.val = true ∧ s.adcEn n.val = true ∧
      s.flag (rAdcStat n.val) 2 = false ∧ s.adcBusy n = true ∧ (a.nextHold = none ∨ a.inFlight ≠ none) ∧
      (∀ (h : Nat), a.inFlight = some h → s.now ≠ h + 22) ∧ a.inFlight = some h ∧ (∀ (d : Nat), d < 36 → s.holder d = d) ∧
      s.domReady (37 + n.val) = true ∧ s.now = h + 39 ∧ a.last = true ∧ s.domReady d.val = true ∧ k ∈ s.bound d.val n.val tag ∧ on ∧
      a.gap = none ∧ 64 ≤ a.queue.length ∧ a.queue = y :: ys ∧ ys.length = 63) ∧
    (∃ (s : State) (n : Fin 16) (h : Nat),
      let a : AdcState := s.adc n
      a.nextHold = some h ∧ h ≤ s.now ∧ a.inFlight = none ∧ a.late = true ∧ (∀ (h : Nat), a.inFlight = some h → s.now ≠ h + 39)) ∧
    (∃ (s : State) (n : Fin 16) (h : Nat) (d : Fin 36) (k : Fin 16),
      let a : AdcState := s.adc n
      let tag : Nat := bits a.word 26 5
      a.inFlight = some h ∧ (∀ (d : Nat), d < 36 → s.holder d = d) ∧ s.domReady (37 + n.val) = true ∧ s.now = h + 22 ∧ a.last = true ∧
      a.earlyDone = false ∧ s.domReady d.val = true ∧ k ∈ s.bound d.val n.val tag) ∧
    (∃ (s : State) (n : Fin 16),
      let a : AdcState := s.adc n
      s.adcOn n.val = true ∧ s.adcEn n.val = true ∧ s.flag (rAdcStat n.val) 2 = false ∧ s.adcBusy n = false ∧ a.busy = true) ∧
    (∃ (s : State) (n : Fin 16),
      let a : AdcState := s.adc n
      s.adcOn n.val = true ∧ s.adcEn n.val = true ∧ s.flag (rAdcStat n.val) 2 = false ∧ s.adcBusy n = false ∧ a.busy = false) ∧
    (∃ (s : State) (n : Fin 16) (h : Nat),
      let a : AdcState := s.adc n
      a.nextHold = some h ∧ s.now < h) ∧
    (∃ (s : State) (n : Fin 16) (h : Nat) (d : Fin 36),
      let a : AdcState := s.adc n
      let on : Prop := s.flag (rAdcQCtl n.val) 0 = true ∧ s.flag (rAdcQCtl n.val) (4 + bits a.word 24 2) = true
      a.inFlight = some h ∧ (∀ (d : Nat), d < 36 → s.holder d = d) ∧ s.domReady (37 + n.val) = true ∧ s.now = h + 39 ∧ a.last = true ∧
      on ∧ a.gap = none ∧ a.queue.length < 64) ∧
    (∃ (s : State) (n : Fin 16) (h : Nat) (d : Fin 36),
      let a : AdcState := s.adc n
      let on : Prop := s.flag (rAdcQCtl n.val) 0 = true ∧ s.flag (rAdcQCtl n.val) (4 + bits a.word 24 2) = true
      a.inFlight = some h ∧ (∀ (d : Nat), d < 36 → s.holder d = d) ∧ s.domReady (37 + n.val) = true ∧ s.now = h + 39 ∧ a.last = true ∧
      (¬on)) ∧
    (∃ (s : State) (n : Fin 16) (h : Nat),
      let a : AdcState := s.adc n
      a.inFlight = some h ∧ (∀ (d : Nat), d < 36 → s.holder d = d) ∧ s.domReady (37 + n.val) = true ∧ s.now = h + 39 ∧ a.last = false) ∧
    (∃ (s : State) (n : Fin 16) (h : Nat) (d : Fin 36),
      let a : AdcState := s.adc n
      let on : Prop := s.flag (rAdcQCtl n.val) 0 = true ∧ s.flag (rAdcQCtl n.val) (4 + bits a.word 24 2) = true
      a.inFlight = some h ∧ (∀ (d : Nat), d < 36 → s.holder d = d) ∧ s.domReady (37 + n.val) = true ∧ s.now = h + 39 ∧ a.last = true ∧
      on ∧ a.gap ≠ none) ∧
    (∃ (s : State) (n : Fin 16),
      (s.adcEn n.val = false ∨ s.adcOn n.val = false ∨ s.flag (rAdcStat n.val) 2 = true)) :=
  ⟨⟨witConversionsFollowTheirTriggers6, 3, ⟨1500001, 2500000⟩, 80, 8, 1, 5, (List.replicate 63 (5 : Word)), by decide +kernel⟩,
   ⟨adcHold, 3, 100, by decide +kernel⟩,
   ⟨witConversionsFollowTheirTriggers2, 3, 80, 7, 4, by decide +kernel⟩,
   ⟨witConversionsFollowTheirTriggers0, 3, by decide +kernel⟩,
   ⟨adcA, 3, by decide +kernel⟩,
   ⟨witConversionsFollowTheirTriggers1, 3, 100, by decide +kernel⟩,
   ⟨witConversionsFollowTheirTriggers3, 3, 80, 7, by decide +kernel⟩,
   ⟨witConversionsFollowTheirTriggers9, 3, 80, 8, by decide +kernel⟩,
   ⟨witConversionsFollowTheirTriggers12, 3, 80, by decide +kernel⟩,
   ⟨witConversionsFollowTheirTriggers14, 3, 80, 7, by decide +kernel⟩,
   ⟨R, 3, by decide +kernel⟩⟩

def witQueueAndControlOfAConverter0 : State := qu [5,6]
def witQueueAndControlOfAConverter1 : State := (qu []).setFlag (rAdcStat 3) 2 true
def witQueueAndControlOfAConverter3 : State := domOff c5 40

theorem witness_QueueAndControlOfAConverter :
    (∃ (s : State) (m : Master) (x : Ctx) (n : Fin 16) (v : Word) (w : Word),
      let a : AdcState := s.adc n
      s.enters m false x [rAdc n.val 96] ∧ s.enters m true x [rAdc n.val 104, rAdc n.val 64] ∧ s.domReady (37 + n.val) = true ∧
      a.gap = some w ∧ a.queue.length < 64 ∧ s.unitMay x (68 + n.val) = true ∧ s.flag (rAdcStat n.val) 2 = false ∧
      s.adcEn n.val = true ∧ bit v 0 = false ∧ a.busy = true ∧ 0 < a.convs) ∧
    (∃ (s : State) (m : Master) (x : Ctx) (n : Fin 16),
      let a : AdcState := s.adc n
      s.enters m false x [rAdc n.val 96] ∧ s.enters m true x [rAdc n.val 104, rAdc n.val 64] ∧ s.domReady (37 + n.val) = true ∧
      a.queue = [] ∧ (a.gap = none ∨ 64 ≤ a.queue.length) ∧ s.unitMay x (68 + n.val) = false) ∧
    (∃ (s : State) (m : Master) (x : Ctx) (n : Fin 16),
      s.enters m false x [rAdc n.val 96] ∧ s.enters m true x [rAdc n.val 104, rAdc n.val 64] ∧ s.domReady (37 + n.val) = false) ∧
    (∃ (s : State) (m : Master) (x : Ctx) (n : Fin 16) (w : Word) (ws : List Word),
      let a : AdcState := s.adc n
      s.enters m false x [rAdc n.val 96] ∧ s.domReady (37 + n.val) = true ∧ a.queue = w :: ws) ∧
    (∃ (s : State) (m : Master) (x : Ctx) (n : Fin 16),
      s.enters m true x [rAdc n.val 104, rAdc n.val 64] ∧ s.domReady (37 + n.val) = true ∧ s.unitMay x (68 + n.val) = true ∧
      s.flag (rAdcStat n.val) 2 = true) :=
  ⟨⟨witQueueAndControlOfAConverter0, Master.sc, scCtx, 3, 0xFE02, 0xFFFFFF05, by unfold State.enters; decide +kernel,
    by unfold State.enters; decide +kernel, by decide +kernel⟩,
   ⟨c5, (Master.core 5), (ctx c5 (.core 5)), 3, by unfold State.enters; decide +kernel, by unfold State.enters; decide +kernel,
    by decide +kernel⟩,
   ⟨witQueueAndControlOfAConverter3, (Master.core 5), (ctx c5 (.core 5)), 3, by unfold State.enters; decide +kernel,
    by unfold State.enters; decide +kernel, by decide +kernel⟩,
   ⟨witQueueAndControlOfAConverter0, Master.sc, scCtx, 3, 5, [(6 : Word)], by unfold State.enters; decide +kernel, by decide +kernel⟩,
   ⟨witQueueAndControlOfAConverter1, Master.sc, scCtx, 3, by unfold State.enters; decide +kernel, by decide +kernel⟩⟩

def witCalibrationsQueueServeAndEnd0 : State := {adcA with now := 10^13}
def witCalibrationsQueueServeAndEnd1 : State := (let s := rlf 0 1 (fun r => {r with target := some 3, count := 64}); s.setAdc 3 {s.adc 3 with inFlight := some 80})
def witCalibrationsQueueServeAndEnd2 : State := rlf 0 3 (fun r => {r with selfAsked := true})
def witCalibrationsQueueServeAndEnd3 : State := rlf 0 3 (fun r => {r with calEnd := 500})
def witCalibrationsQueueServeAndEnd4 : State := rlf 0 0 (fun r => {r with queue := [3,4]})
def witCalibrationsQueueServeAndEnd5 : State := rlf 0 0 (fun r => {r with queue := [4,3], selfEnd := 100})
def witCalibrationsQueueServeAndEnd6 : State := rlf 0 0 (fun r => {r with queue := [4,3], selfReq := true})
def witCalibrationsQueueServeAndEnd7 : State := rlf 0 1 (fun r => {r with target := some 3, count := 64, sumDiff := -4000, maxDiff := 130, requested := [3]})
def witCalibrationsQueueServeAndEnd8 : State := rlf 0 1 (fun r => {r with target := some 3, count := 64, sumDiff := -400, maxDiff := 120})
def witCalibrationsQueueServeAndEnd9 : State := rlf 0 2 (fun r => {r with target := some 3, count := 64, requested := [3]})
def witCalibrationsQueueServeAndEnd11 : State := rlf 0 2 (fun r => {r with target := some 3}) ((adcA.setFlag (rAdcStat 3) 2 true).setAdc 3 {adcA.adc 3 with enPend := true})

theorem witness_CalibrationsQueueServeAndEnd :
    (∃ (s : State) (m : Master) (x : Ctx) (n : Fin 16) (g : Fin 2),
      let q : ReliefState := s.relief (reliefOf n)
      let r : ReliefState := s.relief g
      let free : Prop := q.queue.contains n = false ∧ q.target ≠ some n
      s.enters m true x [rCalReq] ∧ x.free = true ∧ s.adcOn n.val = true ∧
      (s.adcEn n.val = true → s.domReady (reliefDom (reliefOf n)) = true) ∧ free ∧ s.adcEn n.val = true ∧ s.fld rCalCtl 0 10 ≠ 0 ∧
      s.domReady (reliefDom (reliefOf n)) = true ∧ s.now < (s.adc n).calEnd + s.fld rCalCtl 0 10 * msCycles ∧
      s.fld (rRlStat g.val) 4 3 = 3 ∧ r.calEnd ≤ s.now ∧ r.selfAsked = true) ∧
    (∃ (s : State) (m : Master) (x : Ctx) (n : Fin 16) (g : Fin 2) (k : Fin 16) (rest : List (Fin 16)),
      let q : ReliefState := s.relief (reliefOf n)
      let r : ReliefState := s.relief g
      let free : Prop := q.queue.contains n = false ∧ q.target ≠ some n
      let self : Prop := r.selfReq = true ∨ s.fld rCalCtl 0 10 ≠ 0 ∧ r.queue ≠ [] ∧ r.selfEnd + s.fld rCalCtl 0 10 * msCycles ≤ s.now
      s.enters m true x [rCalReq] ∧ x.free = true ∧ s.adcOn n.val = true ∧
      (s.adcEn n.val = true → s.domReady (reliefDom (reliefOf n)) = true) ∧ (¬free) ∧ r.target = none ∧ s.fld (rRlStat g.val) 4 3 = 0 ∧
      s.domReady (reliefDom g) = true ∧ r.queue = k :: rest ∧ (¬self) ∧ s.adcEn k.val = true) ∧
    (∃ (s : State) (m : Master) (x : Ctx) (n : Fin 16) (g : Fin 2),
      let q : ReliefState := s.relief (reliefOf n)
      let r : ReliefState := s.relief g
      let free : Prop := q.queue.contains n = false ∧ q.target ≠ some n
      let limit : Nat := s.fld rCalCtl 16 4
      let pass : Prop := r.sumDiff.natAbs ≤ 64 * (limit * 4) ∧ r.maxDiff ≤ 16 * limit
      s.enters m true x [rCalReq] ∧ x.free = false ∧ r.target = some n ∧ s.fld (rRlStat g.val) 4 3 = 1 ∧ 64 ≤ r.count ∧
      s.slotUnderWay n = false ∧ (¬pass) ∧ r.requested.contains n = true) ∧
    (∃ (s : State) (n : Fin 16) (g : Fin 2),
      let q : ReliefState := s.relief (reliefOf n)
      let r : ReliefState := s.relief g
      let free : Prop := q.queue.contains n = false ∧ q.target ≠ some n
      s.adcEn n.val = true ∧ s.adcOn n.val = true ∧ s.fld rCalCtl 0 10 ≠ 0 ∧ s.domReady (reliefDom (reliefOf n)) = true ∧ free ∧
      (s.adc n).calEnd + s.fld rCalCtl 0 10 * msCycles ≤ s.now ∧ r.target = none ∧ s.fld (rRlStat g.val) 4 3 = 0 ∧
      s.domReady (reliefDom g) = true) ∧
    (∃ (s : State) (n : Fin 16) (g : Fin 2),
      let q : ReliefState := s.relief (reliefOf n)
      let r : ReliefState := s.relief g
      s.now < r.calEnd ∧ s.now < q.calEnd) ∧
    (∃ (s : State) (n : Fin 16) (g : Fin 2),
      let r : ReliefState := s.relief g
      r.target = some n ∧ s.fld (rRlStat g.val) 4 3 = 2 ∧ r.calDone = false ∧ r.calEnd ≤ s.now ∧ r.requested.contains n = true) ∧
    (∃ (s : State) (n : Fin 16) (g : Fin 2),
      let r : ReliefState := s.relief g
      r.target = some n ∧ s.fld (rRlStat g.val) 4 3 = 1 ∧ 64 ≤ r.count ∧ s.slotUnderWay n = true) ∧
    (∃ (s : State) (g : Fin 2) (k : Fin 16) (rest : List (Fin 16)),
      let r : ReliefState := s.relief g
      let self : Prop := r.selfReq = true ∨ s.fld rCalCtl 0 10 ≠ 0 ∧ r.queue ≠ [] ∧ r.selfEnd + s.fld rCalCtl 0 10 * msCycles ≤ s.now
      r.target = none ∧ s.fld (rRlStat g.val) 4 3 = 0 ∧ s.domReady (reliefDom g) = true ∧ r.queue = k :: rest ∧ (¬self) ∧
      s.adcEn k.val = false) ∧
    (∃ (s : State) (g : Fin 2),
      let r : ReliefState := s.relief g
      let self : Prop := r.selfReq = true ∨ s.fld rCalCtl 0 10 ≠ 0 ∧ r.queue ≠ [] ∧ r.selfEnd + s.fld rCalCtl 0 10 * msCycles ≤ s.now
      r.target = none ∧ s.fld (rRlStat g.val) 4 3 = 0 ∧ s.domReady (reliefDom g) = true ∧ self) ∧
    (∃ (s : State) (n : Fin 16) (g : Fin 2),
      let r : ReliefState := s.relief g
      let limit : Nat := s.fld rCalCtl 16 4
      let pass : Prop := r.sumDiff.natAbs ≤ 64 * (limit * 4) ∧ r.maxDiff ≤ 16 * limit
      r.target = some n ∧ s.fld (rRlStat g.val) 4 3 = 1 ∧ 64 ≤ r.count ∧ s.slotUnderWay n = false ∧ pass) ∧
    (∃ (s : State) (n : Fin 16),
      let q : ReliefState := s.relief (reliefOf n)
      s.flag (rAdcStat n.val) 2 = true ∧ q.calEnd ≤ s.now) :=
  ⟨⟨witCalibrationsQueueServeAndEnd2, Master.sc, scCtx, 3, 0, by unfold State.enters; decide +kernel, by decide +kernel⟩,
   ⟨witCalibrationsQueueServeAndEnd4, Master.sc, scCtx, 3, 0, 3, [(4 : Fin 16)], by unfold State.enters; decide +kernel,
    by decide +kernel⟩,
   ⟨witCalibrationsQueueServeAndEnd7, (Master.core 5), (ctx c5 (.core 5)), 3, 0, by unfold State.enters; decide +kernel,
    by decide +kernel⟩,
   ⟨witCalibrationsQueueServeAndEnd0, 3, 0, by decide +kernel⟩,
   ⟨witCalibrationsQueueServeAndEnd3, 3, 0, by decide +kernel⟩,
   ⟨witCalibrationsQueueServeAndEnd9, 3, 0, by decide +kernel⟩,
   ⟨witCalibrationsQueueServeAndEnd1, 3, 0, by decide +kernel⟩,
   ⟨witCalibrationsQueueServeAndEnd5, 0, 4, [(3 : Fin 16)], by decide +kernel⟩,
   ⟨witCalibrationsQueueServeAndEnd6, 0, by decide +kernel⟩,
   ⟨witCalibrationsQueueServeAndEnd8, 3, 0, by decide +kernel⟩,
   ⟨witCalibrationsQueueServeAndEnd11, 3, by decide +kernel⟩⟩

def witDecimatorsDeliverAndReport0 : State := {sdS (fun p => {p with out := [(3, 0x1234)], count := 5}) with now := 3}
def witDecimatorsDeliverAndReport1 : State := {sdS (fun p => {p with out := [(3, 0x1234)], count := 5}) with now := 2}
def witDecimatorsDeliverAndReport2 : State := {sdS (fun p => {p with count := 31, run := 4000}) with now := 5000}

theorem witness_DecimatorsDeliverAndReport :
    (∃ (s : State) (g : Fin 8) (o : Nat × Word) (rest : List (Nat × Word)) (d : Fin 36) (k : Fin 16),
      let p : SdState := s.sd g
      let tag : Nat := bits (s.sdCtl g.val) 16 5
      let phase : Nat := min (min 255 (bits (s.sdSyncReg g.val) 0 9)) (s.sdDec g.val - 1)
      p.out = o :: rest ∧ o.fst ≤ s.now ∧ s.domReady (68 + g.val) = true ∧ (∀ (d : Nat), d < 36 → s.holder d = d) ∧
      s.domReady d.val = true ∧ k ∈ s.bound d.val (16 + g.val) tag ∧ s.sdOn g.val = true ∧ bit (s.sdSyncReg g.val) 16 = true ∧
      p.count ≠ phase ∧ (s.sdOn g.val = false ∨ s.now < p.lastBit + 1024) ∧ (s.sdOn g.val = false ∨ p.run < 4 * s.sdDec g.val)) ∧
    (∃ (s : State) (g : Fin 8),
      let p : SdState := s.sd g
      let phase : Nat := min (min 255 (bits (s.sdSyncReg g.val) 0 9)) (s.sdDec g.val - 1)
      p.out = [] ∧ s.sdOn g.val = true ∧ bit (s.sdSyncReg g.val) 16 = true ∧ p.count = phase ∧ p.lastBit + 1024 ≤ s.now ∧
      4 * s.sdDec g.val ≤ p.run) ∧
    (∃ (s : State) (g : Fin 8),
      bit (s.sdSyncReg g.val) 16 = false ∧ s.sdOn g.val = false) ∧
    (∃ (s : State) (g : Fin 8) (o : Nat × Word) (rest : List (Nat × Word)),
      let p : SdState := s.sd g
      p.out = o :: rest ∧ s.now < o.fst) :=
  ⟨⟨witDecimatorsDeliverAndReport0, 2, ((3 : Nat), (0x1234 : Word)), [], 7, 4, by decide +kernel⟩,
   ⟨witDecimatorsDeliverAndReport2, 2, by decide +kernel⟩,
   ⟨R, 2, by decide +kernel⟩,
   ⟨witDecimatorsDeliverAndReport1, 2, ((3 : Nat), (0x1234 : Word)), [], by decide +kernel⟩⟩

def witLatchesSetAndClear0 : State := (cm 0x00110000 id).setFld rSysMode 0 3 0
def witLatchesSetAndClear1 : State := cm 0x00110000 id
def witLatchesSetAndClear2 : State := cm 0x00010000 (fun p => {p with raw := .above})
def witLatchesSetAndClear4 : State := cm 0x0110000 (fun p => {p with raw := .above, holdOff := 3})
def witLatchesSetAndClear5 : State := domOff c5 80

theorem witness_LatchesSetAndClear :
    (∃ (s : State) (m : Master) (x : Ctx) (n : Fin 32) (out : CmpState),
      let clear : Prop := s.flag (rCmpStat n.val) 2 = false
      s.enters m true x [rCmpStat n.val, rLatchSum] ∧ (s.cmpArmed n = false ∨ ¬clear ∨ out = CmpState.inside) ∧ s.cmpOn n.val = true ∧
      s.testing 4 n.val = false ∧ (s.cmp n).guard = 0 ∧ (s.cmp n).holdOff = 0 ∧ clear ∧ (s.cmp n).raw ≠ CmpState.inside ∧
      s.domReady (80 + n.val / 16) = true ∧ s.unitMay x (84 + n.val) = true ∧ sget (0 : Word) s.hwSet (rCmpStat n.val) = (0 : Word)) ∧
    (∃ (s : State) (m : Master) (x : Ctx) (n : Fin 32),
      let clear : Prop := s.flag (rCmpStat n.val) 2 = false
      s.enters m true x [rCmpStat n.val, rLatchSum] ∧ s.cmpOn n.val = true ∧ s.testing 4 n.val = false ∧ (s.cmp n).guard = 0 ∧ clear ∧
      (s.cmp n).raw ≠ CmpState.inside ∧ s.cmpArm n.val ≤ s.cmpElapsed n.val ∧ s.domReady (80 + n.val / 16) = true ∧
      s.unitMay x (84 + n.val) = false ∧ (∀ (i : Fin 32), s.unitMay x (84 + i.val) = false)) ∧
    (∃ (s : State) (n : Fin 32),
      s.mode = 0 ∧ s.cmpOn n.val = false) ∧
    (∃ (s : State) (n : Fin 32) (out : CmpState),
      let clear : Prop := s.flag (rCmpStat n.val) 2 = false
      s.cmpArmed n = true ∧ clear ∧ out ≠ CmpState.inside) ∧
    (∃ (s : State) (m : Master) (x : Ctx) (n : Fin 32),
      s.enters m true x [rCmpStat n.val, rLatchSum] ∧ s.domReady (80 + n.val / 16) = false) :=
  ⟨⟨witLatchesSetAndClear2, Master.sc, scCtx, 6, CmpState.below, by unfold State.enters; decide +kernel, by decide +kernel⟩,
   ⟨witLatchesSetAndClear4, (Master.core 5), (ctx c5 (.core 5)), 6, by unfold State.enters; decide +kernel, by decide +kernel⟩,
   ⟨witLatchesSetAndClear0, 6, by decide +kernel⟩,
   ⟨witLatchesSetAndClear1, 6, CmpState.below, by decide +kernel⟩,
   ⟨witLatchesSetAndClear5, (Master.core 5), (ctx c5 (.core 5)), 6, by unfold State.enters; decide +kernel, by decide +kernel⟩⟩

def witTimerWritesReachTheBuffers0 : State := own5 (pt 0x80 0 id)
def witTimerWritesReachTheBuffers1 : State := (own5 (pt 0xC0 0 (fun p => {p with stRld := some 0, stShA := some 5, stShB := some 6}))).setFlag (rPtCtl 7) 0 true |>.setFlag (rPtStat 7) 0 true

theorem witness_TimerWritesReachTheBuffers :
    (∃ (s : State) (m : Master) (x : Ctx) (n : Fin 48) (w : Word),
      let p : PwmState := s.pt n
      s.enters m true x [rPt n.val 68, rPt n.val 72, rPt n.val 76, rPt n.val 88] ∧ s.ptMay x n.val = true ∧
      s.flag (rPtCtl n.val) 0 = true ∧ p.stShA = some w ∧ s.flag (rPtStat n.val) 0 = true ∧ bit (s.ptSet n.val 0) 6 = true) ∧
    (∃ (s : State) (m : Master) (x : Ctx) (n : Fin 48),
      s.enters m true x [rPt n.val 68, rPt n.val 72, rPt n.val 76, rPt n.val 88] ∧ s.ptMay x n.val = true ∧
      s.flag (rPtCtl n.val) 0 = false ∧ s.flag (rPtStat n.val) 0 = false) ∧
    (∃ (s : State) (m : Master) (x : Ctx) (n : Fin 48) (w : Word),
      let p : PwmState := s.pt n
      s.enters m true x [rPt n.val 68, rPt n.val 72, rPt n.val 76, rPt n.val 88] ∧ s.ptMay x n.val = true ∧
      s.flag (rPtCtl n.val) 0 = true ∧ p.stShB = some w) ∧
    (∃ (s : State) (m : Master) (x : Ctx) (n : Fin 48) (w : Word),
      let p : PwmState := s.pt n
      s.enters m true x [rPt n.val 68, rPt n.val 72, rPt n.val 76, rPt n.val 88] ∧ s.ptMay x n.val = true ∧
      s.flag (rPtCtl n.val) 0 = true ∧ p.stRld = some w) ∧
    (∃ (s : State) (m : Master) (x : Ctx) (n : Fin 48),
      s.enters m true x [rPt n.val 68, rPt n.val 72, rPt n.val 76, rPt n.val 88] ∧ s.ptMay x n.val = false) :=
  ⟨⟨witTimerWritesReachTheBuffers1, (Master.core 5), (ctx (c5) (.core 5)), 7, 5, by unfold State.enters; decide +kernel,
    by decide +kernel⟩,
   ⟨witTimerWritesReachTheBuffers0, (Master.core 5), (ctx (c5) (.core 5)), 7, by unfold State.enters; decide +kernel, by decide +kernel⟩,
   ⟨witTimerWritesReachTheBuffers1, (Master.core 5), (ctx (c5) (.core 5)), 7, 6, by unfold State.enters; decide +kernel,
    by decide +kernel⟩,
   ⟨witTimerWritesReachTheBuffers1, (Master.core 5), (ctx (c5) (.core 5)), 7, 0, by unfold State.enters; decide +kernel,
    by decide +kernel⟩,
   ⟨c5, (Master.core 5), (ctx (c5) (.core 5)), 7, by unfold State.enters; decide +kernel, by decide +kernel⟩⟩

def witTimerEventsActAndActivate0 : State := act (pt 0x280 0 (fun p => {p with cnt := 77})) 8 (16*9+4) 0x705
def witTimerEventsActAndActivate1 : State := (pt 0x280 0 (fun p => {p with cnt := 77, riseA := some 50, la := true})).setFlag (rPtStat 7) 0 true
def witTimerEventsActAndActivate3 : State := (pt 0xA0 0x40 (fun p => {p with cnt := 77, riseB := some 50, la := false, shA := false}))
def witTimerEventsActAndActivate4 : State := (pt 0xA0 0x80 (fun p => {p with cnt := 77, riseB := some 50, la := false, shA := false}))

theorem witness_TimerEventsActAndActivate :
    (∃ (s : State) (n : Fin 48) (c : Fin 32),
      let p : PwmState := s.pt n
      let mode : Word := s.ptSet n.val 0
      s.ptEn n.val = true ∧ bit (s.cmpCfg c.val) 2 = true ∧ bits (s.cmpCfg c.val) 8 6 = n.val ∧ s.flag (rPtStat n.val) 0 = false ∧
      p.riseA = none ∧ bit mode 7 = true ∧ bits mode 8 3 = 2) ∧
    (∃ (s : State) (n : Fin 48),
      let p : PwmState := s.pt n
      s.flag (rPtStat n.val) 0 = true ∧ p.riseA ≠ none ∧ p.la = true) ∧
    (∃ (s : State) (n : Fin 48),
      let p : PwmState := s.pt n
      let mode : Word := s.ptSet n.val 0
      s.flag (rPtStat n.val) 0 = false ∧ bit mode 5 = true ∧ s.testing 9 n.val = false ∧ bits (s.ptSet n.val 4) 6 2 = 1 ∧
      p.shA = false ∧ s.pinsHighZ = false ∧ p.riseB ≠ none ∧ p.la = false) ∧
    (∃ (s : State) (n : Fin 48),
      let p : PwmState := s.pt n
      let mode : Word := s.ptSet n.val 0
      s.flag (rPtStat n.val) 0 = false ∧ bit mode 5 = true ∧ s.testing 9 n.val = false ∧ bits (s.ptSet n.val 4) 6 2 = 2 ∧
      p.shA = false ∧ s.pinsHighZ = false) ∧
    (∃ (s : State) (n : Fin 48),
      s.ptEn n.val = false) :=
  ⟨⟨witTimerEventsActAndActivate0, 7, 9, by decide +kernel⟩,
   ⟨witTimerEventsActAndActivate1, 7, by decide +kernel⟩,
   ⟨witTimerEventsActAndActivate3, 7, by decide +kernel⟩,
   ⟨witTimerEventsActAndActivate4, 7, by decide +kernel⟩,
   ⟨R, 7, by decide +kernel⟩⟩

def witGeneralTimersCountCaptureAndLatch0 : State := (gt 0x1 0x00000200 (fun g => {g with cnt := 99})).setFlag (rGt 6 0x2c) 1 true
def witGeneralTimersCountCaptureAndLatch1 : State := (gt 0x1 0x00000200 (fun g => {g with cnt := 99, caps := [(5, 1, 7)]}))
def witGeneralTimersCountCaptureAndLatch2 : State := gt 0x9 0x00000100 (fun g => {g with cnt := 99})
def witGeneralTimersCountCaptureAndLatch4 : State := gt 0x3 0x00000100 (fun g => {g with cnt := 99}) 6 (gt 0 0 (fun g => {g with cnt := 55}) 7)

theorem witness_GeneralTimersCountCaptureAndLatch :
    (∃ (s : State) (m : Master) (x : Ctx) (n : Fin 32) (i : Fin 4) (k : Fin 16),
      s.enters m true x [rGt n.val 40] ∧
      s.enters m false x ([rGt n.val (48 + 4 * i.val), rTs64Lo, lowAddr (LowWord.gtCnt k), lowAddr (LowWord.gtCcr k i)] ++ List.map (fun j ↦ rPm j 4) (List.range 64) ++ [rEth 0 24, rEth 0 32, rEth 1 24, rEth 1 32]) ∧
      bit (s.gtSet n.val 0) 0 = true ∧ s.gtUpper n.val = false ∧ s.gtCasc n.val = false ∧ s.ccm n.val i.val 0 2 = 1 ∧
      bits (s.gtSet n.val 0) 2 3 = 2 ∧ (bit (s.gtSet n.val 0) 0 = false ∨ s.ccm n.val i.val 0 2 ≠ 2) ∧ s.unitMay x n.val = true ∧
      s.domReady 82 = true) ∧
    (∃ (s : State) (m : Master) (x : Ctx) (n : Fin 32) (i : Fin 4) (k : Fin 16),
      let lo : Fin 32 := ⟨2 * k.val, by omega⟩
      s.enters m false x ([rGt n.val (48 + 4 * i.val), rTs64Lo, lowAddr (LowWord.gtCnt k), lowAddr (LowWord.gtCcr k i)] ++ List.map (fun j ↦ rPm j 4) (List.range 64) ++ [rEth 0 24, rEth 0 32, rEth 1 24, rEth 1 32]) ∧
      s.enters m true x [cascadeAddr (CascadeLow.rld k), cascadeAddr (CascadeLow.ccr k i)] ∧ s.gtCasc lo.val = true ∧
      s.unitMay x lo.val = true ∧ s.ccm lo.val i.val 0 2 ≠ 2) ∧
    (∃ (s : State) (m : Master) (x : Ctx) (n : Fin 32),
      s.enters m true x [rGt n.val 40] ∧ bit (s.gtSet n.val 0) 0 = false ∧ s.unitMay x n.val = false) ∧
    (∃ (s : State) (n : Fin 32) (i : Fin 4),
      s.ccm n.val i.val 0 2 = 2 ∧ s.gtUpper n.val = false ∧ s.gtCasc n.val = false ∧ (s.gt n).caps = [] ∧ bit (s.gtSet n.val 0) 0 = true) ∧
    (∃ (s : State) (n : Fin 32) (i : Fin 4) (e : Nat) (w : Nat),
      (e, i.val, w) ∈ (s.gt n).caps) :=
  ⟨⟨witGeneralTimersCountCaptureAndLatch2, Master.sc, scCtx, 6, 1, 3, by unfold State.enters; decide +kernel,
    by unfold State.enters; decide +kernel, by decide +kernel⟩,
   ⟨witGeneralTimersCountCaptureAndLatch4, Master.sc, scCtx, 6, 1, 3, by unfold State.enters; decide +kernel,
    by unfold State.enters; decide +kernel, by decide +kernel⟩,
   ⟨c5, (Master.core 5), (ctx c5 (.core 5)), 6, by unfold State.enters; decide +kernel, by decide +kernel⟩,
   ⟨witGeneralTimersCountCaptureAndLatch0, 6, 1, by decide +kernel⟩,
   ⟨witGeneralTimersCountCaptureAndLatch1, 6, 1, 5, 7, by decide +kernel⟩⟩

def witChannelsFireAndRearmForTheirOwners0 : State := act (act fb 4 (16*7) 0x0) 4 (16*7+4) 0x1FFFF
def witChannelsFireAndRearmForTheirOwners1 : State := act (act fb 4 (16*7) 0x0) 4 (16*7+4) 0x2FFFF
def witChannelsFireAndRearmForTheirOwners2 : State := {cl with fab := {cl.fab with ended := [(7, (false, false, false, false))]}}

theorem witness_ChannelsFireAndRearmForTheirOwners :
    (∃ (s : State) (m : Master) (x : Ctx) (ch : Fin 256) (n : Fin 32) (f : Fin 16) (c : Fin 36) (i : Fin 128),
      let may : Prop := s.mayFire x ch.val = true ∨ x.free = true ∧ x.debug = false ∧ bit (s.chAttr ch.val) 9 = true
      let own : Option (Fin 37 × Bool) := s.swfOwn[f]
      let v : CellVal := sget { f := false, q := false, y := false, out := false } s.cellVals i.val
      let ff : Nat := bits (s.cellFn i.val) 16 2
      s.enters m true x [rChFire, rChRearm, rEvcntCtl n.val] ∧ s.mayFire x ch.val = false ∧ may ∧ x.free = true ∧
      s.ownGrants x Perm.write (fireAddr (FireTarget.swf f)) = true ∧
      (x.free = true ∨ x.id < 37 ∧ ∀ (o : Fin 37) (w : Bool), own = some (o, w) → x.owner = o.val ∧ x.world = w) ∧
      s.sourceLive (1008 + f.val) = true ∧ s.ownGrants x Perm.write (fireAddr (FireTarget.coreEvent c)) = true ∧
      (x.free = true ∨ x.owner = c.val) ∧ s.sourceLive (448 + 2 * c.val) = true ∧ sfind s.fab.ended i.val = none ∧ ff = 1 ∧
      (v.out = false ∨ (s.cell i.val).out = true)) ∧
    (∃ (s : State) (m : Master) (x : Ctx) (ch : Fin 256) (n : Fin 32) (f : Fin 16) (c : Fin 36) (i : Fin 128),
      let may : Prop := s.mayFire x ch.val = true ∨ x.free = true ∧ x.debug = false ∧ bit (s.chAttr ch.val) 9 = true
      let own : Option (Fin 37 × Bool) := s.swfOwn[f]
      let ff : Nat := bits (s.cellFn i.val) 16 2
      s.enters m true x [rChFire, rChRearm, rEvcntCtl n.val] ∧ (¬may) ∧ x.free = false ∧
      s.ownGrants x Perm.write (fireAddr (FireTarget.swf f)) = true ∧
      (¬(x.free = true ∨ x.id < 37 ∧ ∀ (o : Fin 37) (w : Bool), own = some (o, w) → x.owner = o.val ∧ x.world = w)) ∧ x.owner ≠ c.val ∧
      sfind s.fab.ended i.val = none ∧ ff = 2) ∧
    (∃ (s : State) (m : Master) (x : Ctx) (ch : Fin 256) (n : Fin 32) (i : Fin 128),
      s.enters m true x [rChFire, rChRearm, rEvcntCtl n.val] ∧ s.mayFire x ch.val = true ∧ (sfind s.fab.ended i.val).isSome = true) ∧
    (∃ (s : State) (f : Fin 16) (i : Fin 128),
      let v : CellVal := sget { f := false, q := false, y := false, out := false } s.cellVals i.val
      sfind s.fab.ended i.val = none ∧ v.out = true ∧ (s.cell i.val).out = false) ∧
    (∃ (s : State) (m : Master) (x : Ctx) (target : FireTarget),
      s.enters m true x [] ∧ s.ownGrants x Perm.write (fireAddr target) = false) :=
  ⟨⟨witChannelsFireAndRearmForTheirOwners0, Master.sc, scCtx, 19, 6, 3, 6, 7, by unfold State.enters; decide +kernel, by decide +kernel⟩,
   ⟨witChannelsFireAndRearmForTheirOwners1, (Master.dma 3), (ctx fb (.dma 3)), 19, 6, 3, 6, 7, by unfold State.enters; decide +kernel,
    by decide +kernel⟩,
   ⟨witChannelsFireAndRearmForTheirOwners2, (Master.core 5), (ctx cl (.core 5)), 19, 6, 7, by unfold State.enters; decide +kernel,
    by decide +kernel⟩,
   ⟨cl, 3, 7, by decide +kernel⟩,
   ⟨wBare, (Master.core 5), (ctx wBare (.core 5)), (FireTarget.swf 3), by unfold State.enters; decide +kernel, by decide +kernel⟩⟩

theorem witness_RegisterWritesObeyTheirBlock :
    (∃ (s : State) (m : Master) (x : Ctx) (addr : Word) (u : Fin 116) (n : Fin 16) (a : Word),
      s.enters m true x [addr.toNat, 1073807444, 1073809408, rUnitOwn u.val, rAdcLim n.val] ∧ addr.toNat % 4 ≠ 0 ∧
      s.ownGrants x Perm.write a.toNat = false ∧ x.free = false) ∧
    (∃ (s : State) (m : Master) (x : Ctx) (addr : Word) (u : Fin 116) (n : Fin 16),
      s.enters m true x [addr.toNat, 1073807444, 1073809408, rUnitOwn u.val, rAdcLim n.val] ∧ x.free = true ∧
      s.domReady (37 + n.val) = true ∧ s.unitMay x (68 + n.val) = true) :=
  ⟨⟨wGrant, (Master.core 5), (ctx wGrant (.core 5)), 0x40010056, 68, 3, 0x50000000, by unfold State.enters; decide +kernel,
    by decide +kernel⟩,
   ⟨R, Master.sc, scCtx, 0x40010054, 115, 3, by unfold State.enters; decide +kernel, by decide +kernel⟩⟩

def witWriteBacksAndSpargeKeepTheMemories0 : State := { wb with now := 15 }
def witWriteBacksAndSpargeKeepTheMemories2 : State := wb.setFld (remapField 0x20000000).1 (remapField 0x20000000).2.1 4 8
def witWriteBacksAndSpargeKeepTheMemories4 : State := ({wb with ecc := [(0x20000040, false), (0x20000080, true)]}.setSpg (.quadrant 0) ⟨1, true, false, 0, false, 0, 0⟩).setRg (rSram 0x100) 0xFFFFFFFF
def witWriteBacksAndSpargeKeepTheMemories5 : State := R.setRg (rSram 0x100) 0
def witWriteBacksAndSpargeKeepTheMemories6 : State := ((R.setSpg (.local 33) ⟨1, true, false, 0, false, 0, 0⟩).setRg (rSram 0x100) 0xFFFFFFFF)

theorem witness_WriteBacksAndSpargeKeepTheMemories :
    (∃ (s : State) (bank : Fin 64) (w : WriteBack) (m : Master) (x : Ctx) (t0 : SpargeTarget) (q : Fin 8) (c : Fin 37) (v : Word),
      let first : Option WriteBack := List.find? (fun q ↦ bankOf q.addr == bank.val) s.wbq
      let r : Nat × Nat × Nat := remapField w.addr
      let p : SpargeState := s.spg t0
      let due : Prop := p.due = false ∧ p.dueAt ≤ s.now
      s.enters m true x [rSram 264] ∧ first = some w ∧ isSram w.addr = true ∧ s.remap.contains w.addr = false ∧
      s.fld r.fst r.snd.fst 4 < 8 ∧ w.forced = false ∧ w.since + 16 ≤ s.now ∧
      List.find? (fun q ↦ bankOf q.addr == bank.val && !q.forced && decide (q.since + 16 ≤ s.now)) s.wbq = some w ∧
      s.spargeOn t0 = true ∧ due ∧ p.busy = true ∧ p.due = false ∧ x.free = true ∧ bits v 0 6 = c.val ∧ bit v 6 = true ∧
      (s.spg (SpargeTarget.local c)).fast = 0) ∧
    (∃ (s : State) (m : Master) (x : Ctx) (t0 : SpargeTarget) (q : Fin 8) (v : Word),
      let p : SpargeState := s.spg t0
      let due : Prop := p.due = false ∧ p.dueAt ≤ s.now
      s.enters m true x [rSram 264] ∧ (∀ (q : WriteBack), q ∈ s.wbq → s.now < q.since + 16) ∧ s.spargeOn t0 = true ∧ due ∧
      p.busy = false ∧ x.free = true ∧ bits v 0 6 = q.val ∧ bit v 6 = false ∧ (s.spg (SpargeTarget.quadrant q)).fast = 0) ∧
    (∃ (s : State) (bank : Fin 64) (w : WriteBack) (m : Master) (x : Ctx) (q : Fin 8),
      let first : Option WriteBack := List.find? (fun q ↦ bankOf q.addr == bank.val) s.wbq
      let r : Nat × Nat × Nat := remapField w.addr
      s.enters m true x [rSram 264] ∧ first = some w ∧ isSram w.addr = true ∧ s.remap.contains w.addr = false ∧
      8 ≤ s.fld r.fst r.snd.fst 4 ∧ x.free = false) ∧
    (∃ (s : State) (bank : Fin 64) (t0 : SpargeTarget) (q : Fin 8),
      let first : Option WriteBack := List.find? (fun q ↦ bankOf q.addr == bank.val) s.wbq
      let p : SpargeState := s.spg t0
      let due : Prop := p.due = false ∧ p.dueAt ≤ s.now
      first = none ∧ (s.spargeOn t0 = false ∨ ¬due)) ∧
    (∃ (s : State) (t0 : SpargeTarget) (k : CoreId),
      let p : SpargeState := s.spg t0
      let due : Prop := p.due = false ∧ p.dueAt ≤ s.now
      s.spargeOn t0 = true ∧ due ∧ p.busy = true ∧ t0 = SpargeTarget.local k) :=
  ⟨⟨witWriteBacksAndSpargeKeepTheMemories4, 0, ⟨0x20000000, false, 0⟩, Master.sc, scCtx, (SpargeTarget.quadrant 0), 3, 36, 0x64,
    by unfold State.enters; decide +kernel, by decide +kernel⟩,
   ⟨witWriteBacksAndSpargeKeepTheMemories0, Master.sc, scCtx, (SpargeTarget.quadrant 3), 3, 3, by unfold State.enters; decide +kernel,
    by decide +kernel⟩,
   ⟨witWriteBacksAndSpargeKeepTheMemories2, 0, ⟨0x20000000, false, 0⟩, (Master.core 5), (ctx c5 (.core 5)), 3,
    by unfold State.enters; decide +kernel, by decide +kernel⟩,
   ⟨witWriteBacksAndSpargeKeepTheMemories5, 0, (SpargeTarget.local 36), 3, by decide +kernel⟩,
   ⟨witWriteBacksAndSpargeKeepTheMemories6, (SpargeTarget.local 33), 33, by decide +kernel⟩⟩

def witDmaChannelsMoveElements0 : State := { dm id 3 3 with now := 257 }
def witDmaChannelsMoveElements2 : State := dm id 1 3
def witDmaChannelsMoveElements4 : State := {dm id 3 1 with bankWorld := Vector.replicate 64 (some (!bit ((dm id 3 1).dma 4).own 6))}
def witDmaChannelsMoveElements5 : State := dm id 3 1

theorem witness_DmaChannelsMoveElements :
    (∃ (s : State) (m : Master) (x : Ctx) (n : Fin 16) (bank : Fin 64),
      let d : DmaState := s.dma n
      let sz : Nat := dmaBytes d
      let rem : Nat := s.fld (rDma n.val 8) 0 16
      let active : Bool := s.dmaActive n
      let pend : Bool := s.dmaPend n
      s.enters m true x [rDma n.val 0] ∧ s.unitMay x (32 + n.val) = true ∧ active = true ∧ pend = true ∧ s.dmaStarves n bank = false ∧
      d.out = false ∧ d.stop = false ∧ s.bankRefuses (bit d.own 6) d.src.toNat = false ∧
      s.bankRefuses (bit d.own 6) d.dst.toNat = false ∧ isSram d.src.toNat = true ∧ isSram d.dst.toNat = true ∧ d.src.toNat % sz = 0 ∧
      d.dst.toNat % sz = 0 ∧ s.sramBad d.src.toNat = false ∧ s.sramBad d.dst.toNat = false ∧ s.ecc = [] ∧ s.poison = [] ∧
      s.collided = none ∧ 1 ≤ rem ∧ rem = 1 ∧ bit d.attr 3 = true) ∧
    (∃ (s : State) (n : Fin 16) (bank : Fin 64),
      let d : DmaState := s.dma n
      let sz : Nat := dmaBytes d
      let rem : Nat := s.fld (rDma n.val 8) 0 16
      let active : Bool := s.dmaActive n
      let pend : Bool := s.dmaPend n
      active = true ∧ pend = true ∧ d.out = false ∧ d.since + s.fld (rSram 12) 0 16 < s.now ∧ d.starved = [] ∧
      isSram d.src.toNat = true ∧ bankOf d.src.toNat = bank.val ∧ d.stop = false ∧ s.bankRefuses (bit d.own 6) d.src.toNat = false ∧
      s.bankRefuses (bit d.own 6) d.dst.toNat = false ∧ isSram d.dst.toNat = true ∧ d.src.toNat % sz = 0 ∧ d.dst.toNat % sz = 0 ∧
      s.sramBad d.src.toNat = false ∧ s.sramBad d.dst.toNat = false ∧ s.ecc = [] ∧ s.poison = [] ∧ s.collided = none ∧ 1 ≤ rem ∧ 1 < rem) ∧
    (∃ (s : State) (m : Master) (x : Ctx) (n : Fin 16),
      let active : Bool := s.dmaActive n
      s.enters m true x [rDma n.val 0] ∧ s.unitMay x (32 + n.val) = false ∧ active = false) ∧
    (∃ (s : State) (m : Master) (x : Ctx) (n : Fin 16),
      let active : Bool := s.dmaActive n
      let pend : Bool := s.dmaPend n
      s.enters m true x [rDma n.val 0] ∧ s.unitMay x (32 + n.val) = true ∧ active = true ∧ pend = false) ∧
    (∃ (s : State) (n : Fin 16),
      let d : DmaState := s.dma n
      let sz : Nat := dmaBytes d
      let active : Bool := s.dmaActive n
      let pend : Bool := s.dmaPend n
      active = true ∧ pend = true ∧ d.out = false ∧ d.src.toNat % sz = 0 ∧ isSram d.src.toNat = true ∧ s.sramBad d.src.toNat = false ∧
      s.bankRefuses (bit d.own 6) d.src.toNat = true) :=
  ⟨⟨witDmaChannelsMoveElements5, Master.sc, scCtx, 4, 63, by unfold State.enters; decide +kernel, by decide +kernel⟩,
   ⟨witDmaChannelsMoveElements0, 4, 1, by decide +kernel⟩,
   ⟨c5, (Master.core 5), (ctx c5 (.core 5)), 4, by unfold State.enters; decide +kernel, by decide +kernel⟩,
   ⟨witDmaChannelsMoveElements2, Master.sc, scCtx, 4, by unfold State.enters; decide +kernel, by decide +kernel⟩,
   ⟨witDmaChannelsMoveElements4, 4, by decide +kernel⟩⟩

def witFlashCommandsStartOrAreRefused0 : State := flc 2 5
def witFlashCommandsStartOrAreRefused1 : State := flc 4 0x105
def witFlashCommandsStartOrAreRefused2 : State := {flc 2 5 with flash := [(0x800055, 1)]}
def witFlashCommandsStartOrAreRefused3 : State := flo 2 (.blankCheck 0 1)
def witFlashCommandsStartOrAreRefused5 : State := {flc 4 0x105 with dfBg := some (77, 8, 900)}
def witFlashCommandsStartOrAreRefused6 : State := {flc 2 5 with protPend := true}

theorem witness_FlashCommandsStartOrAreRefused :
    (∃ (s : State) (m : Master) (x : Ctx) (b : Fin 5),
      let unit : Nat := s.fld (rFl b.val 4) 4 18
      let a : Nat := s.flUnit b unit
      let may : Prop := x.free = true ∨ b = (4 : Fin 5) ∧ x.id < 36 ∧ x.level = true ∧ s.bitOf (rDfOwn 0) x.owner = true
      s.enters m true x [rFl b.val 0] ∧ s.domReady (63 + b.val) = true ∧ may ∧ s.flBusy b = false ∧ s.protPend = false ∧
      (b ≠ (4 : Fin 5) ∨ s.dfBg = none ∨ (s.flBank b).paused = true) ∧ (s.flBlank a 16).fst = true ∧ b ≠ (4 : Fin 5)) ∧
    (∃ (s : State) (m : Master) (x : Ctx) (b : Fin 5),
      let may : Prop := x.free = true ∨ b = (4 : Fin 5) ∧ x.id < 36 ∧ x.level = true ∧ s.bitOf (rDfOwn 0) x.owner = true
      s.enters m true x [rFl b.val 0] ∧ s.domReady (63 + b.val) = true ∧ may ∧ s.flBusy b = false ∧ s.protPend = false ∧
      (b ≠ (4 : Fin 5) ∨ s.dfBg = none ∨ (s.flBank b).paused = true) ∧ b = (4 : Fin 5)) ∧
    (∃ (s : State) (m : Master) (x : Ctx) (b : Fin 5),
      let unit : Nat := s.fld (rFl b.val 4) 4 18
      let a : Nat := s.flUnit b unit
      let may : Prop := x.free = true ∨ b = (4 : Fin 5) ∧ x.id < 36 ∧ x.level = true ∧ s.bitOf (rDfOwn 0) x.owner = true
      s.enters m true x [rFl b.val 0] ∧ s.domReady (63 + b.val) = true ∧ may ∧ s.flBusy b = false ∧ s.protPend = false ∧
      (b ≠ (4 : Fin 5) ∨ s.dfBg = none ∨ (s.flBank b).paused = true) ∧ (s.flBlank a 16).fst = false) ∧
    (∃ (s : State) (m : Master) (x : Ctx) (b : Fin 5),
      let may : Prop := x.free = true ∨ b = (4 : Fin 5) ∧ x.id < 36 ∧ x.level = true ∧ s.bitOf (rDfOwn 0) x.owner = true
      s.enters m true x [rFl b.val 0] ∧ s.domReady (63 + b.val) = true ∧ may ∧ s.flBusy b = true ∧ s.protPend = false) ∧
    (∃ (s : State) (m : Master) (x : Ctx) (b : Fin 5),
      let may : Prop := x.free = true ∨ b = (4 : Fin 5) ∧ x.id < 36 ∧ x.level = true ∧ s.bitOf (rDfOwn 0) x.owner = true
      s.enters m true x [rFl b.val 0] ∧ s.domReady (63 + b.val) = true ∧ (¬may)) ∧
    (∃ (s : State) (m : Master) (x : Ctx) (b : Fin 5),
      let may : Prop := x.free = true ∨ b = (4 : Fin 5) ∧ x.id < 36 ∧ x.level = true ∧ s.bitOf (rDfOwn 0) x.owner = true
      s.enters m true x [rFl b.val 0] ∧ s.domReady (63 + b.val) = true ∧ may ∧ s.flBusy b = false ∧ s.protPend = false ∧
      b = (4 : Fin 5) ∧ s.dfBg.isSome = true ∧ (s.flBank b).paused = false) ∧
    (∃ (s : State) (m : Master) (x : Ctx) (b : Fin 5),
      let may : Prop := x.free = true ∨ b = (4 : Fin 5) ∧ x.id < 36 ∧ x.level = true ∧ s.bitOf (rDfOwn 0) x.owner = true
      s.enters m true x [rFl b.val 0] ∧ s.domReady (63 + b.val) = true ∧ may ∧ s.protPend = true) :=
  ⟨⟨witFlashCommandsStartOrAreRefused0, Master.sc, scCtx, 2, by unfold State.enters; decide +kernel, by decide +kernel⟩,
   ⟨witFlashCommandsStartOrAreRefused1, Master.sc, scCtx, 4, by unfold State.enters; decide +kernel, by decide +kernel⟩,
   ⟨witFlashCommandsStartOrAreRefused2, Master.sc, scCtx, 2, by unfold State.enters; decide +kernel, by decide +kernel⟩,
   ⟨witFlashCommandsStartOrAreRefused3, Master.sc, scCtx, 2, by unfold State.enters; decide +kernel, by decide +kernel⟩,
   ⟨c5, (Master.core 5), (ctx c5 (.core 5)), 2, by unfold State.enters; decide +kernel, by decide +kernel⟩,
   ⟨witFlashCommandsStartOrAreRefused5, Master.sc, scCtx, 4, by unfold State.enters; decide +kernel, by decide +kernel⟩,
   ⟨witFlashCommandsStartOrAreRefused6, Master.sc, scCtx, 2, by unfold State.enters; decide +kernel, by decide +kernel⟩⟩

def witFlashOperationsEndWithTheirStatus0 : State := flo 2 (.program 0x100 [1,2,0xFF]) 1
def witFlashOperationsEndWithTheirStatus1 : State := flo 2 (.eraseSector 0) 1 {R with flash := [(5,3),(0x10000,4)]}
def witFlashOperationsEndWithTheirStatus3 : State := flo 4 (.logErase 1 (some 77)) 1 {R with dfSeq := 0xFFFFFFFF}
def witFlashOperationsEndWithTheirStatus4 : State := {R with dfQueue := [77,3]}
def witFlashOperationsEndWithTheirStatus5 : State := {R with dfBg := some (77, 8, 900)}
def witFlashOperationsEndWithTheirStatus6 : State := flo 2 (.program 0x100 [1,2,0xFF]) 2 {R with now := 100}
def witFlashOperationsEndWithTheirStatus7 : State := {R with dfQueue := [77,3]}.setMode 2
def witFlashOperationsEndWithTheirStatus8 : State := {R with dfBg := some (77, 8, 900), now := 100, flBanks := R.flBanks.set 4 {R.flBanks[4] with paused := true}}
def witFlashOperationsEndWithTheirStatus9 : State := flo 2 (.blankCheck 0 16) 1
def witFlashOperationsEndWithTheirStatus10 : State := {R with now := 100}

theorem witness_FlashOperationsEndWithTheirStatus :
    (∃ (s : State) (b : Fin 5) (k : Fin 9) (n : Nat) (p : Nat) (e : Nat),
      (s.flBank b).op = none ∧ (s.flBank (4 : Fin 5)).op = none ∧ s.dfBg.isSome = true ∧ (s.flBank (4 : Fin 5)).paused = false ∧
      s.flAwaited b = false ∧ (b ≠ (4 : Fin 5) ∨ s.dfBg = none ∨ (s.flBank b).wait = none) ∧ (s.flBank b).served < 64 ∧
      s.now < (s.flBank b).last + 64 ∧ s.dfQueue = [] ∧ s.dfBg = some (p, n, e) ∧ s.flHalted (4 : Fin 5) = false ∧
      (s.flBank (4 : Fin 5)).wait = none ∧ 1 ≤ k.val ∧ k.val ≤ 4 ∧ (s.dfSec p).marked = false) ∧
    (∃ (s : State) (b : Fin 5) (a : Nat) (data : List Byte),
      (∀ (c m : Nat), (s.flBank b).op ≠ some (FlashOp.blankCheck c m)) ∧ (s.flBank b).op = some (FlashOp.program a data) ∧
      s.flSt b ≠ 2 ∧ s.flSt b = 1 ∧ (s.flBank b).op ≠ none ∧ (s.dfBg = none ∨ s.flHalted (4 : Fin 5) = true)) ∧
    (∃ (s : State) (b : Fin 5),
      s.flSt b = 2 ∧ (64 ≤ (s.flBank b).served ∨ (s.flBank b).last + 64 ≤ s.now)) ∧
    (∃ (s : State) (b : Fin 5) (a : Nat) (n : Nat) (c : Nat) (m : Nat),
      (s.flBank b).op = some (FlashOp.blankCheck a n) ∧ s.flSt b ≠ 2 ∧ (s.flBank b).op = some (FlashOp.blankCheck c m)) ∧
    (∃ (s : State) (b : Fin 5) (a : Nat),
      (s.flBank b).op = some (FlashOp.eraseSector a) ∧ s.flSt b ≠ 2) ∧
    (∃ (s : State) (b : Fin 5) (l : Fin 8) (p : Nat),
      b = (4 : Fin 5) ∧ (s.flBank b).op = some (FlashOp.logErase l (some p)) ∧ p < 1024 ∧ s.flSt b ≠ 2) ∧
    (∃ (s : State) (p : Nat) (q : List Nat),
      s.dfQueue = p :: q ∧ s.dfBg = none ∧ (s.mode = 0 ∨ s.mode = 1)) ∧
    (∃ (s : State) (p : Nat) (q : List Nat),
      s.dfQueue = p :: q ∧ s.dfBg = none ∧ (s.flBank (4 : Fin 5)).op = none ∧ s.domReady 67 = true ∧ s.protPend = false ∧ s.mode ≠ 0 ∧
      s.mode ≠ 1) ∧
    (∃ (s : State) (b : Fin 5),
      (64 ≤ (s.flBank b).served ∨ (s.flBank b).last + 64 ≤ s.now) ∧ s.flSt (4 : Fin 5) ≠ 2 ∧ b = (4 : Fin 5) ∧
      (s.flBank b).paused = true ∧ (s.flBank b).wait = none) ∧
    (∃ (s : State) (b : Fin 5),
      (64 ≤ (s.flBank b).served ∨ (s.flBank b).last + 64 ≤ s.now) ∧ s.flSt b ≠ 2 ∧ (s.flBank b).paused = false) :=
  ⟨⟨witFlashOperationsEndWithTheirStatus5, 4, 3, 8, 77, 900, by decide +kernel⟩,
   ⟨witFlashOperationsEndWithTheirStatus0, 2, 0x100, [1,2,0xFF], notBlank_of (by decide +kernel), by decide +kernel⟩,
   ⟨witFlashOperationsEndWithTheirStatus6, 2, by decide +kernel⟩,
   ⟨witFlashOperationsEndWithTheirStatus9, 2, 0, 16, 0, 16, by decide +kernel⟩,
   ⟨witFlashOperationsEndWithTheirStatus1, 2, 0, by decide +kernel⟩,
   ⟨witFlashOperationsEndWithTheirStatus3, 4, 1, 77, by decide +kernel⟩,
   ⟨witFlashOperationsEndWithTheirStatus4, 77, [3], by decide +kernel⟩,
   ⟨witFlashOperationsEndWithTheirStatus7, 77, [3], by decide +kernel⟩,
   ⟨witFlashOperationsEndWithTheirStatus8, 4, by decide +kernel⟩,
   ⟨witFlashOperationsEndWithTheirStatus10, 2, by decide +kernel⟩⟩

def witProtectionAndOtpCommandsAct0 : State := {R with prot := 2, flash := [(5,3)], mem := [⟨5,3⟩]}
def witProtectionAndOtpCommandsAct1 : State := {R with otpOp := some (.revoke 1), mem := [⟨5,3⟩]}
def witProtectionAndOtpCommandsAct2 : State := {R with otpOp := some (.burn false 0 img), mem := [⟨5,3⟩]}
def witProtectionAndOtpCommandsAct4 : State := dbgS (R.setMode 2)

theorem witness_ProtectionAndOtpCommandsAct :
    (∃ (s : State) (m : Master) (x : Ctx) (level : BitVec 2) (key : Bool) (gen : Fin 4) (g : Fin 4),
      s.enters m true x [rFlProt, baseOtp + 4] ∧ s.burnCheck key (s.memBytes (BitVec.toNat (s.rg rOtpSrc)) (otpLen key)) = Except.ok g ∧
      x.free = true ∧ x.debug = false ∧ s.protPend = false ∧ s.prot.val ≤ min 2 level.toNat ∧ s.otpOp = none ∧
      s.revokeAllowed key gen = false) ∧
    (∃ (s : State) (m : Master) (x : Ctx) (level : BitVec 2) (key : Bool) (code : Nat),
      s.enters m true x [rFlProt, baseOtp + 4] ∧
      s.burnCheck key (s.memBytes (BitVec.toNat (s.rg rOtpSrc)) (otpLen key)) = Except.error code ∧ x.free = true ∧ x.debug = false ∧
      s.protPend = false ∧ min 2 level.toNat < s.prot.val ∧ s.otpOp = none ∧ code < 16) ∧
    (∃ (s : State) (m : Master) (x : Ctx) (key : Bool) (gen : Fin 4) (b : Fin 8) (i : Instr),
      s.enters m true x [rFlProt, baseOtp + 4] ∧ x.free = true ∧ s.otpOp ≠ none ∧
      i ∈ [Instr.otpCmdBurnGen m key, Instr.otpCmdRevoke m key gen] ∧ s.otpOp = some (OtpOp.revoke b)) ∧
    (∃ (s : State) (key : Bool) (g : Fin 4) (img : List Byte),
      s.otpOp = some (OtpOp.burn key g img)) ∧
    (∃ (s : State) (m : Master) (x : Ctx) (key : Bool) (gen : Fin 4),
      s.enters m true x [rFlProt, baseOtp + 4] ∧ s.revokeAllowed key gen = true ∧ x.free = true ∧ s.otpOp = none) ∧
    (∃ (s : State) (m : Master) (x : Ctx),
      s.enters m true x [rFlProt, baseOtp + 4] ∧ x.free = false) ∧
    (∃ (s : State) (m : Master) (x : Ctx),
      s.enters m true x [rFlProt, baseOtp + 4] ∧ x.free = true ∧ x.debug = true) :=
  ⟨⟨burnS, Master.sc, scCtx, 1, false, 1, 0, by unfold State.enters; decide +kernel,
    burnCheck_img (by decide +kernel) (memBytes_img _ _ rfl (congrArg imgAt (by decide +kernel))) (by decide +kernel) (by decide +kernel),
    by decide +kernel⟩,
   ⟨witProtectionAndOtpCommandsAct0, Master.sc, scCtx, 1, false, 1, by unfold State.enters; decide +kernel,
    error_of (by decide +kernel), by decide +kernel⟩,
   ⟨witProtectionAndOtpCommandsAct1, Master.sc, scCtx, false, 1, 1, (Instr.otpCmdBurnGen Master.sc false),
    by unfold State.enters; decide +kernel, by decide +kernel⟩,
   ⟨witProtectionAndOtpCommandsAct2, false, 0, img, by decide +kernel⟩,
   ⟨rev, Master.sc, scCtx, false, 1, by unfold State.enters; decide +kernel,
    revoke_img rfl (by decide +kernel) (by decide +kernel) (by decide +kernel), by decide +kernel⟩,
   ⟨c5, (Master.core 5), (ctx c5 (.core 5)), by unfold State.enters; decide +kernel, by decide +kernel⟩,
   ⟨witProtectionAndOtpCommandsAct4, Master.debug, debugCtx, by unfold State.enters; decide +kernel, by decide +kernel⟩⟩

def witEngineInstructionsExecute0 : State := eg 1 1 5 (fun x => {x with div := 3})
def witEngineInstructionsExecute1 : State := eg 4 0 0 (fun x => {x with inq := [1,2]})
def witEngineInstructionsExecute2 : State := eg 4 0 0 (fun x => {x with inq := [1,2,3,4]})
def witEngineInstructionsExecute3 : State := eg 1 0 5 (id)
def witEngineInstructionsExecute4 : State := eg 1 1 5 (id)
def witEngineInstructionsExecute5 : State := eg 1 2 21 (id)
def witEngineInstructionsExecute6 : State := eg 1 3 0 (id)
def witEngineInstructionsExecute7 : State := eg 2 2 7 (id)
def witEngineInstructionsExecute9 : State := eg 3 2 7 (id)
def witEngineInstructionsExecute10 : State := eg 3 0 0 (id)
def witEngineInstructionsExecute12 : State := eg 4 2 0 (fun x => {x with inq := [1,2,3,4]})
def witEngineInstructionsExecute13 : State := eg 5 2 0 (fun x => {x with outq := [9,8]})
def witEngineInstructionsExecute14 : State := eg 5 2 0 (id)
def witEngineInstructionsExecute15 : State := eg 5 0 0 (id)
def witEngineInstructionsExecute16 : State := eg 6 3 0 (id)
def witEngineInstructionsExecute21 : State := eg 6 3 16 (id)
def witEngineInstructionsExecute26 : State := eg 6 3 32 (id)
def witEngineInstructionsExecute31 : State := eg 6 2 1 (id)
def witEngineInstructionsExecute32 : State := eg 7 0 1 (id)
def witEngineInstructionsExecute36 : State := eg 8 0 7 (id)
def witEngineInstructionsExecute41 : State := eg 9 0 3 (id)
def witEngineInstructionsExecute42 : State := eg 9 1 3 (id)
def witEngineInstructionsExecute43 : State := eg 9 2 3 (id)
def witEngineInstructionsExecute44 : State := eg 10 0 0 (id)
def witEngineInstructionsExecute45 : State := eg 1 3 1 (id)

theorem witness_EngineInstructionsExecute :
    (∃ (s : State) (g : Fin 8) (e : Fin 4) (d : Nat) (o : Nat),
      let x : PeEngine := s.eng g e
      let span : Nat := s.peSpan g e
      let hi : Nat := o / 64
      let decimated : Prop := s.sdOn g.val = true ∧ bits (s.sdCtl g.val) 1 2 = e.val
      s.peRuns g e = true ∧ d < 16 ∧ o < 256 ∧ x.div = 0 ∧ x.delay = 0 ∧ x.ahead = false ∧ x.full = false ∧
      s.peWord g e = 4096 * 4 + 256 * d + o ∧ peDefined (4096 * 4 + 256 * d + o) span = true ∧ (¬decimated) ∧ x.push = none ∧
      x.inq.length < 4 ∧ hi % 2 = 0 ∧ bits (s.peCfg g e) 12 3 ≤ x.inq.length + 1) ∧
    (∃ (s : State) (g : Fin 8) (e : Fin 4) (d : Nat) (o : Nat),
      let x : PeEngine := s.eng g e
      let span : Nat := s.peSpan g e
      let hi : Nat := o / 64
      let decimated : Prop := s.sdOn g.val = true ∧ bits (s.sdCtl g.val) 1 2 = e.val
      s.peRuns g e = true ∧ d < 16 ∧ o < 256 ∧ x.div = 0 ∧ x.delay = 0 ∧ x.ahead = false ∧ x.full = false ∧
      s.peWord g e = 4096 * 4 + 256 * d + o ∧ peDefined (4096 * 4 + 256 * d + o) span = true ∧ (¬decimated) ∧ x.push = none ∧
      4 ≤ x.inq.length ∧ hi / 2 = 0 ∧ hi % 2 = 0) ∧
    (∃ (s : State) (g : Fin 8) (e : Fin 4) (d : Nat) (o : Nat),
      let x : PeEngine := s.eng g e
      let span : Nat := s.peSpan g e
      let hi : Nat := o / 64
      s.peRuns g e = true ∧ d < 16 ∧ o < 256 ∧ x.div = 0 ∧ x.delay = 0 ∧ x.ahead = false ∧ x.full = false ∧
      s.peWord g e = 4096 * 6 + 256 * d + o ∧ peDefined (4096 * 6 + 256 * d + o) span = true ∧ hi = 3 ∧ o / 16 % 4 = 0) ∧
    (∃ (s : State) (g : Fin 8) (e : Fin 4) (d : Nat) (o : Nat),
      let x : PeEngine := s.eng g e
      let span : Nat := s.peSpan g e
      let hi : Nat := o / 64
      s.peRuns g e = true ∧ d < 16 ∧ o < 256 ∧ x.div = 0 ∧ x.delay = 0 ∧ x.ahead = false ∧ x.full = false ∧
      s.peWord g e = 4096 * 1 + 256 * d + o ∧ peDefined (4096 * 1 + 256 * d + o) span = true ∧ hi = 0) ∧
    (∃ (s : State) (g : Fin 8) (e : Fin 4) (d : Nat) (o : Nat),
      let x : PeEngine := s.eng g e
      let span : Nat := s.peSpan g e
      let lsb : Bool := bit (s.peCfg g e) 8
      let hi : Nat := o / 64
      let n : Nat := o % 32 + 1
      s.peRuns g e = true ∧ d < 16 ∧ o < 256 ∧ x.div = 0 ∧ x.delay = 0 ∧ x.ahead = false ∧ x.full = false ∧
      s.peWord g e = 4096 * 2 + 256 * d + o ∧ peDefined (4096 * 2 + 256 * d + o) span = true ∧ hi = 2 ∧ n ≤ 16 ∧ lsb = false) ∧
    (∃ (s : State) (g : Fin 8) (e : Fin 4) (d : Nat) (o : Nat),
      let x : PeEngine := s.eng g e
      let span : Nat := s.peSpan g e
      let hi : Nat := o / 64
      let decimated : Prop := s.sdOn g.val = true ∧ bits (s.sdCtl g.val) 1 2 = e.val
      s.peRuns g e = true ∧ d < 16 ∧ o < 256 ∧ x.div = 0 ∧ x.delay = 0 ∧ x.ahead = false ∧ x.full = false ∧
      s.peWord g e = 4096 * 3 + 256 * d + o ∧ peDefined (4096 * 3 + 256 * d + o) span = true ∧ (¬decimated) ∧ hi = 2) ∧
    (∃ (s : State) (g : Fin 8) (e : Fin 4) (d : Nat) (o : Nat),
      let x : PeEngine := s.eng g e
      let span : Nat := s.peSpan g e
      let hi : Nat := o / 64
      s.peRuns g e = true ∧ d < 16 ∧ o < 256 ∧ x.div = 0 ∧ x.delay = 0 ∧ x.ahead = false ∧ x.full = false ∧
      s.peWord g e = 4096 * 9 + 256 * d + o ∧ peDefined (4096 * 9 + 256 * d + o) span = true ∧ hi = 0) ∧
    (∃ (s : State) (g : Fin 8) (e : Fin 4) (d : Nat) (o : Nat) (i : Instr),
      let x : PeEngine := s.eng g e
      let all : List Instr := [Instr.peSet g e, Instr.peOut g e, Instr.peIn g e, Instr.pePush g e, Instr.pePull g e, Instr.peMov g e, Instr.peWait g e, Instr.peJmp g e, Instr.peFlag g e, Instr.peEvt g e]
      s.peRuns g e = true ∧ d < 16 ∧ o < 256 ∧ (x.div ≠ 0 ∨ x.delay ≠ 0 ∨ x.ahead = true) ∧ i ∈ all) :=
  ⟨⟨witEngineInstructionsExecute1, 2, 1, 3, 0, by decide +kernel⟩,
   ⟨witEngineInstructionsExecute2, 2, 1, 3, 0, by decide +kernel⟩,
   ⟨witEngineInstructionsExecute16, 2, 1, 3, 192, by decide +kernel⟩,
   ⟨witEngineInstructionsExecute3, 2, 1, 3, 5, by decide +kernel⟩,
   ⟨witEngineInstructionsExecute7, 2, 1, 3, 135, by decide +kernel⟩,
   ⟨witEngineInstructionsExecute9, 2, 1, 3, 135, by decide +kernel⟩,
   ⟨witEngineInstructionsExecute41, 2, 1, 3, 3, by decide +kernel⟩,
   ⟨witEngineInstructionsExecute0, 2, 1, 3, 69, (Instr.peSet 2 1), by decide +kernel⟩⟩

theorem witness_EngineInstructionsExecute_2 :
    (∃ (s : State) (g : Fin 8) (e : Fin 4) (d : Nat) (o : Nat),
      let x : PeEngine := s.eng g e
      let span : Nat := s.peSpan g e
      let hi : Nat := o / 64
      s.peRuns g e = true ∧ d < 16 ∧ o < 256 ∧ x.div = 0 ∧ x.delay = 0 ∧ x.ahead = false ∧ x.full = false ∧
      s.peWord g e = 4096 * 1 + 256 * d + o ∧ peDefined (4096 * 1 + 256 * d + o) span = true ∧ hi = 1) ∧
    (∃ (s : State) (g : Fin 8) (e : Fin 4) (d : Nat) (o : Nat),
      let x : PeEngine := s.eng g e
      let span : Nat := s.peSpan g e
      let hi : Nat := o / 64
      s.peRuns g e = true ∧ d < 16 ∧ o < 256 ∧ x.div = 0 ∧ x.delay = 0 ∧ x.ahead = false ∧ x.full = false ∧
      s.peWord g e = 4096 * 1 + 256 * d + o ∧ peDefined (4096 * 1 + 256 * d + o) span = true ∧ hi = 2) ∧
    (∃ (s : State) (g : Fin 8) (e : Fin 4) (d : Nat) (o : Nat),
      let x : PeEngine := s.eng g e
      let span : Nat := s.peSpan g e
      let hi : Nat := o / 64
      s.peRuns g e = true ∧ d < 16 ∧ o < 256 ∧ x.div = 0 ∧ x.delay = 0 ∧ x.ahead = false ∧ x.full = false ∧
      s.peWord g e = 4096 * 1 + 256 * d + o ∧ peDefined (4096 * 1 + 256 * d + o) span = true ∧ hi = 3) ∧
    (∃ (s : State) (g : Fin 8) (e : Fin 4) (d : Nat) (o : Nat),
      let x : PeEngine := s.eng g e
      let span : Nat := s.peSpan g e
      let lsb : Bool := bit (s.peCfg g e) 8
      let hi : Nat := o / 64
      let decimated : Prop := s.sdOn g.val = true ∧ bits (s.sdCtl g.val) 1 2 = e.val
      s.peRuns g e = true ∧ d < 16 ∧ o < 256 ∧ x.div = 0 ∧ x.delay = 0 ∧ x.ahead = false ∧ x.full = false ∧
      s.peWord g e = 4096 * 3 + 256 * d + o ∧ peDefined (4096 * 3 + 256 * d + o) span = true ∧ (¬decimated) ∧ hi = 0 ∧ o % 32 = 0 ∧
      lsb = false) ∧
    (∃ (s : State) (g : Fin 8) (e : Fin 4) (d : Nat) (o : Nat),
      let x : PeEngine := s.eng g e
      let span : Nat := s.peSpan g e
      let hi : Nat := o / 64
      let decimated : Prop := s.sdOn g.val = true ∧ bits (s.sdCtl g.val) 1 2 = e.val
      s.peRuns g e = true ∧ d < 16 ∧ o < 256 ∧ x.div = 0 ∧ x.delay = 0 ∧ x.ahead = false ∧ x.full = false ∧
      s.peWord g e = 4096 * 4 + 256 * d + o ∧ peDefined (4096 * 4 + 256 * d + o) span = true ∧ (¬decimated) ∧ x.push = none ∧
      4 ≤ x.inq.length ∧ hi / 2 = 1) ∧
    (∃ (s : State) (g : Fin 8) (e : Fin 4) (d : Nat) (o : Nat) (w : Word) (r : List Word),
      let x : PeEngine := s.eng g e
      let span : Nat := s.peSpan g e
      s.peRuns g e = true ∧ d < 16 ∧ o < 256 ∧ x.div = 0 ∧ x.delay = 0 ∧ x.ahead = false ∧ x.full = false ∧
      s.peWord g e = 4096 * 5 + 256 * d + o ∧ peDefined (4096 * 5 + 256 * d + o) span = true ∧ x.outq = w :: r) ∧
    (∃ (s : State) (g : Fin 8) (e : Fin 4) (d : Nat) (o : Nat),
      let x : PeEngine := s.eng g e
      let span : Nat := s.peSpan g e
      let hi : Nat := o / 64
      s.peRuns g e = true ∧ d < 16 ∧ o < 256 ∧ x.div = 0 ∧ x.delay = 0 ∧ x.ahead = false ∧ x.full = false ∧
      s.peWord g e = 4096 * 5 + 256 * d + o ∧ peDefined (4096 * 5 + 256 * d + o) span = true ∧ x.outq = [] ∧ hi / 2 = 1) ∧
    (∃ (s : State) (g : Fin 8) (e : Fin 4) (d : Nat) (o : Nat),
      let x : PeEngine := s.eng g e
      let span : Nat := s.peSpan g e
      let hi : Nat := o / 64
      s.peRuns g e = true ∧ d < 16 ∧ o < 256 ∧ x.div = 0 ∧ x.delay = 0 ∧ x.ahead = false ∧ x.full = false ∧
      s.peWord g e = 4096 * 5 + 256 * d + o ∧ peDefined (4096 * 5 + 256 * d + o) span = true ∧ x.outq = [] ∧ hi / 2 = 0) :=
  ⟨⟨witEngineInstructionsExecute4, 2, 1, 3, 69, by decide +kernel⟩,
   ⟨witEngineInstructionsExecute5, 2, 1, 3, 149, by decide +kernel⟩,
   ⟨witEngineInstructionsExecute6, 2, 1, 3, 192, by decide +kernel⟩,
   ⟨witEngineInstructionsExecute10, 2, 1, 3, 0, by decide +kernel⟩,
   ⟨witEngineInstructionsExecute12, 2, 1, 3, 128, by decide +kernel⟩,
   ⟨witEngineInstructionsExecute13, 2, 1, 3, 128, 9, [(8 : Word)], by decide +kernel⟩,
   ⟨witEngineInstructionsExecute14, 2, 1, 3, 128, by decide +kernel⟩,
   ⟨witEngineInstructionsExecute15, 2, 1, 3, 0, by decide +kernel⟩⟩

theorem witness_EngineInstructionsExecute_3 :
    (∃ (s : State) (g : Fin 8) (e : Fin 4) (d : Nat) (o : Nat),
      let x : PeEngine := s.eng g e
      let span : Nat := s.peSpan g e
      let hi : Nat := o / 64
      s.peRuns g e = true ∧ d < 16 ∧ o < 256 ∧ x.div = 0 ∧ x.delay = 0 ∧ x.ahead = false ∧ x.full = false ∧
      s.peWord g e = 4096 * 6 + 256 * d + o ∧ peDefined (4096 * 6 + 256 * d + o) span = true ∧ hi = 3 ∧ o / 16 % 4 = 1) ∧
    (∃ (s : State) (g : Fin 8) (e : Fin 4) (d : Nat) (o : Nat),
      let x : PeEngine := s.eng g e
      let span : Nat := s.peSpan g e
      let hi : Nat := o / 64
      s.peRuns g e = true ∧ d < 16 ∧ o < 256 ∧ x.div = 0 ∧ x.delay = 0 ∧ x.ahead = false ∧ x.full = false ∧
      s.peWord g e = 4096 * 6 + 256 * d + o ∧ peDefined (4096 * 6 + 256 * d + o) span = true ∧ hi = 3 ∧ o / 16 % 4 = 2) ∧
    (∃ (s : State) (g : Fin 8) (e : Fin 4) (d : Nat) (o : Nat),
      let x : PeEngine := s.eng g e
      let span : Nat := s.peSpan g e
      let hi : Nat := o / 64
      s.peRuns g e = true ∧ d < 16 ∧ o < 256 ∧ x.div = 0 ∧ x.delay = 0 ∧ x.ahead = false ∧ x.full = false ∧
      s.peWord g e = 4096 * 6 + 256 * d + o ∧ peDefined (4096 * 6 + 256 * d + o) span = true ∧ hi = 2 ∧ o / 16 % 4 = 0) ∧
    (∃ (s : State) (g : Fin 8) (e : Fin 4) (d : Nat) (o : Nat),
      let x : PeEngine := s.eng g e
      let span : Nat := s.peSpan g e
      s.peRuns g e = true ∧ d < 16 ∧ o < 256 ∧ x.div = 0 ∧ x.delay = 0 ∧ x.ahead = false ∧ x.full = false ∧
      s.peWord g e = 4096 * 7 + 256 * d + o ∧ peDefined (4096 * 7 + 256 * d + o) span = true) ∧
    (∃ (s : State) (g : Fin 8) (e : Fin 4) (d : Nat) (o : Nat),
      let x : PeEngine := s.eng g e
      let span : Nat := s.peSpan g e
      s.peRuns g e = true ∧ d < 16 ∧ o < 256 ∧ x.div = 0 ∧ x.delay = 0 ∧ x.ahead = false ∧ x.full = false ∧
      s.peWord g e = 4096 * 8 + 256 * d + o ∧ peDefined (4096 * 8 + 256 * d + o) span = true) ∧
    (∃ (s : State) (g : Fin 8) (e : Fin 4) (d : Nat) (o : Nat),
      let x : PeEngine := s.eng g e
      let span : Nat := s.peSpan g e
      let hi : Nat := o / 64
      s.peRuns g e = true ∧ d < 16 ∧ o < 256 ∧ x.div = 0 ∧ x.delay = 0 ∧ x.ahead = false ∧ x.full = false ∧
      s.peWord g e = 4096 * 9 + 256 * d + o ∧ peDefined (4096 * 9 + 256 * d + o) span = true ∧ (s.pg g).setF = (0 : BitVec 8) ∧ hi = 1) ∧
    (∃ (s : State) (g : Fin 8) (e : Fin 4) (d : Nat) (o : Nat),
      let x : PeEngine := s.eng g e
      let span : Nat := s.peSpan g e
      let hi : Nat := o / 64
      s.peRuns g e = true ∧ d < 16 ∧ o < 256 ∧ x.div = 0 ∧ x.delay = 0 ∧ x.ahead = false ∧ x.full = false ∧
      s.peWord g e = 4096 * 9 + 256 * d + o ∧ peDefined (4096 * 9 + 256 * d + o) span = true ∧ (s.pg g).setF = (0 : BitVec 8) ∧ hi = 2) ∧
    (∃ (s : State) (g : Fin 8) (e : Fin 4) (d : Nat) (o : Nat),
      let x : PeEngine := s.eng g e
      let span : Nat := s.peSpan g e
      s.peRuns g e = true ∧ d < 16 ∧ o < 256 ∧ x.div = 0 ∧ x.delay = 0 ∧ x.ahead = false ∧ x.full = false ∧
      s.peWord g e = 4096 * 10 + 256 * d + o ∧ peDefined (4096 * 10 + 256 * d + o) span = true) :=
  ⟨⟨witEngineInstructionsExecute21, 2, 1, 3, 208, by decide +kernel⟩,
   ⟨witEngineInstructionsExecute26, 2, 1, 3, 224, by decide +kernel⟩,
   ⟨witEngineInstructionsExecute31, 2, 1, 3, 129, by decide +kernel⟩,
   ⟨witEngineInstructionsExecute32, 2, 1, 3, 1, by decide +kernel⟩,
   ⟨witEngineInstructionsExecute36, 2, 1, 3, 7, by decide +kernel⟩,
   ⟨witEngineInstructionsExecute42, 2, 1, 3, 67, by decide +kernel⟩,
   ⟨witEngineInstructionsExecute43, 2, 1, 3, 131, by decide +kernel⟩,
   ⟨witEngineInstructionsExecute44, 2, 1, 3, 0, by decide +kernel⟩⟩

theorem witness_EngineInstructionsExecute_4 :
    (∃ (s : State) (g : Fin 8) (e : Fin 4) (d : Nat) (o : Nat),
      let x : PeEngine := s.eng g e
      let span : Nat := s.peSpan g e
      s.peRuns g e = true ∧ d < 16 ∧ o < 256 ∧ x.div = 0 ∧ x.delay = 0 ∧ x.ahead = false ∧ x.full = false ∧
      s.peWord g e = 4096 * 1 + 256 * d + o ∧ peDefined (4096 + 256 * d + o) span = false) :=
  ⟨witEngineInstructionsExecute45, 2, 1, 3, 193, by decide +kernel⟩

def witEngineGroupsObeyTheirControls0 : State := eg 4 0 0 (fun x => {x with inq := [9,8], full := true})
def witEngineGroupsObeyTheirControls2 : State := (eg 1 0 0 (fun x => {x with run := false, inq := [9,8]}))
def witEngineGroupsObeyTheirControls3 : State := (eg 1 0 0 id (oz 2))

theorem witness_EngineGroupsObeyTheirControls :
    (∃ (s : State) (m : Master) (x : Ctx) (g : Fin 8) (e : Fin 4) (h : ReqHdr) (y : Session) (q : List Byte),
      let k : PeEngine := s.eng g e
      let p : PeGroup := s.pg g
      let quiet : Prop := p.setIn = (0 : BitVec 8) ∧ p.clrIn = (0 : BitVec 8) ∧ p.setF = (0 : BitVec 8)
      s.enters m true x (pgRegs g) ∧ s.serves h y 773 q ∧ s.enters m false x (pgRegs g) ∧ s.domReady (68 + g.val) = true ∧
      s.unitMay x (48 + g.val) = true ∧ (s.pg g).ctl = [] ∧ (BitVec.ofNat 4 0).getLsbD e.val = false ∧ quiet ∧ s.pgRuns g = true ∧
      s.peEn g e = true ∧ k.run = true ∧ g.val = min 7 (u8 q 0) ∧ 4 ≤ q.length ∧ u8 q 1 + (q.length - 2) / 2 ≤ 48 ∧ k.inq = [] ∧
      (BitVec.ofNat 4 63).getLsbD e.val = true) ∧
    (∃ (s : State) (m : Master) (x : Ctx) (g : Fin 8) (e : Fin 4) (w : Word) (r : List Word),
      let k : PeEngine := s.eng g e
      s.enters m true x (pgRegs g) ∧ s.enters m false x (pgRegs g) ∧ s.domReady (68 + g.val) = true ∧ s.unitMay x (48 + g.val) = true ∧
      s.pgRuns g = false ∧ k.inq = w :: r ∧ k.full = false) ∧
    (∃ (s : State) (m : Master) (x : Ctx) (g : Fin 8) (e : Fin 4) (w : Word) (r : List Word),
      let k : PeEngine := s.eng g e
      s.enters m false x (pgRegs g) ∧ s.domReady (68 + g.val) = true ∧ k.inq = w :: r ∧ k.full = true) ∧
    (∃ (s : State) (m : Master) (x : Ctx) (g : Fin 8),
      s.enters m true x (pgRegs g) ∧ s.domReady (68 + g.val) = true ∧ s.unitMay x (48 + g.val) = false) :=
  ⟨⟨witEngineGroupsObeyTheirControls3, Master.sc, scCtx, 2, 1, h0, y0, [2,46,1,2,3,4], by unfold State.enters; decide +kernel,
    serves_of (by decide +kernel), by unfold State.enters; decide +kernel, by decide +kernel⟩,
   ⟨witEngineGroupsObeyTheirControls2, Master.sc, scCtx, 2, 1, 9, [(8 : Word)], by unfold State.enters; decide +kernel,
    by unfold State.enters; decide +kernel, by decide +kernel⟩,
   ⟨witEngineGroupsObeyTheirControls0, Master.sc, scCtx, 2, 1, 9, [(8 : Word)], by unfold State.enters; decide +kernel,
    by decide +kernel⟩,
   ⟨c5, (Master.core 5), (ctx c5 (.core 5)), 2, by unfold State.enters; decide +kernel, by decide +kernel⟩⟩

def witPairModesChangeAtTicks1 : State := pr 6 id (R.setMode 2)
def witPairModesChangeAtTicks3 : State := R.setMode 2
def witPairModesChangeAtTicks4 : State := pr 0 (fun p => {p with mode := 1}) (R.setMode 5)
def witPairModesChangeAtTicks5 : State := pr 2 (fun p => {p with next := some 1}) {c5 with mem := [⟨0x04000000+6*0x40000+5, 7⟩, ⟨0x04000000+7*0x40000+6, 7⟩, ⟨0x04000000+8*0x40000, 9⟩]}
def witPairModesChangeAtTicks6 : State := pr 3 (fun p => {p with next := some 2, sluice := [.store 0 1 2 false false]}) {c5 with holdRed := 0x7F}
def witPairModesChangeAtTicks7 : State := pr 3 (fun p => {p with next := some 2, haltAt := some 3}) {c5 with holdRed := 0x7F}
def witPairModesChangeAtTicks8 : State := pr 0 (fun p => {p with next := some 0, mode := 2}) {c5 with holdRed := 0x7F}

theorem witness_PairModesChangeAtTicks :
    (∃ (s : State) (m : Master) (x : Ctx) (k : Fin 16) (md : Fin 3),
      let p : PairState := s.pair k
      let a : Nat := s.mainOf k
      let b : Nat := s.checkerOf k
      s.enters m true x [rRmPair k.val 0] ∧ a < 36 ∧ b < 36 ∧ a ≠ b ∧ x.free = true ∧ s.domReady 84 = true ∧ s.mode ≠ 2 ∧ s.mode ≠ 5 ∧
      (s.pairSt k ≠ 2 ∨ s.notYet (Instr.stateCopyEnd k) = true) ∧ p.next = some md ∧ md ≠ (0 : Fin 3) ∧ s.pairSt k = 3 ∧
      p.haltAt = none ∧ (s.core (coreId a)).run = RunState.halted ∧ s.domReady a = true) ∧
    (∃ (s : State) (m : Master) (x : Ctx) (k : Fin 16),
      let p : PairState := s.pair k
      let a : Nat := s.mainOf k
      let b : Nat := s.checkerOf k
      s.enters m true x [rRmPair k.val 0] ∧ a < 36 ∧ b < 36 ∧ a ≠ b ∧ x.free = true ∧ s.domReady 84 = true ∧ (s.mode = 2 ∨ s.mode = 5) ∧
      s.pairSt k = 6 ∧ p.next = none) ∧
    (∃ (s : State) (k : Fin 16),
      let p : PairState := s.pair k
      let a : Nat := s.mainOf k
      let b : Nat := s.checkerOf k
      a < 36 ∧ b < 36 ∧ a ≠ b ∧ p.next = some (0 : Fin 3) ∧ (s.pairSt k = 0 ∨ s.pairSt k = 4 ∨ s.pairSt k = 5)) ∧
    (∃ (s : State) (m : Master) (x : Ctx) (k : Fin 16) (v : Word) (md : Fin 3),
      let p : PairState := s.pair k
      let a : Nat := s.mainOf k
      let b : Nat := s.checkerOf k
      s.enters m true x [rRmPair k.val 0] ∧ a < 36 ∧ b < 36 ∧ a ≠ b ∧ x.free = true ∧ s.domReady 84 = true ∧ (s.mode = 2 ∨ s.mode = 5) ∧
      s.pairSt k ≠ 6 ∧ bits v 0 2 = md.val ∧ md ≠ (0 : Fin 3) ∧ p.mode = (0 : Fin 3) ∧ p.next = none ∧
      (∀ (j : Fin 16), (s.pair j).act = none) ∧ s.roleFit a = true ∧ s.roleFit b = true) ∧
    (∃ (s : State) (m : Master) (x : Ctx) (k : Fin 16) (v : Word),
      let p : PairState := s.pair k
      let a : Nat := s.mainOf k
      let b : Nat := s.checkerOf k
      s.enters m true x [rRmPair k.val 0] ∧ a < 36 ∧ b < 36 ∧ a ≠ b ∧ x.free = true ∧ s.domReady 84 = true ∧ (s.mode = 2 ∨ s.mode = 5) ∧
      s.pairSt k ≠ 6 ∧ bits v 0 2 % 3 = 0 ∧ p.mode ≠ (0 : Fin 3)) ∧
    (∃ (s : State) (k : Fin 16),
      let a : Nat := s.mainOf k
      let b : Nat := s.checkerOf k
      a < 36 ∧ b < 36 ∧ a ≠ b ∧ s.pairSt k = 2 ∧ s.notYet (Instr.stateCopyEnd k) = false ∧ s.roleFit b = true ∧ s.ecc = [] ∧
      s.poison = [] ∧ Memory.wf s.mem = true) ∧
    (∃ (s : State) (k : Fin 16) (md : Fin 3),
      let p : PairState := s.pair k
      let a : Nat := s.mainOf k
      let b : Nat := s.checkerOf k
      a < 36 ∧ b < 36 ∧ a ≠ b ∧ p.next = some md ∧ md ≠ (0 : Fin 3) ∧ s.pairSt k = 3 ∧ p.haltAt.isSome = true) ∧
    (∃ (s : State) (m : Master) (x : Ctx) (k : Fin 16),
      let a : Nat := s.mainOf k
      let b : Nat := s.checkerOf k
      s.enters m true x [rRmPair k.val 0] ∧ a < 36 ∧ b < 36 ∧ a ≠ b ∧ x.free = false ∧ s.domReady 84 = true) :=
  ⟨⟨witPairModesChangeAtTicks6, Master.sc, scCtx, 3, 2, by unfold State.enters; decide +kernel, by decide +kernel⟩,
   ⟨witPairModesChangeAtTicks1, Master.sc, scCtx, 3, by unfold State.enters; decide +kernel, by decide +kernel⟩,
   ⟨witPairModesChangeAtTicks8, 3, by decide +kernel⟩,
   ⟨witPairModesChangeAtTicks3, Master.sc, scCtx, 3, 0x0101, 1, by unfold State.enters; decide +kernel, by decide +kernel⟩,
   ⟨witPairModesChangeAtTicks4, Master.sc, scCtx, 3, 0xFF03, by unfold State.enters; decide +kernel, by decide +kernel⟩,
   ⟨witPairModesChangeAtTicks5, 3, by decide +kernel⟩,
   ⟨witPairModesChangeAtTicks7, 3, 2, by decide +kernel⟩,
   ⟨c5, (Master.core 5), (ctx c5 (.core 5)), 3, by unfold State.enters; decide +kernel, by decide +kernel⟩⟩

def witMismatchesLeadToTriageAndRecovery0 : State := {R with due := [(9, .checkpointCompare 3), (9, .sluiceTimeout 3)]}
def witMismatchesLeadToTriageAndRecovery1 : State := pr 1 (fun p => {p with mode := 1, twin := 3, act := some (700, .triage)})
def witMismatchesLeadToTriageAndRecovery2 : State := pr 4 (fun p => {p with mode := 1, ckM := [⟨1,5,77⟩, ⟨0,6,5⟩], ckC := [⟨1,5,77⟩]}) (both (fun k => {k with run := .running, pc := 0x40}))
def witMismatchesLeadToTriageAndRecovery4 : State := pr 0 (fun p => {p with mode := 1, ckM := [⟨1,5,77⟩, ⟨0,6,5⟩], ckC := []}) (both (fun k => {k with run := .running, pc := 0x40}))
def witMismatchesLeadToTriageAndRecovery5 : State := pr 0 (fun p => {p with mode := 1, ckM := [⟨1,5,77⟩, ⟨0,6,5⟩], ckC := [⟨1,6,77⟩]}) (both (fun k => {k with run := .running, pc := 0x40}))
def witMismatchesLeadToTriageAndRecovery6 : State := pr 0 (fun p => {p with mode := 1, ckM := [⟨1,5,77⟩, ⟨0,6,5⟩], ckC := [⟨1,5,78⟩]}) (both (fun k => {k with run := .running, pc := 0x40}))
def witMismatchesLeadToTriageAndRecovery7 : State := pr 0 (fun p => {p with mode := 2, sluice := [.store 0 1 2 false false]}) (both (fun k => {k with run := .running, pc := 0x40}))
def witMismatchesLeadToTriageAndRecovery8 : State := pr 1 (fun p => {p with mode := 1, act := some (0, .triage)}) ({both (fun k => {k with run := .running, pc := 0x40}) with holdRed := 0x40})
def witMismatchesLeadToTriageAndRecovery9 : State := (pr 1 (fun p => {p with mode := 1, act := some (0, .triage)}) ({both (fun k => {k with run := .running, pc := 0x40}) with holdRed := 0x40})).setFld (rRmPair 3 8) 10 2 2
def witMismatchesLeadToTriageAndRecovery10 : State := (pr 1 (fun p => {p with mode := 1, act := some (0, .triage)}) ({both (fun k => {k with run := .running, pc := 0x40}) with holdRed := 0x40})).setRg rRmSpare 0
def witMismatchesLeadToTriageAndRecovery11 : State := ((pr 1 (fun p => {p with mode := 1, act := some (0, .triage)}) ({both (fun k => {k with run := .running, pc := 0x40}) with holdRed := 0x40})).setRg rRmSpare 0).setFlag rRmCtl 16 true
def witMismatchesLeadToTriageAndRecovery13 : State := pr 3 (fun p => {p with mode := 1, recovery := true}) (R.setRg (rRmPair 3 4) 0x1230)
def witMismatchesLeadToTriageAndRecovery14 : State := pr 5 (fun p => {p with mode := 1, recovery := true}) (R.setRg (rRmPair 3 4) 0x1230)
def witMismatchesLeadToTriageAndRecovery15 : State := R.fence 6
def witMismatchesLeadToTriageAndRecovery16 : State := {R.fence 6 with cycled := 0x40}
def witMismatchesLeadToTriageAndRecovery17 : State := {R.fence 6 with cycled := 0x40, tested := 0x40}
def witMismatchesLeadToTriageAndRecovery18 : State := {R.fence 33 with cycled := 0x200000000, tested := 0x200000000}

theorem witness_MismatchesLeadToTriageAndRecovery :
    (∃ (s : State) (m : Master) (x : Ctx) (k : Fin 16) (n : Fin 36) (sp : Nat),
      let p : PairState := s.pair k
      let a : Nat := s.mainOf k
      let b : Nat := s.checkerOf k
      let st : Nat := rRmPair k.val 8
      s.enters m true x [rRmReadmit] ∧ a < 36 ∧ b < 36 ∧ a ≠ b ∧ s.domReady 84 = true ∧ s.notYet (Instr.checkpointCompare k) = false ∧
      s.notYet (Instr.sluiceTimeout k) = false ∧ p.sluice = [] ∧ s.triageOver k = true ∧
      (∀ (j : Fin 16), j ≠ k → (s.pair j).act = none) ∧ (s.core (coreId a)).run ≠ RunState.lockup ∧
      (s.core (coreId b)).run ≠ RunState.lockup ∧ s.fld st 10 2 < 2 ∧ (s.fence b).spareFor k = some sp ∧ sp < 36 ∧ 32 ≤ sp ∧
      (s.fence a).spareFor k = some sp ∧ p.recovery = false ∧ p.twin = 0 ∧ x.free = true ∧ s.fenced n.val = false) ∧
    (∃ (s : State) (k : Fin 16),
      let a : Nat := s.mainOf k
      let b : Nat := s.checkerOf k
      a < 36 ∧ b < 36 ∧ a ≠ b ∧ s.domReady 84 = true ∧ s.notYet (Instr.checkpointCompare k) = true ∧
      s.notYet (Instr.sluiceTimeout k) = true ∧ s.triageOver k = false) ∧
    (∃ (s : State) (k : Fin 16) (e : Nat),
      let p : PairState := s.pair k
      let a : Nat := s.mainOf k
      let b : Nat := s.checkerOf k
      a < 36 ∧ b < 36 ∧ a ≠ b ∧ s.domReady 84 = true ∧ p.act = some (e, PairAct.triage) ∧ s.now < e ∧ p.twin ≠ 0) ∧
    (∃ (s : State) (m : Master) (x : Ctx) (k : Fin 16) (n : Fin 36),
      let a : Nat := s.mainOf k
      let b : Nat := s.checkerOf k
      s.enters m true x [rRmReadmit] ∧ a < 36 ∧ b < 36 ∧ a ≠ b ∧ s.domReady 84 = true ∧ x.free = true ∧ s.fenced n.val = true ∧
      s.cycled.getLsbD n.val = true ∧ s.tested.getLsbD n.val = true ∧ n.val < 32) ∧
    (∃ (s : State) (k : Fin 16) (c : Checkpoint) (cs : List Checkpoint) (ds : List Checkpoint),
      let p : PairState := s.pair k
      let a : Nat := s.mainOf k
      let b : Nat := s.checkerOf k
      a < 36 ∧ b < 36 ∧ a ≠ b ∧ s.domReady 84 = true ∧ s.notYet (Instr.checkpointCompare k) = false ∧
      s.notYet (Instr.sluiceTimeout k) = false ∧ p.ckM = c :: cs ∧ p.ckC = c :: ds) ∧
    (∃ (s : State) (k : Fin 16) (c : Checkpoint) (cs : List Checkpoint),
      let p : PairState := s.pair k
      let a : Nat := s.mainOf k
      let b : Nat := s.checkerOf k
      a < 36 ∧ b < 36 ∧ a ≠ b ∧ s.domReady 84 = true ∧ s.notYet (Instr.checkpointCompare k) = false ∧
      s.notYet (Instr.sluiceTimeout k) = false ∧ p.ckM = c :: cs ∧ p.ckC = []) ∧
    (∃ (s : State) (k : Fin 16) (c : Checkpoint) (d : Checkpoint) (cs : List Checkpoint) (ds : List Checkpoint),
      let p : PairState := s.pair k
      let a : Nat := s.mainOf k
      let b : Nat := s.checkerOf k
      a < 36 ∧ b < 36 ∧ a ≠ b ∧ s.domReady 84 = true ∧ s.notYet (Instr.checkpointCompare k) = false ∧
      s.notYet (Instr.sluiceTimeout k) = false ∧ p.ckM = c :: cs ∧ p.ckC = d :: ds ∧ (c.kind ≠ d.kind ∨ c.count ≠ d.count)) ∧
    (∃ (s : State) (k : Fin 16) (c : Checkpoint) (d : Checkpoint) (cs : List Checkpoint) (ds : List Checkpoint),
      let p : PairState := s.pair k
      let a : Nat := s.mainOf k
      let b : Nat := s.checkerOf k
      a < 36 ∧ b < 36 ∧ a ≠ b ∧ s.domReady 84 = true ∧ s.notYet (Instr.checkpointCompare k) = false ∧
      s.notYet (Instr.sluiceTimeout k) = false ∧ p.ckM = c :: cs ∧ p.ckC = d :: ds ∧ c.kind = d.kind ∧ c.count = d.count ∧ c.sig ≠ d.sig) :=
  ⟨⟨witMismatchesLeadToTriageAndRecovery8, Master.sc, scCtx, 3, 6, 32, by unfold State.enters; decide +kernel, by decide +kernel⟩,
   ⟨witMismatchesLeadToTriageAndRecovery0, 3, by decide +kernel⟩,
   ⟨witMismatchesLeadToTriageAndRecovery1, 3, 700, by decide +kernel⟩,
   ⟨witMismatchesLeadToTriageAndRecovery17, Master.sc, scCtx, 3, 6, by unfold State.enters; decide +kernel, by decide +kernel⟩,
   ⟨witMismatchesLeadToTriageAndRecovery2, 3, ⟨1, 5, 77⟩, [⟨0, 6, 5⟩], [], by decide +kernel⟩,
   ⟨witMismatchesLeadToTriageAndRecovery4, 3, ⟨1, 5, 77⟩, [⟨0, 6, 5⟩], by decide +kernel⟩,
   ⟨witMismatchesLeadToTriageAndRecovery5, 3, ⟨1, 5, 77⟩, ⟨1,6,77⟩, [⟨0, 6, 5⟩], [], by decide +kernel⟩,
   ⟨witMismatchesLeadToTriageAndRecovery6, 3, ⟨1, 5, 77⟩, ⟨1,5,78⟩, [⟨0, 6, 5⟩], [], by decide +kernel⟩⟩

theorem witness_MismatchesLeadToTriageAndRecovery_2 :
    (∃ (s : State) (k : Fin 16),
      let p : PairState := s.pair k
      let a : Nat := s.mainOf k
      let b : Nat := s.checkerOf k
      a < 36 ∧ b < 36 ∧ a ≠ b ∧ s.domReady 84 = true ∧ s.notYet (Instr.checkpointCompare k) = false ∧
      s.notYet (Instr.sluiceTimeout k) = false ∧ p.sluice ≠ []) ∧
    (∃ (s : State) (k : Fin 16),
      let a : Nat := s.mainOf k
      let b : Nat := s.checkerOf k
      let st : Nat := rRmPair k.val 8
      a < 36 ∧ b < 36 ∧ a ≠ b ∧ s.domReady 84 = true ∧ s.triageOver k = true ∧ (∀ (j : Fin 16), j ≠ k → (s.pair j).act = none) ∧
      (s.core (coreId a)).run ≠ RunState.lockup ∧ (s.core (coreId b)).run ≠ RunState.lockup ∧ 2 ≤ s.fld st 10 2) ∧
    (∃ (s : State) (k : Fin 16),
      let a : Nat := s.mainOf k
      let b : Nat := s.checkerOf k
      a < 36 ∧ b < 36 ∧ a ≠ b ∧ s.domReady 84 = true ∧ s.triageOver k = true ∧ (∀ (j : Fin 16), j ≠ k → (s.pair j).act = none) ∧
      (s.core (coreId a)).run ≠ RunState.lockup ∧ (s.core (coreId b)).run ≠ RunState.lockup ∧ (s.fence b).spareFor k = none ∧
      s.flag rRmCtl 16 = false) ∧
    (∃ (s : State) (k : Fin 16),
      let a : Nat := s.mainOf k
      let b : Nat := s.checkerOf k
      a < 36 ∧ b < 36 ∧ a ≠ b ∧ s.domReady 84 = true ∧ s.triageOver k = true ∧ (∀ (j : Fin 16), j ≠ k → (s.pair j).act = none) ∧
      (s.core (coreId a)).run ≠ RunState.lockup ∧ (s.core (coreId b)).run ≠ RunState.lockup ∧ (s.fence b).spareFor k = none ∧
      s.flag rRmCtl 16 = true) ∧
    (∃ (s : State) (k : Fin 16),
      let p : PairState := s.pair k
      let a : Nat := s.mainOf k
      let b : Nat := s.checkerOf k
      a < 36 ∧ b < 36 ∧ a ≠ b ∧ s.domReady 84 = true ∧ p.recovery = true ∧ s.pairSt k = 3 ∧ (s.core (coreId a)).run ≠ RunState.lockup ∧
      (s.core (coreId b)).run ≠ RunState.lockup) ∧
    (∃ (s : State) (k : Fin 16),
      let p : PairState := s.pair k
      let a : Nat := s.mainOf k
      let b : Nat := s.checkerOf k
      a < 36 ∧ b < 36 ∧ a ≠ b ∧ s.domReady 84 = true ∧ p.recovery = true ∧ s.pairSt k = 5 ∧ (s.core (coreId a)).run ≠ RunState.lockup) ∧
    (∃ (s : State) (m : Master) (x : Ctx) (k : Fin 16) (n : Fin 36),
      let a : Nat := s.mainOf k
      let b : Nat := s.checkerOf k
      s.enters m true x [rRmReadmit] ∧ a < 36 ∧ b < 36 ∧ a ≠ b ∧ s.domReady 84 = true ∧ x.free = true ∧ s.fenced n.val = true ∧
      s.cycled.getLsbD n.val = false) ∧
    (∃ (s : State) (m : Master) (x : Ctx) (k : Fin 16) (n : Fin 36),
      let a : Nat := s.mainOf k
      let b : Nat := s.checkerOf k
      s.enters m true x [rRmReadmit] ∧ a < 36 ∧ b < 36 ∧ a ≠ b ∧ s.domReady 84 = true ∧ x.free = true ∧ s.fenced n.val = true ∧
      s.cycled.getLsbD n.val = true ∧ s.tested.getLsbD n.val = false) :=
  ⟨⟨witMismatchesLeadToTriageAndRecovery7, 3, by decide +kernel⟩,
   ⟨witMismatchesLeadToTriageAndRecovery9, 3, by decide +kernel⟩,
   ⟨witMismatchesLeadToTriageAndRecovery10, 3, by decide +kernel⟩,
   ⟨witMismatchesLeadToTriageAndRecovery11, 3, by decide +kernel⟩,
   ⟨witMismatchesLeadToTriageAndRecovery13, 3, by decide +kernel⟩,
   ⟨witMismatchesLeadToTriageAndRecovery14, 3, by decide +kernel⟩,
   ⟨witMismatchesLeadToTriageAndRecovery15, Master.sc, scCtx, 3, 6, by unfold State.enters; decide +kernel, by decide +kernel⟩,
   ⟨witMismatchesLeadToTriageAndRecovery16, Master.sc, scCtx, 3, 6, by unfold State.enters; decide +kernel, by decide +kernel⟩⟩

theorem witness_MismatchesLeadToTriageAndRecovery_3 :
    (∃ (s : State) (m : Master) (x : Ctx) (k : Fin 16) (n : Fin 36),
      let a : Nat := s.mainOf k
      let b : Nat := s.checkerOf k
      s.enters m true x [rRmReadmit] ∧ a < 36 ∧ b < 36 ∧ a ≠ b ∧ s.domReady 84 = true ∧ x.free = true ∧ s.fenced n.val = true ∧
      s.cycled.getLsbD n.val = true ∧ s.tested.getLsbD n.val = true ∧ 32 ≤ n.val) ∧
    (∃ (s : State) (m : Master) (x : Ctx) (k : Fin 16),
      let a : Nat := s.mainOf k
      let b : Nat := s.checkerOf k
      s.enters m true x [rRmReadmit] ∧ a < 36 ∧ b < 36 ∧ a ≠ b ∧ s.domReady 84 = true ∧ x.free = false) :=
  ⟨⟨witMismatchesLeadToTriageAndRecovery18, Master.sc, scCtx, 3, 33, by unfold State.enters; decide +kernel, by decide +kernel⟩,
   ⟨c5, (Master.core 5), (ctx c5 (.core 5)), 3, by unfold State.enters; decide +kernel, by decide +kernel⟩⟩

def witSessionModeAndSetCommandsAct0 : State := jb [⟨4,.burn,true,0,[]⟩]
def witSessionModeAndSetCommandsAct3 : State := oz 5
def witSessionModeAndSetCommandsAct5 : State := shd (act oz 5 64 0x80) 5 64 0x280
def witSessionModeAndSetCommandsAct6 : State := oz 2 (sw 0)
def witSessionModeAndSetCommandsAct7 : State := oz 2 (sw 1)
def witSessionModeAndSetCommandsAct8 : State := oz 2 (sw 2)
def witSessionModeAndSetCommandsAct11 : State := {oz 3 with holdOvr := 0x1FFFFFFFFF, holdNew := 5}
def witSessionModeAndSetCommandsAct12 : State := {oz with due := [(9, .assemblyTimeout), (9, .sessionTimeout 3)]}

theorem witness_SessionModeAndSetCommandsAct :
    (∃ (s : State) (h : ReqHdr) (y : Session) (p : List Byte) (d : List Byte) (n : BitVec 8) (bufs : Nat),
      let offer : Nat := u8 p 0 % 8
      let gen : Nat := if offer.testBit 2 = true then 3 else if offer.testBit 1 = true then 2 else 1
      s.serves h y 1 p ∧ s.serves h y 2 p ∧ s.serves h y 256 p ∧ s.serves h y 516 p ∧ s.serves h y 517 p ∧ s.serves h y 518 p ∧
      s.serves h y 2 d ∧ s.shadowLocked = false ∧ (s.sess n).isSome = true ∧ s.notYet (Instr.sessionTimeout n) = false ∧
      s.notYet Instr.assemblyTimeout = false ∧ y.auth = !y.key.isEmpty ∧ 1 ≤ y.gen ∧ y.gen ≤ 3 ∧ d.length ≤ maxLen y.gen ∧ bufs < 256 ∧
      y.fresh h.seq = true ∧ y.open_ < y.limit ∧ s.spihSlots < 16 ∧ s.ozOn = true ∧ p.length < 16) ∧
    (∃ (s : State) (h : ReqHdr) (y : Session) (p : List Byte) (n : BitVec 8),
      let m : Nat := u8 p 0
      s.serves h y 3 p ∧ s.serves h y 257 p ∧ s.serves h y 259 p ∧ List.find? (fun j ↦ j.num.toNat == m) s.oz.jobs = none ∧
      (m = 0 ∨ 5 < m) ∧ s.modeAllowed 0 = true ∧ (s.sess n = none ∨ s.notYet (Instr.sessionTimeout n) = true) ∧
      s.notYet Instr.assemblyTimeout = true) ∧
    (∃ (s : State) (h : ReqHdr) (y : Session) (p : List Byte),
      let ty : Nat := u8 p 0
      let count : Nat := u16 p 2
      let off : Nat := u32 p 4
      s.serves h y 512 p ∧ s.serves h y 513 p ∧ s.shadowLocked = false ∧ s.oz.load = none ∧ u32 p 0 ≠ 0 ∧ setRangeOk ty off count = true) ∧
    (∃ (s : State) (h : ReqHdr) (p : List Byte) (i : Fin 8),
      let offer : Nat := u8 p 0 % 8
      s.ozOn = true ∧ s.oz.wait = none ∧ s.oz.queue = [] ∧ h.session = (0 : BitVec 8) ∧ s.opCheck 1 true 0 p = none ∧
      s.oz.sessions[i] = none ∧ (∀ (j : Fin 8), j < i → s.oz.sessions[j].isSome = true) ∧ offer ≠ 0 ∧ u8 p 1 = 255) ∧
    (∃ (s : State) (h : ReqHdr) (y : Session) (p : List Byte) (j : Job),
      let m : Nat := u8 p 0
      s.serves h y 3 p ∧ s.serves h y 257 p ∧ List.find? (fun j ↦ j.num.toNat == m) s.oz.jobs = some j ∧ 2 ≤ m ∧ m ≤ 5 ∧ s.mode ≠ m ∧
      s.modeAllowed m = true) ∧
    (∃ (s : State) (h : ReqHdr) (p : List Byte) (i : Fin 8),
      let offer : Nat := u8 p 0 % 8
      s.ozOn = true ∧ s.oz.wait = none ∧ s.oz.queue = [] ∧ h.session = (0 : BitVec 8) ∧ s.opCheck 1 true 0 p = none ∧
      s.oz.sessions[i] = none ∧ (∀ (j : Fin 8), j < i → s.oz.sessions[j].isSome = true) ∧ offer = 0) ∧
    (∃ (s : State) (h : ReqHdr) (y : Session) (p : List Byte),
      let m : Nat := u8 p 0
      s.serves h y 257 p ∧ 2 ≤ m ∧ m ≤ 5 ∧ s.mode = m) ∧
    (∃ (s : State) (h : ReqHdr) (y : Session) (p : List Byte),
      let total : Nat := u32 p 4
      let chunk : List Byte := List.drop 8 p
      s.serves h y 512 p ∧ s.shadowLocked = false ∧ s.oz.load = none ∧ u32 p 0 = 0 ∧ total ≤ 102400 ∧ chunk.length < total) :=
  ⟨⟨oz, h0, y0, [], [1,2,3], 3, 7, serves_of (by decide +kernel), serves_of (by decide +kernel), serves_of (by decide +kernel),
    serves_of (by decide +kernel), serves_of (by decide +kernel), serves_of (by decide +kernel), serves_of (by decide +kernel),
    by decide +kernel⟩,
   ⟨witSessionModeAndSetCommandsAct12, h0, y0, [6], 3, serves_of (by decide +kernel), serves_of (by decide +kernel),
    serves_of (by decide +kernel), by decide +kernel⟩,
   ⟨oz, h0, y0, ([5,0]++nb 2 2 ++ nb 4 64 ++ nb 4 0xFFFFFFFF ++ nb 4 7), serves_of (by decide +kernel), serves_of (by decide +kernel),
    by decide +kernel⟩,
   ⟨ozH, ({h0 with session := 0}), ([7, 0xFF]++List.replicate 16 0), 1, by decide +kernel⟩,
   ⟨witSessionModeAndSetCommandsAct0, h0, y0, [4], ⟨4,.burn,true,0,[]⟩, serves_of (by decide +kernel), serves_of (by decide +kernel),
    by decide +kernel⟩,
   ⟨ozH, ({h0 with session := 0}), ([0, 0xFF]++List.replicate 16 0), 1, by decide +kernel⟩,
   ⟨oz, h0, y0, [2], serves_of (by decide +kernel), by decide +kernel⟩,
   ⟨oz, h0, y0, (nb 4 0 ++ nb 4 40 ++ [1,2,3,4]), serves_of (by decide +kernel), by decide +kernel⟩⟩

theorem witness_SessionModeAndSetCommandsAct_2 :
    (∃ (s : State) (h : ReqHdr) (y : Session) (p : List Byte),
      let offer : Nat := u8 p 0 % 8
      let gen : Nat := if offer.testBit 2 = true then 3 else if offer.testBit 1 = true then 2 else 1
      let count : Nat := u16 p 2
      let off : Nat := u32 p 4
      s.serves h y 514 p ∧ setRangeOk (u8 p 1) off count = true ∧ 4 * count ≤ maxLen y.gen) ∧
    (∃ (s : State) (h : ReqHdr) (y : Session) (p : List Byte),
      let dist : Nat := BitVec.toNat (w32 p 0 - s.rg rFrameNum)
      s.serves h y 515 p ∧ s.shadowLocked = false ∧ s.flag rFrameCtl 24 = true ∧ 0 < dist ∧ dist < 2 ^ 31) ∧
    (∃ (s : State) (h : ReqHdr) (y : Session) (p : List Byte),
      s.serves h y 515 p ∧ s.shadowLocked = true) ∧
    (∃ (s : State) (h : ReqHdr) (y : Session) (p : List Byte),
      s.serves h y 518 p ∧ s.shadowLocked = true) ∧
    (∃ (s : State) (h : ReqHdr) (y : Session) (p : List Byte) (d : List Byte) (bufs : Nat),
      let offer : Nat := u8 p 0 % 8
      let gen : Nat := if offer.testBit 2 = true then 3 else if offer.testBit 1 = true then 2 else 1
      s.serves h y 2 d ∧ y.auth = !y.key.isEmpty ∧ 1 ≤ y.gen ∧ y.gen ≤ 3 ∧ d.length ≤ maxLen y.gen ∧ bufs < 256 ∧ y.fresh h.seq = false) ∧
    (∃ (s : State),
      s.ozOn = false) ∧
    (∃ (s : State) (h : ReqHdr) (p : List Byte) (i : Fin 8) (key : List Byte),
      let offer : Nat := u8 p 0 % 8
      let gen : Nat := if offer.testBit 2 = true then 3 else if offer.testBit 1 = true then 2 else 1
      s.ozOn = true ∧ s.oz.wait = none ∧ s.oz.queue = [] ∧ h.session = (0 : BitVec 8) ∧ s.opCheck 1 true 0 p = none ∧
      s.oz.sessions[i] = none ∧ (∀ (j : Fin 8), j < i → s.oz.sessions[j].isSome = true) ∧ offer ≠ 0 ∧ gen ≠ 1 ∧ u8 p 1 ≠ 255 ∧
      s.hmacKey (u8 p 1) = some key) ∧
    (∃ (s : State) (h : ReqHdr) (y : Session) (p : List Byte) (d : List Byte),
      s.serves h y 4 p ∧ p = natBytes 2 2 ++ natBytes 2 d.length ++ d ∧ d.length ≤ 4000) :=
  ⟨⟨witSessionModeAndSetCommandsAct5, h0, y0, ([1,5]++nb 2 2 ++ nb 4 64), serves_of (by decide +kernel), by decide +kernel⟩,
   ⟨witSessionModeAndSetCommandsAct6, h0, y0, (nb 4 0x7FFFFFFF), serves_of (by decide +kernel), by decide +kernel⟩,
   ⟨witSessionModeAndSetCommandsAct7, h0, y0, (nb 4 3), serves_of (by decide +kernel), by decide +kernel⟩,
   ⟨witSessionModeAndSetCommandsAct8, h0, y0, [], serves_of (by decide +kernel), by decide +kernel⟩,
   ⟨oz, ({h0 with seq := 5}), y0, [1,2], [1,2,3], 7, serves_of (by decide +kernel), by decide +kernel⟩,
   ⟨R, by decide +kernel⟩,
   ⟨ozK, ({h0 with session := 0}), ([7, 0]++List.replicate 16 3), 1, (List.replicate 32 7), by decide +kernel⟩,
   ⟨oz3, h0, y3, (nb 2 2 ++ nb 2 3 ++ [1,2,3]), [1,2,3], serves_of (by decide +kernel), by decide +kernel⟩⟩

theorem witness_SessionModeAndSetCommandsAct_3 :
    (∃ (s : State) (h : ReqHdr) (y : Session) (p : List Byte),
      s.serves h y 4 p ∧ p = natBytes 2 1 ++ [(0 : Byte), (0 : Byte)]) ∧
    (∃ (s : State) (h : ReqHdr) (y : Session) (p : List Byte),
      s.serves h y 258 p) ∧
    (∃ (s : State) (h : ReqHdr) (y : Session) (p : List Byte),
      let m : Nat := u8 p 0
      s.serves h y 257 p ∧ 2 ≤ m ∧ m ≤ 5 ∧ s.mode ≠ m ∧ s.modeAllowed m = false) ∧
    (∃ (s : State) (h : ReqHdr) (y : Session) (p : List Byte) (u : State),
      let total : Nat := u32 p 4
      let chunk : List Byte := List.drop 8 p
      s.serves h y 512 p ∧ s.imgLoad chunk = Except.ok u ∧ s.shadowLocked = false ∧ s.oz.load = none ∧ u32 p 0 = 0 ∧ total ≤ 102400 ∧
      chunk.length = total) ∧
    (∃ (s : State) (h : ReqHdr) (y : Session) (p : List Byte),
      let m : Nat := u8 p 0
      s.serves h y 257 p ∧ m = 1) :=
  ⟨⟨oz3, h0, y3, (nb 2 1 ++ [0,0]), serves_of (by decide +kernel), by decide +kernel⟩,
   ⟨witSessionModeAndSetCommandsAct11, h0, y0, (nb 8 0x1000000F3), serves_of (by decide +kernel)⟩,
   ⟨witSessionModeAndSetCommandsAct3, h0, y0, [3], serves_of (by decide +kernel), by decide +kernel⟩,
   ⟨oz, h0, y0, (nb 4 0 ++ nb 4 60 ++ dimg), (match oz.imgLoad dimg with | .ok u => u | _ => R), serves_of (by decide +kernel),
    ok_of (by decide +kernel), by decide +kernel⟩,
   ⟨oz, h0, y0, [1], serves_of (by decide +kernel), by decide +kernel⟩⟩

def witCoreFlashOtpAndTestCommandsAct0 : State := domOff oz 40
def witCoreFlashOtpAndTestCommandsAct1 : State := oz 2
def witCoreFlashOtpAndTestCommandsAct2 : State := (wCore 5 id oz)
def witCoreFlashOtpAndTestCommandsAct3 : State := (oz.fence 5)
def witCoreFlashOtpAndTestCommandsAct5 : State := eg 1 0 0 id oz
def witCoreFlashOtpAndTestCommandsAct6 : State := {oz with mem := (List.range 16).map (fun i => ⟨0x20000100 + i, BitVec.ofNat 8 (i+3)⟩)}
def witCoreFlashOtpAndTestCommandsAct7 : State := {oz3 ({oz with mem := (List.range 16).map (fun i => ⟨0x20000100 + i, BitVec.ofNat 8 (i+3)⟩)}) with oz := {(oz3 ({oz with mem := (List.range 16).map (fun i => ⟨0x20000100 + i, BitVec.ofNat 8 (i+3)⟩)})).oz with subs := [⟨2, 3, 0x20000104, 4, 3, 3, 5⟩], sessions := (oz3 oz).oz.sessions.set 2 (some {y3 with bufs := 4})}}
def witCoreFlashOtpAndTestCommandsAct8 : State := {oz3 ({oz with mem := (List.range 16).map (fun i => ⟨0x20000100 + i, BitVec.ofNat 8 (i+3)⟩)}) with oz := {(oz3 ({oz with mem := (List.range 16).map (fun i => ⟨0x20000100 + i, BitVec.ofNat 8 (i+3)⟩)})).oz with subs := [⟨2, 3, 0x20000104, 4, 3, 3, 5⟩], sessions := (oz3 oz).oz.sessions.set 2 (some {y3 with bufs := 0})}}
def witCoreFlashOtpAndTestCommandsAct9 : State := {oz with flash := [(0x800055, 1)]}
def witCoreFlashOtpAndTestCommandsAct10 : State := {oz with prot := 1}
def witCoreFlashOtpAndTestCommandsAct12 : State := {oz with prot := 2, mem := [⟨5,3⟩]}
def witCoreFlashOtpAndTestCommandsAct13 : State := {oz with otp := [(0x1003, 9)]}
def witCoreFlashOtpAndTestCommandsAct14 : State := {oz with otp := rev.otp}
def witCoreFlashOtpAndTestCommandsAct15 : State := jb [⟨4,.sparge (.quadrant 3),true,0,[]⟩]
def witCoreFlashOtpAndTestCommandsAct16 : State := jb [⟨4,.test 5 5,true,0,[1]⟩, ⟨5,.burn,true,0,[]⟩]

theorem witness_CoreFlashOtpAndTestCommandsAct :
    (∃ (s : State) (h : ReqHdr) (y : Session) (p : List Byte) (job : Byte) (j : Job) (x : Subscription) (id : BitVec 8) (z : Session),
      let plain : Prop := s.ecc = [] ∧ s.poison = [] ∧ s.collided = none ∧ s.flUndef = [] ∧ s.flEcc = []
      s.serves h y 772 p ∧ s.serves h y 774 p ∧ s.serves h y 1026 p ∧ s.serves h y 1282 p ∧ s.serves h y 1285 p ∧ s.domReady 84 = true ∧
      List.find? (fun x ↦ x.id.toNat == u8 p 0 && x.sess == h.session) s.oz.subs = some x ∧
      List.find? (fun x ↦ x.id == id) s.oz.subs = some x ∧ s.sess x.sess = some z ∧ x.len = 4 ∧ x.addr.toNat % 4 = 0 ∧ 4 % 4 = 0 ∧
      (∀ (i : Nat), i < 4 → isSram (x.addr.toNat + i) = true ∧ s.sramBad (x.addr.toNat + i) = false) ∧ plain ∧ z.via ≠ Transport.spih ∧
      z.unack < z.bufs ∧ s.domReady 67 = true ∧ s.flBusy (4 : Fin 5) = false ∧ s.protPend = false ∧ s.dfBg = none ∧
      s.prot.val ≤ min 2 (u8 p 0) ∧ (∀ (j : Job), j ∈ s.oz.jobs → j.num = job → j.run = false)) ∧
    (∃ (s : State) (h : ReqHdr) (y : Session) (p : List Byte) (g : Fin 4) (j : Job),
      let e : Fin 8 := fin 8 (min 7 (u8 p 0)) (by decide)
      let key : Bool := decide (u8 p 0 = 1)
      s.serves h y 773 p ∧ s.serves h y 1281 p ∧ s.serves h y 1538 p ∧ s.revokeAllowed key g = true ∧ s.serves h y 1794 p ∧
      u8 p 1 + (p.length - 2) / 2 ≤ 48 ∧ s.domReady (68 + e.val) = true ∧ s.pgRuns e = false ∧
      List.find? (fun x ↦ x.id == BitVec.ofNat 8 0) s.oz.subs = none ∧ u8 p 1 < 64 ∧
      s.domReady (bankDom (opBank (u8 p 0) 3 (by decide))) = true ∧ s.flBusy (opBank (u8 p 0) 3 (by decide)) = false ∧
      s.protPend = false ∧ g.val = min 3 (u8 p 1) ∧ s.otpOp = none ∧ (∀ (j : Job), j ∈ s.oz.jobs → j.run = false)) ∧
    (∃ (s : State) (h : ReqHdr) (y : Session) (p : List Byte) (mask : BitVec 64) (job : Byte) (result : List Byte) (j : Job),
      s.serves h y 1286 p ∧ s.serves h y 1539 p ∧ j ∈ s.oz.jobs ∧ j.num = job ∧ j.run = true ∧ j.kind = JobKind.test 5 mask ∧
      (5 = 2 → j.result.getD 0 (0 : Byte) = (0 : Byte)) ∧ List.find? (fun j ↦ j.num == job && j.run) s.oz.jobs = some j) ∧
    (∃ (s : State) (h : ReqHdr) (y : Session) (p : List Byte) (n : Fin 16),
      let b : Fin 5 := opBank (u8 p 0) 4 (by decide)
      s.serves h y 771 p ∧ s.serves h y 1283 p ∧ s.serves h y 1793 p ∧ u8 p 0 < 16 ∧ s.domReady 84 = true ∧
      (u16 p 1 < if b = (4 : Fin 5) then 8 else 64) ∧ s.domReady (bankDom b) = true ∧ s.flBusy b = false ∧ s.protPend = false ∧
      (b ≠ (4 : Fin 5) ∨ s.dfBg = none) ∧ u8 p 2 % 4 = 0 ∧ u16 p 0 = 2 ^ n.val ∧ (s.calRequest n).fst = false) ∧
    (∃ (s : State) (h : ReqHdr) (y : Session) (mask : BitVec 64) (j : Job),
      let m : BitVec 64 := s.testTargets (0, Instr.spargeFast h0 (5 : BitVec 64)).fst mask
      s.serves h y 1792 ([BitVec.ofNat 8 (0, Instr.spargeFast h0 (5 : BitVec 64)).fst, (0 : BitVec 8), (0 : BitVec 8), (0 : BitVec 8)] ++ natBytes 8 mask.toNat) ∧
      (0, Instr.spargeFast h0 (5 : BitVec 64)) ∈ [(0, Instr.spargeFast h mask), (1, Instr.cal h mask), (2, Instr.flashMargin h mask), (3, Instr.otpVerify h mask), (4, Instr.cmpSweep h mask), (5, Instr.coreBist h mask), (6, Instr.adcLinearity h mask), (7, Instr.linkLoopback h mask), (8, Instr.eccPattern h mask), (9, Instr.pwmLoopback h mask)] ∧
      (∀ (j : Job), j ∈ s.oz.jobs → j.run = false) ∧ testMode (0, Instr.spargeFast h0 (5 : BitVec 64)).fst s.mode = true ∧
      (m ≠ (0 : BitVec 64) ∨ (0, Instr.spargeFast h0 (5 : BitVec 64)).fst = 3) ∧
      ((0, Instr.spargeFast h0 (5 : BitVec 64)).fst = 1 → ∀ (i : Fin 16), mask.getLsbD i.val = true → s.adcOn i.val = true → (s.calRequest i).fst = true) ∧
      (0, Instr.spargeFast h0 (5 : BitVec 64)).fst = 0) ∧
    (∃ (s : State) (h : ReqHdr) (y : Session) (p : List Byte),
      let e : Fin 8 := fin 8 (min 7 (u8 p 0)) (by decide)
      s.serves h y 773 p ∧ s.serves h y 1024 p ∧ u8 p 1 + (p.length - 2) / 2 ≤ 48 ∧ s.domReady (68 + e.val) = true ∧ s.pgRuns e = true ∧
      0 < (p.length - 2) / 2 ∧ u32 p 0 % 4 ≠ 0 ∧ s.prot = (0 : Fin 3)) ∧
    (∃ (s : State) (h : ReqHdr) (y : Session) (p : List Byte) (i : Nat),
      let e : Fin 8 := fin 8 (min 7 (u8 p 0)) (by decide)
      s.serves h y 773 p ∧ s.serves h y 1025 p ∧ u8 p 1 + (p.length - 2) / 2 ≤ 48 ∧ s.domReady (68 + e.val) = true ∧
      s.pgRuns e = false ∧ i < (p.length - 2) / 2 ∧ u32 p 0 % 4 = 0 ∧ u16 p 4 % 4 = 0 ∧ 4 ≤ u16 p 4 ∧ u16 p 4 ≤ 256 ∧
      s.prot = (0 : Fin 3) ∧ List.find? (fun i ↦ !s.oz.subs.any fun x ↦ x.id.toNat == i) (List.range 16) = some i) ∧
    (∃ (s : State) (h : ReqHdr) (y : Session) (p : List Byte) (x : Subscription) (id : BitVec 8) (z : Session),
      let plain : Prop := s.ecc = [] ∧ s.poison = [] ∧ s.collided = none ∧ s.flUndef = [] ∧ s.flEcc = []
      s.serves h y 1026 p ∧ List.find? (fun x ↦ x.id.toNat == u8 p 0 && x.sess == h.session) s.oz.subs = none ∧
      List.find? (fun x ↦ x.id == id) s.oz.subs = some x ∧ s.sess x.sess = some z ∧ x.len = 4 ∧ x.addr.toNat % 4 = 0 ∧ 4 % 4 = 0 ∧
      (∀ (i : Nat), i < 4 → isSram (x.addr.toNat + i) = true ∧ s.sramBad (x.addr.toNat + i) = false) ∧ plain ∧ z.via ≠ Transport.spih ∧
      z.bufs ≤ z.unack) :=
  ⟨⟨witCoreFlashOtpAndTestCommandsAct7, h0, ({y3 with bufs := 4}), [2], 4, ⟨4,.burn,true,0,[]⟩, ⟨2, 3, 0x20000104, 4, 3, 3, 5⟩, 2,
    ({y3 with bufs := 4}), serves_of (by decide +kernel), serves_of (by decide +kernel), serves_of (by decide +kernel),
    serves_of (by decide +kernel), serves_of (by decide +kernel), by decide +kernel⟩,
   ⟨witCoreFlashOtpAndTestCommandsAct14, h0, y0, [0,1], 1, ⟨4,.burn,true,0,[]⟩, serves_of (by decide +kernel),
    serves_of (by decide +kernel), serves_of (by decide +kernel),
    revoke_img rfl (by decide +kernel) (by decide +kernel) (by decide +kernel), serves_of (by decide +kernel), by decide +kernel⟩,
   ⟨witCoreFlashOtpAndTestCommandsAct16, h0, y0, [], 5, 4, [1,2], ⟨4,.test 5 5,true,0,[1]⟩, serves_of (by decide +kernel),
    serves_of (by decide +kernel), by decide +kernel⟩,
   ⟨witCoreFlashOtpAndTestCommandsAct0, h0, y0, (nb 2 8 ++ [0]), 3, serves_of (by decide +kernel), serves_of (by decide +kernel),
    serves_of (by decide +kernel), by decide +kernel⟩,
   ⟨witCoreFlashOtpAndTestCommandsAct1, h0, y0, 5, ⟨4,.burn,true,0,[]⟩, serves_of (by decide +kernel), by decide +kernel⟩,
   ⟨witCoreFlashOtpAndTestCommandsAct5, h0, y0, [2,46,1,2,3,4], serves_of (by decide +kernel), serves_of (by decide +kernel),
    by decide +kernel⟩,
   ⟨oz3, h0, y3, (nb 4 0x20000104 ++ nb 2 256 ++ nb 2 0), 0, serves_of (by decide +kernel), serves_of (by decide +kernel),
    by decide +kernel⟩,
   ⟨witCoreFlashOtpAndTestCommandsAct8, h0, ({y3 with bufs := 0}), [3], ⟨2, 3, 0x20000104, 4, 3, 3, 5⟩, 2, ({y3 with bufs := 0}),
    serves_of (by decide +kernel), by decide +kernel⟩⟩

theorem witness_CoreFlashOtpAndTestCommandsAct_2 :
    (∃ (s : State) (h : ReqHdr) (y : Session) (mask : BitVec 64) (j : Job),
      s.serves h y 1792 ([BitVec.ofNat 8 (5, Instr.coreBist h0 (5 : BitVec 64)).fst, (0 : BitVec 8), (0 : BitVec 8), (0 : BitVec 8)] ++ natBytes 8 mask.toNat) ∧
      (5, Instr.coreBist h0 (5 : BitVec 64)) ∈ [(0, Instr.spargeFast h mask), (1, Instr.cal h mask), (2, Instr.flashMargin h mask), (3, Instr.otpVerify h mask), (4, Instr.cmpSweep h mask), (5, Instr.coreBist h mask), (6, Instr.adcLinearity h mask), (7, Instr.linkLoopback h mask), (8, Instr.eccPattern h mask), (9, Instr.pwmLoopback h mask)] ∧
      (∀ (j : Job), j ∈ s.oz.jobs → j.run = false) ∧ testMode (5, Instr.coreBist h0 (5 : BitVec 64)).fst s.mode = false) ∧
    (∃ (s : State) (h : ReqHdr) (y : Session) (p : List Byte) (c : CoreId),
      let solo : Prop := s.domReady c.val = true ∧ s.fenced c.val = false ∧ s.role c.val = Role.solo
      s.serves h y 768 p ∧ maskCores (leAt p 0 8 % 2 ^ 36) = [c] ∧ solo ∧ (s.core c).run = RunState.running ∧ (s.core c).noInt = false) ∧
    (∃ (s : State) (h : ReqHdr) (y : Session) (p : List Byte) (c : CoreId),
      s.serves h y 768 p ∧ maskCores (leAt p 0 8 % 2 ^ 36) = [c] ∧ s.fenced c.val = true) ∧
    (∃ (s : State) (h : ReqHdr) (y : Session) (p : List Byte) (c : CoreId),
      let solo : Prop := s.domReady c.val = true ∧ s.fenced c.val = false ∧ s.role c.val = Role.solo
      s.serves h y 769 p ∧ BitVec.toNat (w32 p 8) < 196480 ∧ BitVec.toNat (w32 p 8) % 4 = 0 ∧ maskCores (leAt p 0 8) = [c] ∧ solo ∧
      (s.core c).run = RunState.halted ∧ s.pairStopped c.val = false ∧ (s.core c).testEnd = none) ∧
    (∃ (s : State) (h : ReqHdr) (y : Session) (p : List Byte),
      s.serves h y 769 p ∧ (196480 ≤ BitVec.toNat (w32 p 8) ∨ BitVec.toNat (w32 p 8) % 4 ≠ 0)) ∧
    (∃ (s : State) (h : ReqHdr) (y : Session) (p : List Byte) (c : CoreId),
      let plain : Prop := s.ecc = [] ∧ s.poison = [] ∧ s.collided = none ∧ s.flUndef = [] ∧ s.flEcc = []
      let solo : Prop := s.domReady c.val = true ∧ s.fenced c.val = false ∧ s.role c.val = Role.solo
      let off : Nat := u32 p 4
      let bs : List Byte := List.drop 8 p
      s.serves h y 770 p ∧ c.val = min 36 (u8 p 0) ∧ solo ∧ plain ∧ (s.core c).run = RunState.halted ∧ off + bs.length ≤ 196480) ∧
    (∃ (s : State) (h : ReqHdr) (y : Session) (p : List Byte),
      let plain : Prop := s.ecc = [] ∧ s.poison = [] ∧ s.collided = none ∧ s.flUndef = [] ∧ s.flEcc = []
      s.serves h y 1024 p ∧ plain ∧ u32 p 0 % 4 = 0 ∧ u16 p 4 % 4 = 0 ∧
      (∀ (i : Nat), i < u16 p 4 → isSram (u32 p 0 + i) = true ∧ s.sramBad (u32 p 0 + i) = false) ∧ u16 p 4 ≤ maxLen y.gen) ∧
    (∃ (s : State) (h : ReqHdr) (y : Session) (p : List Byte),
      let plain : Prop := s.ecc = [] ∧ s.poison = [] ∧ s.collided = none ∧ s.flUndef = [] ∧ s.flEcc = []
      let b : Fin 5 := opBank (u8 p 0) 4 (by decide)
      let unit : Nat := u32 p 4
      let a : Nat := s.flUnit b unit
      let data : List Byte := List.drop 8 p
      s.serves h y 1280 p ∧ data.length = 16 ∧ unit < bankUnits b ∧ s.domReady (bankDom b) = true ∧ s.flBusy b = false ∧
      s.protPend = false ∧ plain ∧ (b ≠ (4 : Fin 5) ∨ s.dfBg = none) ∧ (s.flBlank a 16).fst = true) :=
  ⟨⟨witCoreFlashOtpAndTestCommandsAct1, h0, y0, 5, ⟨4,.burn,true,0,[]⟩, serves_of (by decide +kernel), by decide +kernel⟩,
   ⟨witCoreFlashOtpAndTestCommandsAct2, h0, y0, (nb 8 32), 5, serves_of (by decide +kernel), by decide +kernel⟩,
   ⟨witCoreFlashOtpAndTestCommandsAct3, h0, y0, (nb 8 32), 5, serves_of (by decide +kernel), by decide +kernel⟩,
   ⟨oz, h0, y0, (nb 8 32 ++ nb 4 0x2FF7C), 5, serves_of (by decide +kernel), by decide +kernel⟩,
   ⟨oz, h0, y0, (nb 8 32 ++ nb 4 0x2FF80), serves_of (by decide +kernel), by decide +kernel⟩,
   ⟨oz, h0, y0, [5,0,0,0]++nb 4 0x2FF7D++[1,2,3], 5, serves_of (by decide +kernel), by decide +kernel⟩,
   ⟨witCoreFlashOtpAndTestCommandsAct6, h0, y0, (nb 4 0x20000104 ++ nb 2 8), serves_of (by decide +kernel), by decide +kernel⟩,
   ⟨oz, h0, y0, ([2,0,0,0]++nb 4 5++List.replicate 16 7), serves_of (by decide +kernel), by decide +kernel⟩⟩

theorem witness_CoreFlashOtpAndTestCommandsAct_3 :
    (∃ (s : State) (h : ReqHdr) (y : Session) (p : List Byte),
      let plain : Prop := s.ecc = [] ∧ s.poison = [] ∧ s.collided = none ∧ s.flUndef = [] ∧ s.flEcc = []
      let b : Fin 5 := opBank (u8 p 0) 4 (by decide)
      let unit : Nat := u32 p 4
      let a : Nat := s.flUnit b unit
      let data : List Byte := List.drop 8 p
      s.serves h y 1280 p ∧ data.length = 16 ∧ unit < bankUnits b ∧ s.domReady (bankDom b) = true ∧ s.flBusy b = false ∧
      s.protPend = false ∧ plain ∧ (b ≠ (4 : Fin 5) ∨ s.dfBg = none) ∧ (s.flBlank a 16).fst = false) ∧
    (∃ (s : State) (h : ReqHdr) (y : Session) (p : List Byte),
      let plain : Prop := s.ecc = [] ∧ s.poison = [] ∧ s.collided = none ∧ s.flUndef = [] ∧ s.flEcc = []
      let b : Fin 5 := opBank (u8 p 0) 4 (by decide)
      s.serves h y 1284 p ∧ plain ∧ s.prot = (0 : Fin 3) ∧ u16 p 8 = 1 ∧ u32 p 4 < bankUnits b ∧ s.domReady (bankDom b) = true ∧
      s.flBusy b = false ∧ s.protPend = false ∧ (b ≠ (4 : Fin 5) ∨ s.dfBg = none)) ∧
    (∃ (s : State) (h : ReqHdr) (y : Session) (p : List Byte),
      let plain : Prop := s.ecc = [] ∧ s.poison = [] ∧ s.collided = none ∧ s.flUndef = [] ∧ s.flEcc = []
      s.serves h y 1284 p ∧ plain ∧ s.prot ≠ (0 : Fin 3)) ∧
    (∃ (s : State) (h : ReqHdr) (y : Session) (p : List Byte),
      s.serves h y 1285 p ∧ s.protPend = false ∧ min 2 (u8 p 0) < s.prot.val) ∧
    (∃ (s : State) (h : ReqHdr) (y : Session) (p : List Byte),
      s.serves h y 1536 p ∧ u16 p 0 % 4 = 0 ∧ u16 p 2 % 4 = 0 ∧ u16 p 0 + u16 p 2 ≤ 16384 ∧ u16 p 2 ≤ maxLen y.gen) ∧
    (∃ (s : State) (h : ReqHdr) (y : Session) (p : List Byte) (g : Fin 4),
      let key : Bool := decide (u8 p 0 = 1)
      let img : List Byte := List.drop 4 p
      s.serves h y 1537 p ∧ s.burnCheck key img = Except.ok g ∧ img.length = otpLen key ∧ s.otpOp = none) ∧
    (∃ (s : State) (h : ReqHdr) (y : Session) (p : List Byte),
      let key : Bool := decide (u8 p 0 = 1)
      let img : List Byte := List.drop 4 p
      s.serves h y 1537 p ∧ s.burnCheck key img = Except.error 1 ∧ img.length = otpLen key ∧ s.otpOp = none) ∧
    (∃ (s : State) (h : ReqHdr) (y : Session) (p : List Byte) (g : Fin 4),
      let key : Bool := decide (u8 p 0 = 1)
      s.serves h y 1538 p ∧ g.val = min 3 (u8 p 1) ∧ s.otpOp = none ∧ s.revokeAllowed key g = false) :=
  ⟨⟨witCoreFlashOtpAndTestCommandsAct9, h0, y0, ([2,0,0,0]++nb 4 5++List.replicate 16 7), serves_of (by decide +kernel),
    by decide +kernel⟩,
   ⟨witCoreFlashOtpAndTestCommandsAct9, h0, y0, ([2,0,0,0]++nb 4 5++nb 2 1), serves_of (by decide +kernel), by decide +kernel⟩,
   ⟨witCoreFlashOtpAndTestCommandsAct10, h0, y0, ([2,0,0,0]++nb 4 5++nb 2 1), serves_of (by decide +kernel), by decide +kernel⟩,
   ⟨witCoreFlashOtpAndTestCommandsAct12, h0, y0, [1], serves_of (by decide +kernel), by decide +kernel⟩,
   ⟨witCoreFlashOtpAndTestCommandsAct13, h0, y0, (nb 2 0x1000 ++ nb 2 16), serves_of (by decide +kernel), by decide +kernel⟩,
   ⟨oz, h0, y0, ([0,0,0,0]++img), 0, serves_of (by decide +kernel),
    burnCheck_img (by decide +kernel) drop_img (by decide +kernel) (by decide +kernel), by decide +kernel⟩,
   ⟨oz, h0, y0, ([0,0,0,0]++img.map (fun _ => (0:Byte))), serves_of (by decide +kernel), error_of (by decide +kernel), by decide +kernel⟩,
   ⟨oz, h0, y0, [0,1], 1, serves_of (by decide +kernel), by decide +kernel⟩⟩

theorem witness_CoreFlashOtpAndTestCommandsAct_4 :
    (∃ (s : State) (h : ReqHdr) (y : Session) (p : List Byte) (n : Fin 16),
      s.serves h y 1793 p ∧ u8 p 2 % 4 = 0 ∧ u16 p 0 = 2 ^ n.val ∧ (s.calRequest n).fst = true) ∧
    (∃ (s : State) (h : ReqHdr) (y : Session) (p : List Byte),
      s.serves h y 1793 p ∧ u8 p 2 % 4 = 0 ∧ u16 p 0 = 0) ∧
    (∃ (s : State) (h : ReqHdr) (y : Session) (p : List Byte) (j : Job),
      s.serves h y 1794 p ∧
      (List.find? (fun j ↦ j.run && j.kind == JobKind.sparge (if u8 p 0 = 1 then SpargeTarget.local (coreId (min 36 (u8 p 1))) else SpargeTarget.quadrant (fin 8 (min 7 (u8 p 1)) (by decide)))) s.oz.jobs = some j)) :=
  ⟨⟨oz, h0, y0, (nb 2 8 ++ [0]), 3, serves_of (by decide +kernel), by decide +kernel⟩,
   ⟨oz, h0, y0, (nb 2 0 ++ [0]), serves_of (by decide +kernel), by decide +kernel⟩,
   ⟨witCoreFlashOtpAndTestCommandsAct15, h0, y0, [0,3], ⟨4,.sparge (.quadrant 3),true,0,[]⟩, serves_of (by decide +kernel),
    by decide +kernel⟩⟩

def witLinkDiagnosticAndDebugCommandsAct0 : State := lk 0 id oz
def witLinkDiagnosticAndDebugCommandsAct6 : State := lk 6 id oz
def witLinkDiagnosticAndDebugCommandsAct7 : State := ((lk 2 id (oz 3)).setRg rTickCtl 0x80A).setFlag rTickStat 0 true
def witLinkDiagnosticAndDebugCommandsAct8 : State := oz.setRg (rSram 0) 0xFFFFFFFF
def witLinkDiagnosticAndDebugCommandsAct9 : State := (lmem oz)

theorem witness_LinkDiagnosticAndDebugCommandsAct :
    (∃ (s : State) (h : ReqHdr) (y : Session) (p : List Byte) (n : Fin 4),
      s.serves h y 2048 p ∧ s.serves h y 2049 p ∧ s.serves h y 2050 p ∧ n.val = min 3 (u8 p 0) ∧ s.lkState n ≠ 6 ∧ s.follows = false ∧
      s.remotes = []) ∧
    (∃ (s : State) (h : ReqHdr) (y : Session) (p : List Byte) (c : CoreId),
      let solo : Prop := s.domReady c.val = true ∧ s.role c.val = Role.solo
      s.serves h y 2819 p ∧ s.serves h y 2820 p ∧ c.val = min 36 (u8 p 0) ∧ u8 p 1 = 1 ∧ u16 p 2 = 1 ∧ solo ∧
      (s.core c).run = RunState.halted ∧ u32 p 4 < 85 ∧ u8 p 1 < 4) ∧
    (∃ (s : State) (h : ReqHdr) (y : Session) (p : List Byte),
      s.serves h y 2304 p ∧ s.serves h y 2305 p ∧ u8 p 0 = 0) ∧
    (∃ (s : State) (h : ReqHdr) (y : Session) (p : List Byte),
      s.serves h y 2304 p ∧ s.serves h y 2305 p ∧ u8 p 0 = 4 ∧ s.hwSet = []) ∧
    (∃ (s : State) (h : ReqHdr) (y : Session) (p : List Byte) (n : Fin 4),
      s.serves h y 2050 p ∧ n.val = min 3 (u8 p 0) ∧ s.lkState n = 6) ∧
    (∃ (s : State) (h : ReqHdr) (y : Session) (p : List Byte) (n : Fin 4),
      s.serves h y 2049 p ∧ n.val = min 3 (u8 p 0) ∧ s.follows = true ∧ s.fld rTickCtl 2 2 = n.val ∧ s.mode = 3) ∧
    (∃ (s : State) (h : ReqHdr) (y : Session) (p : List Byte),
      let plain : Prop := s.ecc = [] ∧ s.poison = [] ∧ s.collided = none
      s.serves h y 2560 p ∧ plain ∧
      (∀ (i : Nat), i < u16 p 0 → u32 p (4 + 4 * i) % 4 = 0 ∧ isSram (u32 p (4 + 4 * i)) = true ∧ s.sramBad (u32 p (4 + 4 * i)) = false)) ∧
    (∃ (s : State) (h : ReqHdr) (y : Session) (p : List Byte) (i : Nat),
      s.serves h y 2560 p ∧ i < u16 p 0 ∧ u32 p (4 + 4 * i) % 4 ≠ 0 ∧ s.prot = (0 : Fin 3)) :=
  ⟨⟨witLinkDiagnosticAndDebugCommandsAct0, h0, y0, [2], 2, serves_of (by decide +kernel), serves_of (by decide +kernel),
    serves_of (by decide +kernel), by decide +kernel⟩,
   ⟨oz, h0, y0, ([5,1]++nb 2 1++nb 4 84++nb 4 7), 5, serves_of (by decide +kernel), serves_of (by decide +kernel), by decide +kernel⟩,
   ⟨oz, h0, y0, [0], serves_of (by decide +kernel), serves_of (by decide +kernel), by decide +kernel⟩,
   ⟨witLinkDiagnosticAndDebugCommandsAct8, h0, y0, [4], serves_of (by decide +kernel), serves_of (by decide +kernel), by decide +kernel⟩,
   ⟨witLinkDiagnosticAndDebugCommandsAct6, h0, y0, [2], 2, serves_of (by decide +kernel), by decide +kernel⟩,
   ⟨witLinkDiagnosticAndDebugCommandsAct7, h0, y0, [2], 2, serves_of (by decide +kernel), by decide +kernel⟩,
   ⟨witLinkDiagnosticAndDebugCommandsAct9, h0, y0, (nb 2 2++[0,0]++nb 4 0x20000104++nb 4 0x20000108), serves_of (by decide +kernel),
    by decide +kernel⟩,
   ⟨witLinkDiagnosticAndDebugCommandsAct9, h0, y0, (nb 2 2++[0,0]++nb 4 0x20000104++nb 4 0x20000109), 1, serves_of (by decide +kernel),
    by decide +kernel⟩⟩

theorem witness_LinkDiagnosticAndDebugCommandsAct_2 :
    (∃ (s : State) (h : ReqHdr) (y : Session) (p : List Byte),
      let plain : Prop := s.ecc = [] ∧ s.poison = [] ∧ s.collided = none
      s.serves h y 2561 p ∧ plain ∧ u16 p 0 = 1 ∧ u32 p 4 % 4 = 0 ∧ isSram (u32 p 4) = true ∧ s.sramBad (u32 p 4) = false) ∧
    (∃ (s : State) (h : ReqHdr) (y : Session) (p : List Byte) (i : Nat),
      s.serves h y 2561 p ∧ i < u16 p 0 ∧ u32 p (4 + 8 * i) % 4 ≠ 0) ∧
    (∃ (s : State) (h : ReqHdr) (y : Session) (p : List Byte),
      let plain : Prop := s.ecc = [] ∧ s.poison = [] ∧ s.collided = none
      s.serves h y 2562 p ∧ plain ∧ u32 p 0 % 4 = 0 ∧ isSram (u32 p 0) = true ∧ s.sramBad (u32 p 0) = false) ∧
    (∃ (s : State) (h : ReqHdr) (y : Session) (p : List Byte) (c : CoreId),
      let solo : Prop := s.domReady c.val = true ∧ s.role c.val = Role.solo
      s.serves h y 2816 p ∧ c.val = min 36 (u8 p 0) ∧ c ≠ (36 : CoreId) ∧ solo ∧ (s.core c).run = RunState.running ∧
      (s.core c).noInt = false) ∧
    (∃ (s : State) (h : ReqHdr) (y : Session) (p : List Byte) (c : CoreId),
      let solo : Prop := s.domReady c.val = true ∧ s.role c.val = Role.solo
      s.serves h y 2817 p ∧ c.val = min 36 (u8 p 0) ∧ solo ∧ (s.core c).run = RunState.halted ∧ s.pairStopped c.val = false) ∧
    (∃ (s : State) (h : ReqHdr) (y : Session) (p : List Byte) (c : CoreId),
      let solo : Prop := s.domReady c.val = true ∧ s.role c.val = Role.solo
      s.serves h y 2818 p ∧ c.val = min 36 (u8 p 0) ∧ u8 p 1 = 1 ∧ solo ∧ (s.core c).run = RunState.halted ∧ u32 p 4 + u16 p 2 ≤ 85 ∧
      4 * u16 p 2 ≤ maxLen y.gen) ∧
    (∃ (s : State) (h : ReqHdr) (y : Session) (p : List Byte) (c : CoreId),
      let solo : Prop := s.domReady c.val = true ∧ s.role c.val = Role.solo
      s.serves h y 2821 p ∧ c.val = min 36 (u8 p 0) ∧ c ≠ (36 : CoreId) ∧ solo ∧ (s.core c).run = RunState.halted ∧
      s.pairStopped c.val = false) :=
  ⟨⟨witLinkDiagnosticAndDebugCommandsAct9, h0, y0, (nb 2 1++[0,0]++nb 4 0x20000104++nb 4 0x99), serves_of (by decide +kernel),
    by decide +kernel⟩,
   ⟨witLinkDiagnosticAndDebugCommandsAct9, h0, y0, (nb 2 1++[0,0]++nb 4 0x20000102++nb 4 0x99), 0, serves_of (by decide +kernel),
    by decide +kernel⟩,
   ⟨witLinkDiagnosticAndDebugCommandsAct9, h0, y0, (nb 4 0x20000104++nb 4 0xFF00FF00++nb 4 0x12345678), serves_of (by decide +kernel),
    by decide +kernel⟩,
   ⟨witCoreFlashOtpAndTestCommandsAct2, h0, y0, [5], 5, serves_of (by decide +kernel), by decide +kernel⟩,
   ⟨oz, h0, y0, [5], 5, serves_of (by decide +kernel), by decide +kernel⟩,
   ⟨oz, h0, y0, ([5,1]++nb 2 85++nb 4 0), 5, serves_of (by decide +kernel), by decide +kernel⟩,
   ⟨oz, h0, y0, [5,0], 5, serves_of (by decide +kernel), by decide +kernel⟩⟩

def witLinksCarryFlitsAndServeAccesses0 : State := lk 2 (fun l => {l with slot0 := 8, tick := some (100, fl 1 2 3 4)})
def witLinksCarryFlitsAndServeAccesses1 : State := lk 3 (fun l => {l with rxSeq := 7, unack := [fl 1 1 3 0, fl 1 1 4 0, fl 1 1 5 0], credit := 15, checks := [(500, fl 0 3 7 4, true)]})
def witLinksCarryFlitsAndServeAccesses2 : State := lk 3 (fun l => {l with rxSeq := 7, unack := [fl 1 1 3 0, fl 1 1 4 0, fl 1 1 5 0], credit := 15, checks := [(501, fl 0 3 7 4, true)]})
def witLinksCarryFlitsAndServeAccesses3 : State := lmem (lk 2 (fun l => {l with rxSeq := 7, held := 10, owe := 5, checks := [(500, fl 2 0 7 4, true)]}))
def witLinksCarryFlitsAndServeAccesses4 : State := lmem (lk 2 (fun l => {l with rxSeq := 7, held := 10, owe := 6, checks := [(500, fl 2 0 7 4, true)]}))
def witLinksCarryFlitsAndServeAccesses5 : State := lk 2 (fun l => {l with slot0 := 8, resend := [fl 1 2 3 4], slots := 5, owe := 20})
def witLinksCarryFlitsAndServeAccesses6 : State := lk 2 (fun l => {l with slot0 := 8, ctl := [⟨1, 8, 0x33, [1,2], 10⟩], slots := 5, owe := 20})
def witLinksCarryFlitsAndServeAccesses7 : State := lk 2 (fun l => {l with slot0 := 8, req := [⟨1, 8, 0x33, [1,2], 10⟩], slots := 5, owe := 2})
def witLinksCarryFlitsAndServeAccesses8 : State := lk 2 (fun l => {l with slot0 := 8, req := [⟨1, 8, 0x33, [1,2], 10⟩], slots := 5, owe := 2, credit := 0})
def witLinksCarryFlitsAndServeAccesses10 : State := lk 2 (fun l => {l with slot0 := 8, quiet := 4, unack := [fl 1 1 1 1]})
def witLinksCarryFlitsAndServeAccesses11 : State := lk 2 (fun l => {l with slot0 := 8, errs := 300})
def witLinksCarryFlitsAndServeAccesses12 : State := lk 2 (fun l => {l with slot0 := 8, errs := 300, breach := some 100})
def witLinksCarryFlitsAndServeAccesses13 : State := {lk 2 (fun l => {l with req := [⟨1, 8, 0x33, [1,2], 10⟩], credit := 0}) with now := 10^12}
def witLinksCarryFlitsAndServeAccesses22 : State := lk 2
def witLinksCarryFlitsAndServeAccesses26 : State := lk 1
def witLinksCarryFlitsAndServeAccesses27 : State := lk 4
def witLinksCarryFlitsAndServeAccesses31 : State := lk 6
def witLinksCarryFlitsAndServeAccesses32 : State := {c5 with now := 0}
def witLinksCarryFlitsAndServeAccesses35 : State := lmem (lk 2)
def witLinksCarryFlitsAndServeAccesses36 : State := {lk 2 with remotes := [rq true 3]}

theorem witness_LinksCarryFlitsAndServeAccesses :
    (∃ (s : State) (m : Master) (x : Ctx) (n : Fin 4) (flit : List Byte) (d : Fin 8) (hops : Fin 8) (r : MemReq) (tag : BitVec 16) (edge : Nat) (first : Bool) (rest : List (Nat × List Byte × Bool)) (g : Nat),
      let l : LinkState := s.link n
      let up : Prop := s.lkUp n = true
      let f : FlitIn := parseFlit flit
      let sound : Prop := f.head = true ∧ f.good = true ∧ f.ty ≤ 8 ∧ seqAhead l f.seq = 0
      let on : Prop := s.domReady (55 + r.offset.toNat / 1048576 % 8) = true
      let plain : Prop := s.ecc = [] ∧ s.poison = [] ∧ s.collided = none
      s.enters m true x [rLk n.val 0, rLk n.val 32] ∧ s.slotBegins n = false ∧ s.resendDue n = false ∧ up ∧ f.head = true ∧ f.ty ≠ 1 ∧
      l.checks = (edge, flit, first) :: rest ∧ edge ≤ s.now ∧ f.ty ≠ 6 ∧ sound ∧ f.ty = 0 ∧
      (s.lkState n ≠ 1 ∨ s.notYet (Instr.trainingTimeout n) = true) ∧ (s.lkState n ≠ 4 ∨ s.notYet (Instr.trainingRetry n) = true) ∧
      s.lkState n ≠ 1 ∧ s.lkState n ≠ 4 ∧ (s.lkState n ≠ 2 ∨ 0 < l.credit ∨ l.req = []) ∧ l.errs ≤ s.fld (rLk n.val 12) 0 8 ∧
      s.domReady (76 + n.val) = true ∧ x.free = true ∧ s.lkState n ≠ 6 ∧ s.flag (rLk n.val 0) 0 = true ∧ hops = (0 : Fin 8) ∧
      s.fld rTickCtl 0 2 ≠ 2 ∧ hops.val ≤ 3 ∧ s.grantNum d.val = some g ∧ s.memBad r = false ∧ on ∧ plain ∧ s.remoteByTag tag = none ∧
      (s.remoteByTag tag = none ∨ s.notYet (Instr.remoteAccessTimeout tag) = true)) ∧
    (∃ (s : State) (n : Fin 4) (q : RemoteReq) (tag : BitVec 16),
      let up : Prop := s.lkUp n = true
      up ∧ s.remotes = [q] ∧ q.link = n ∧ q.use = RemoteUse.command ∧ s.remoteByTag tag = some q ∧ q.busy < 3 ∧
      s.notYet (Instr.remoteAccessTimeout tag) = false) ∧
    (∃ (s : State) (n : Fin 4),
      let up : Prop := s.lkUp n = true
      (¬up) ∧ s.lkState n = 1 ∧ s.domReady (76 + n.val) = true ∧ s.notYet (Instr.trainingTimeout n) = false ∧
      (s.lkState n = 1 ∨ s.lkState n = 4) ∧ s.flag (rLk n.val 0) 0 = true) ∧
    (∃ (s : State) (n : Fin 4),
      let l : LinkState := s.link n
      let up : Prop := s.lkUp n = true
      s.slotBegins n = true ∧ up ∧ l.tick = none ∧ l.resend = [] ∧ s.lkReady l.ctl = [] ∧ l.nums = [] ∧ s.lkReady l.req = [] ∧
      s.resendDue n = true) ∧
    (∃ (s : State) (n : Fin 4) (flit : List Byte) (e : Nat),
      let l : LinkState := s.link n
      let up : Prop := s.lkUp n = true
      s.slotBegins n = true ∧ up ∧ l.tick = some (e, flit) ∧ e ≤ s.now) ∧
    (∃ (s : State) (n : Fin 4) (flit : List Byte) (edge : Nat) (first : Bool) (rest : List (Nat × List Byte × Bool)),
      let l : LinkState := s.link n
      let up : Prop := s.lkUp n = true
      up ∧ l.checks = (edge, flit, first) :: rest ∧ s.now < edge) ∧
    (∃ (s : State) (n : Fin 4) (flit : List Byte) (edge : Nat) (first : Bool) (rest : List (Nat × List Byte × Bool)),
      let l : LinkState := s.link n
      let up : Prop := s.lkUp n = true
      let f : FlitIn := parseFlit flit
      let sound : Prop := f.head = true ∧ f.good = true ∧ f.ty ≤ 8 ∧ seqAhead l f.seq = 0
      let plain : Prop := s.ecc = [] ∧ s.poison = [] ∧ s.collided = none
      up ∧ l.checks = (edge, flit, first) :: rest ∧ edge ≤ s.now ∧ sound ∧ f.ty = 2 ∧ s.devNum = some f.dst.val ∧ l.held + l.owe < 16 ∧
      plain ∧ s.memBad f.req = false ∧ s.domReady (55 + f.req.offset.toNat / 1048576 % 8) = true) ∧
    (∃ (s : State) (n : Fin 4) (flit : List Byte) (edge : Nat) (first : Bool) (rest : List (Nat × List Byte × Bool)),
      let l : LinkState := s.link n
      let up : Prop := s.lkUp n = true
      let f : FlitIn := parseFlit flit
      let sound : Prop := f.head = true ∧ f.good = true ∧ f.ty ≤ 8 ∧ seqAhead l f.seq = 0
      up ∧ l.checks = (edge, flit, first) :: rest ∧ edge ≤ s.now ∧ sound ∧ f.ty = 2 ∧ 16 ≤ l.held + l.owe) :=
  ⟨⟨witLinksCarryFlitsAndServeAccesses1, Master.sc, scCtx, 2, (fl 0 3 7 4), 5, 0, ⟨0, 3, 0x55, 0x104, 0xAABBCCDD, 5, true⟩, 0x77, 500,
    true, [], 5, by unfold State.enters; decide +kernel, by decide +kernel⟩,
   ⟨sl0, 2, (rq false 2), 0x77, by decide +kernel⟩,
   ⟨witLinksCarryFlitsAndServeAccesses26, 2, by decide +kernel⟩,
   ⟨witLinksCarryFlitsAndServeAccesses10, 2, by decide +kernel⟩,
   ⟨witLinksCarryFlitsAndServeAccesses0, 2, (fl 1 2 3 4), 100, by decide +kernel⟩,
   ⟨witLinksCarryFlitsAndServeAccesses2, 2, (fl 0 3 7 4), 501, true, [], by decide +kernel⟩,
   ⟨witLinksCarryFlitsAndServeAccesses3, 2, (fl 2 0 7 4), 500, true, [], by decide +kernel⟩,
   ⟨witLinksCarryFlitsAndServeAccesses4, 2, (fl 2 0 7 4), 500, true, [], by decide +kernel⟩⟩

theorem witness_LinksCarryFlitsAndServeAccesses_2 :
    (∃ (s : State) (n : Fin 4) (flit : List Byte) (fs : List (List Byte)),
      let l : LinkState := s.link n
      let up : Prop := s.lkUp n = true
      s.slotBegins n = true ∧ up ∧ l.tick = none ∧ l.resend = flit :: fs) ∧
    (∃ (s : State) (n : Fin 4) (c : FlitReq) (cs : List FlitReq),
      let l : LinkState := s.link n
      let up : Prop := s.lkUp n = true
      s.slotBegins n = true ∧ up ∧ l.tick = none ∧ l.resend = [] ∧ s.lkReady l.ctl = c :: cs) ∧
    (∃ (s : State) (n : Fin 4) (c : FlitReq) (cs : List FlitReq),
      let l : LinkState := s.link n
      let up : Prop := s.lkUp n = true
      s.slotBegins n = true ∧ up ∧ l.tick = none ∧ l.resend = [] ∧ s.lkReady l.ctl = [] ∧ l.nums = [] ∧ s.lkReady l.req = c :: cs ∧
      0 < l.credit) ∧
    (∃ (s : State) (n : Fin 4) (c : FlitReq) (cs : List FlitReq),
      let l : LinkState := s.link n
      let up : Prop := s.lkUp n = true
      s.slotBegins n = true ∧ up ∧ l.tick = none ∧ l.resend = [] ∧ s.lkReady l.ctl = [] ∧ l.nums = [] ∧ s.lkReady l.req = c :: cs ∧
      l.credit = 0) ∧
    (∃ (s : State) (n : Fin 4),
      let l : LinkState := s.link n
      let up : Prop := s.lkUp n = true
      up ∧ s.fld (rLk n.val 12) 0 8 < l.errs ∧ l.breach = none) ∧
    (∃ (s : State) (n : Fin 4) (e : Nat),
      let l : LinkState := s.link n
      let up : Prop := s.lkUp n = true
      up ∧ s.fld (rLk n.val 12) 0 8 < l.errs ∧ l.breach = some e ∧ s.now ≤ e + 800000000) ∧
    (∃ (s : State) (n : Fin 4) (c : FlitReq) (cs : List FlitReq),
      let l : LinkState := s.link n
      s.lkState n = 2 ∧ s.domReady (76 + n.val) = true ∧ l.credit = 0 ∧ l.req = c :: cs ∧
      c.since + max 1 (s.fld (rLk n.val 0) 16 16) * 800 < s.now) ∧
    (∃ (s : State) (n : Fin 4) (flit : List Byte),
      let up : Prop := s.lkUp n = true
      up ∧ flit.length ≠ 32) :=
  ⟨⟨witLinksCarryFlitsAndServeAccesses5, 2, (fl 1 2 3 4), [], by decide +kernel⟩,
   ⟨witLinksCarryFlitsAndServeAccesses6, 2, ⟨1, 8, 0x33, [1,2], 10⟩, [], by decide +kernel⟩,
   ⟨witLinksCarryFlitsAndServeAccesses7, 2, ⟨1, 8, 0x33, [1,2], 10⟩, [], by decide +kernel⟩,
   ⟨witLinksCarryFlitsAndServeAccesses8, 2, ⟨1, 8, 0x33, [1,2], 10⟩, [], by decide +kernel⟩,
   ⟨witLinksCarryFlitsAndServeAccesses11, 2, by decide +kernel⟩,
   ⟨witLinksCarryFlitsAndServeAccesses12, 2, 100, by decide +kernel⟩,
   ⟨witLinksCarryFlitsAndServeAccesses13, 2, ⟨1, 8, 0x33, [1,2], 10⟩, [], by decide +kernel⟩,
   ⟨witLinksCarryFlitsAndServeAccesses22, 2, [1,2], by decide +kernel⟩⟩

theorem witness_LinksCarryFlitsAndServeAccesses_3 :
    (∃ (s : State) (n : Fin 4),
      s.lkState n = 4 ∧ s.notYet (Instr.trainingRetry n) = false) ∧
    (∃ (s : State) (m : Master) (x : Ctx) (n : Fin 4),
      s.enters m true x [rLk n.val 0, rLk n.val 32] ∧ s.domReady (76 + n.val) = true ∧ x.free = true ∧ s.lkState n = 6) ∧
    (∃ (s : State) (m : Master) (x : Ctx) (n : Fin 4),
      s.enters m true x [rLk n.val 0, rLk n.val 32] ∧ s.domReady (76 + n.val) = true ∧ x.free = false) ∧
    (∃ (s : State) (n : Fin 4) (r : MemReq),
      let up : Prop := s.lkUp n = true
      up ∧ s.memBad r = true) ∧
    (∃ (s : State) (n : Fin 4) (q : RemoteReq) (tag : BitVec 16),
      let up : Prop := s.lkUp n = true
      up ∧ s.remoteByTag tag = some q ∧ q.use = RemoteUse.command ∧ 3 ≤ q.busy) :=
  ⟨⟨witLinksCarryFlitsAndServeAccesses27, 2, by decide +kernel⟩,
   ⟨witLinksCarryFlitsAndServeAccesses31, Master.sc, scCtx, 2, by unfold State.enters; decide +kernel, by decide +kernel⟩,
   ⟨witLinksCarryFlitsAndServeAccesses32, (Master.core 5), (ctx c5 (.core 5)), 2, by unfold State.enters; decide +kernel,
    by decide +kernel⟩,
   ⟨witLinksCarryFlitsAndServeAccesses35, 2, ⟨0, 3, 0x55, 0x800000, 0xAABBCCDD, 5, true⟩, by decide +kernel⟩,
   ⟨witLinksCarryFlitsAndServeAccesses36, 2, (rq true 3), 0x77, by decide +kernel⟩⟩

def witInterfacesMoveFramesAndBytes0 : State := {ethS.setEth 1 {ethS.eth 1 with rxPos := 3, txPos := 1} with mem := ethS.mem}
def witInterfacesMoveFramesAndBytes1 : State := ethS.setEth 1 {ethS.eth 1 with walk := true}
def witInterfacesMoveFramesAndBytes3 : State := canR.setCan 2 {canR.can 2 with walk := true}
def witInterfacesMoveFramesAndBytes9 : State := (canS 0x200FF).setCan 2 {R.can 2 with recover := true}
def witInterfacesMoveFramesAndBytes10 : State := (canS 0x0).setRg (rCan 2 0x40) 0x80000005
def witInterfacesMoveFramesAndBytes12 : State := uaS 0x10071 [5,6] [0x85]
def witInterfacesMoveFramesAndBytes14 : State := uaS 0xB1 (List.replicate 16 9) (List.replicate 16 7)
def witInterfacesMoveFramesAndBytes15 : State := R.setMode 0
def witInterfacesMoveFramesAndBytes17 : State := {oz with oz := {(oz).oz with sessions := (oz).oz.sessions.set 2 (some ({y0 with via := .spih})) , refusal := some [1,2,3], spih := [(2,[5])]}}
def witInterfacesMoveFramesAndBytes18 : State := {oz with oz := {(oz).oz with sessions := (oz).oz.sessions.set 2 (some ({y0 with via := .spih})) , spih := [(2,[5]), (3,[7,8])]}}
def witInterfacesMoveFramesAndBytes19 : State := {uaS 0xA1 [5,6] [0x85] with due := [(9, .uartRxTimeout 1)]}
def witInterfacesMoveFramesAndBytes20 : State := canR.setFlag (rCan 2 0) 2 true

theorem witness_InterfacesMoveFramesAndBytes :
    (∃ (s : State) (m : Master) (x : Ctx) (p : Fin 2) (c : Fin 6) (u : Fin 3) (frame : List Byte) (tx : Bool) (b : Byte) (bytes : List Byte) (w : Word) (ws : List Word) (r : RingPort),
      let on : Prop := s.portOn (RingPort.can c) = true ∧ s.canState c ≠ 2 ∧ s.flag (rCan c.val 0) 3 = false
      let q : UartState := s.uart u
      let spih : Prop := s.mode ≠ 0 ∧ s.domReady 83 = true
      let z : RingState := s.ring r
      s.enters m true x [rCan c.val 0, rUart u.val 4] ∧ s.enters m false x [rUart u.val 4] ∧ s.ethAccept p frame = none ∧
      z.walk = false ∧ (¬on) ∧ s.domReady 83 = true ∧ s.unitMay x (56 + c.val) = true ∧ s.canState c ≠ 2 ∧
      s.unitMay x (62 + u.val) = true ∧ (s.can c).recover = false ∧ s.uartOn u = true ∧ q.rx.length < 16 ∧ (true || true) = true ∧
      s.notYet (Instr.uartRxTimeout u) = true ∧ q.tx = [b] ∧ s.uartSel u = 2 ∧ q.rx = w :: ws ∧ spih ∧ bytes.length < 16 ∧
      s.oz.refusal = none ∧ s.oz.spih = []) ∧
    (∃ (s : State) (m : Master) (x : Ctx) (p : Fin 2) (c : Fin 6) (u : Fin 3) (f : CanFrame) (r : RingPort) (g : Fin 6),
      let plain : Prop := s.ecc = [] ∧ s.poison = [] ∧ s.collided = none ∧ (∀ (i : Nat), i < 8 → s.domReady (55 + i) = true ∧ s.testing 8 i = false) ∧ ∀ (o : Option Bool), o ∈ s.bankWorld.toList → o ≠ some false
      let on : Prop := s.portOn (RingPort.can c) = true ∧ s.canState c ≠ 2 ∧ s.flag (rCan c.val 0) 3 = false
      let q : UartState := s.uart u
      let n : Nat := s.fld (rRing r 8) 8 8
      let z : RingState := s.ring r
      let a : Nat := s.fld (rRing r 4) 0 32 + 8 * (z.txPos % n)
      s.enters m true x [txgoAddr r] ∧ s.enters m false x [rUart u.val 4] ∧
      s.unitMay x (match r with | RingPort.eth q => 66 + q.val | RingPort.can q => 56 + q.val) = true ∧ s.portOn r = true ∧
      z.walk = true ∧ plain ∧ n ≠ 0 ∧ a % 4 = 0 ∧ sramBase ≤ a ∧ a + 8 ≤ sramBase + 8388608 ∧
      s.domReady (match r with | RingPort.eth p => 82 | RingPort.can c => 83) = true ∧
      (∀ (g : Fin 6), r = RingPort.can g → s.flag (rCan g.val 0) 3 = false) ∧ r = RingPort.can g ∧ on ∧
      (f.fdf = false ∨ s.flag (rCan c.val 0) 1 = true) ∧ s.canFilter c f = false ∧ s.uartOn u = false ∧ s.domReady 83 = true ∧ q.rx = []) ∧
    (∃ (s : State) (m : Master) (x : Ctx) (p : Fin 2) (c : Fin 6) (u : Fin 3) (r : RingPort),
      let q : UartState := s.uart u
      s.enters m true x [txgoAddr r] ∧ s.enters m true x [rCan c.val 0, rUart u.val 4] ∧
      s.domReady (match r with | RingPort.eth p => 82 | RingPort.can c => 83) = true ∧
      s.unitMay x (match r with | RingPort.eth q => 66 + q.val | RingPort.can q => 56 + q.val) = false ∧ s.domReady 83 = true ∧
      s.unitMay x (56 + c.val) = false ∧ s.unitMay x (62 + u.val) = false) ∧
    (∃ (s : State) (h : ReqHdr) (y : Session) (d : List Byte) (bufs : Nat) (r : BitVec 8 × List Byte) (rs : List (BitVec 8 × List Byte)),
      let spih : Prop := s.mode ≠ 0 ∧ s.domReady 83 = true
      s.serves h y 2 d ∧ spih ∧ h.via = Transport.spih ∧ y.auth = !y.key.isEmpty ∧ 1 ≤ y.gen ∧ y.gen ≤ 3 ∧ d.length ≤ maxLen y.gen ∧
      bufs < 256 ∧ y.fresh h.seq = true ∧ y.open_ < y.limit ∧ s.spihSlots < 16 ∧ s.oz.refusal = none ∧ s.oz.spih = r :: rs) ∧
    (∃ (s : State) (m : Master) (x : Ctx) (p : Fin 2) (u : Fin 3) (frame : List Byte) (body : List Byte) (r : RingPort),
      let plain : Prop := s.ecc = [] ∧ s.poison = [] ∧ s.collided = none ∧ (∀ (i : Nat), i < 8 → s.domReady (55 + i) = true ∧ s.testing 8 i = false) ∧ ∀ (o : Option Bool), o ∈ s.bankWorld.toList → o ≠ some false
      let rxN : Nat := s.fld (rRing (RingPort.eth p) 8) 0 8
      let rxE : Nat := s.fld (rRing (RingPort.eth p) 0) 0 32 + 8 * ((s.ring (RingPort.eth p)).rxPos % rxN)
      let buf : Nat := BitVec.toNat (s.memWord rxE)
      let q : UartState := s.uart u
      let n : Nat := s.fld (rRing r 8) 8 8
      let z : RingState := s.ring r
      let a : Nat := s.fld (rRing r 4) 0 32 + 8 * (z.txPos % n)
      s.enters m true x [txgoAddr r] ∧ s.ethAccept p frame = some body ∧ s.udpParse p body = none ∧ isGptp body = false ∧
      s.arpFor p body = false ∧ plain ∧ rxN ≠ 0 ∧ rxE % 4 = 0 ∧ sramBase ≤ rxE ∧ rxE + 8 ≤ sramBase + 8388608 ∧ sramBase ≤ buf ∧
      buf + body.length ≤ sramBase + 8388608 ∧ (buf + body.length ≤ rxE ∨ rxE + 8 ≤ buf) ∧ bit (s.memWord (rxE + 4)) 16 = true ∧
      body.length ≤ bits (s.memWord (rxE + 4)) 0 13 ∧
      s.unitMay x (match r with | RingPort.eth q => 66 + q.val | RingPort.can q => 56 + q.val) = true ∧ s.portOn r = true ∧
      s.sends r = true ∧ z.walk = false ∧ n ≠ 0 ∧ a % 4 = 0 ∧ sramBase ≤ a ∧ a + 8 ≤ sramBase + 8388608 ∧
      bit (s.memWord (a + 4)) 16 = true ∧ sramBase ≤ BitVec.toNat (s.memWord a) ∧
      BitVec.toNat (s.memWord a) + bits (s.memWord (a + 4)) 0 13 ≤ sramBase + 8388608 ∧
      s.unsent r (ringFrame r (s.memBytes (BitVec.toNat (s.memWord a)) (bits (s.memWord (a + 4)) 0 13))) = false) ∧
    (∃ (s : State) (m : Master) (x : Ctx) (c : Fin 6) (u : Fin 3),
      s.enters m true x [rCan c.val 0, rUart u.val 4] ∧ s.domReady 83 = true ∧ s.unitMay x (56 + c.val) = true ∧ s.canState c = 2 ∧
      s.portOn (RingPort.can c) = true ∧ (s.can c).recover = true) ∧
    (∃ (s : State) (u : Fin 3),
      let q : UartState := s.uart u
      s.uartOn u = true ∧ q.rx ≠ [] ∧ s.uartSel u = 1 ∧ s.notYet (Instr.uartRxTimeout u) = false) ∧
    (∃ (s : State) (m : Master) (x : Ctx) (u : Fin 3) (r : RingPort),
      let plain : Prop := s.ecc = [] ∧ s.poison = [] ∧ s.collided = none ∧ (∀ (i : Nat), i < 8 → s.domReady (55 + i) = true ∧ s.testing 8 i = false) ∧ ∀ (o : Option Bool), o ∈ s.bankWorld.toList → o ≠ some false
      let q : UartState := s.uart u
      let n : Nat := s.fld (rRing r 8) 8 8
      let z : RingState := s.ring r
      let a : Nat := s.fld (rRing r 4) 0 32 + 8 * (z.txPos % n)
      s.enters m true x [txgoAddr r] ∧ s.unitMay x (match r with | RingPort.eth q => 66 + q.val | RingPort.can q => 56 + q.val) = true ∧
      s.portOn r = true ∧ s.sends r = true ∧ z.walk = false ∧ plain ∧ n ≠ 0 ∧ a % 4 = 0 ∧ sramBase ≤ a ∧ a + 8 ≤ sramBase + 8388608 ∧
      bit (s.memWord (a + 4)) 16 = false) :=
  ⟨⟨witInterfacesMoveFramesAndBytes19, Master.sc, scCtx, 1, 2, 1, ethF, true, 0x85, [1,2,3], 5, [6], (RingPort.eth 1),
    by unfold State.enters; decide +kernel, by unfold State.enters; decide +kernel, by decide +kernel⟩,
   ⟨witInterfacesMoveFramesAndBytes3, Master.sc, scCtx, 1, 2, 1, ⟨5,false,false,false,false,3,[1,2,3]⟩, (RingPort.can 2), 2,
    by unfold State.enters; decide +kernel, by unfold State.enters; decide +kernel, by decide +kernel⟩,
   ⟨c5, (Master.core 5), (ctx c5 (.core 5)), 1, 2, 1, (RingPort.eth 1), by unfold State.enters; decide +kernel,
    by unfold State.enters; decide +kernel, by decide +kernel⟩,
   ⟨witInterfacesMoveFramesAndBytes18, ({h0 with via := .spih}), ({y0 with via := .spih}), [9,8,7], 3, ((2, [5])), [(3, [7,8])],
    serves_of (by decide +kernel), by decide +kernel⟩,
   ⟨ethS, Master.sc, scCtx, 1, 1, ethF, ethB, (RingPort.eth 1), by unfold State.enters; decide +kernel, by decide +kernel⟩,
   ⟨witInterfacesMoveFramesAndBytes9, Master.sc, scCtx, 2, 1, by unfold State.enters; decide +kernel, by decide +kernel⟩,
   ⟨witInterfacesMoveFramesAndBytes12, 1, by decide +kernel⟩,
   ⟨witInterfacesMoveFramesAndBytes0, Master.sc, scCtx, 1, (RingPort.eth 1), by unfold State.enters; decide +kernel, by decide +kernel⟩⟩

theorem witness_InterfacesMoveFramesAndBytes_2 :
    (∃ (s : State) (p : Fin 2) (c : Fin 6) (r : RingPort) (g : Fin 2),
      let plain : Prop := s.ecc = [] ∧ s.poison = [] ∧ s.collided = none ∧ (∀ (i : Nat), i < 8 → s.domReady (55 + i) = true ∧ s.testing 8 i = false) ∧ ∀ (o : Option Bool), o ∈ s.bankWorld.toList → o ≠ some false
      let n : Nat := s.fld (rRing r 8) 8 8
      let z : RingState := s.ring r
      let a : Nat := s.fld (rRing r 4) 0 32 + 8 * (z.txPos % n)
      z.walk = true ∧ plain ∧ n ≠ 0 ∧ a % 4 = 0 ∧ sramBase ≤ a ∧ a + 8 ≤ sramBase + 8388608 ∧
      s.domReady (match r with | RingPort.eth p => 82 | RingPort.can c => 83) = true ∧
      (∀ (g : Fin 6), r = RingPort.can g → s.flag (rCan g.val 0) 3 = false) ∧ r = RingPort.eth g) ∧
    (∃ (s : State) (c : Fin 6) (f : CanFrame),
      let on : Prop := s.portOn (RingPort.can c) = true ∧ s.canState c ≠ 2 ∧ s.flag (rCan c.val 0) 3 = false
      on ∧ (f.fdf = false ∨ s.flag (rCan c.val 0) 1 = true) ∧ s.canFilter c f = true) ∧
    (∃ (s : State) (u : Fin 3),
      let q : UartState := s.uart u
      s.uartOn u = true ∧ 16 ≤ q.rx.length) ∧
    (∃ (s : State),
      s.mode = 0) ∧
    (∃ (s : State) (bytes : List Byte),
      let spih : Prop := s.mode ≠ 0 ∧ s.domReady 83 = true
      spih ∧ s.oz.refusal = some bytes) ∧
    (∃ (s : State) (m : Master) (x : Ctx) (u : Fin 3) (r : RingPort),
      let q : UartState := s.uart u
      let z : RingState := s.ring r
      s.enters m true x [txgoAddr r] ∧ s.unitMay x (match r with | RingPort.eth q => 66 + q.val | RingPort.can q => 56 + q.val) = true ∧
      s.portOn r = true ∧ s.sends r = false ∧ z.walk = false) :=
  ⟨⟨witInterfacesMoveFramesAndBytes1, 1, 2, (RingPort.eth 1), 1, by decide +kernel⟩,
   ⟨witInterfacesMoveFramesAndBytes10, 2, ⟨5,false,false,false,false,3,[1,2,3]⟩, by decide +kernel⟩,
   ⟨witInterfacesMoveFramesAndBytes14, 1, by decide +kernel⟩,
   ⟨witInterfacesMoveFramesAndBytes15, by decide +kernel⟩,
   ⟨witInterfacesMoveFramesAndBytes17, [1,2,3], by decide +kernel⟩,
   ⟨witInterfacesMoveFramesAndBytes20, Master.sc, scCtx, 1, (RingPort.can 2), by unfold State.enters; decide +kernel, by decide +kernel⟩⟩

def witModesDomainsAndResetsAct0 : State := {R with rateDue := [(0,3,2)]}
def witModesDomainsAndResetsAct1 : State := ({R with rateDue := [(0,3,0)]}).setFld rDroopStat 6 2 1
def witModesDomainsAndResetsAct3 : State := {((R.setMode 2).setFlag (rPwrOn + 4) 8 false) with offDue := BitVec.ofNat 85 (2^40)}
def witModesDomainsAndResetsAct4 : State := (R.setCore 5 {R.core 5 with testEnd := some 0})
def witModesDomainsAndResetsAct5 : State := {((R.setMode 2).setRg rWakeCtl 1) with modeReq := some 0}
def witModesDomainsAndResetsAct6 : State := (scr <| bt (fun b => {b with scDown := true, start := [], scOk := true})).setFlag rBootStat 5 true
def witModesDomainsAndResetsAct7 : State := domOff R 78 |>.setFlag (rPwrOn + 8) 14 true |>.setFlag (rLk 2 0) 0 true
def witModesDomainsAndResetsAct11 : State := (R.setMode 3).setRg rShEn 0x3F
def witModesDomainsAndResetsAct12 : State := ((R.setMode 2).setRg rShEn 0x3F).setFlag rDroopStat 24 true
def witModesDomainsAndResetsAct18 : State := domOff R 40
def witModesDomainsAndResetsAct20 : State := (domOff R 5).setFlag (rPwrOn) 5 true
def witModesDomainsAndResetsAct21 : State := pr 0 (fun p => {p with mode := 1}) R
def witModesDomainsAndResetsAct22 : State := {R.fence 5 with protPend := true, protNew := 1, flash := [(5,3)], mem := [⟨4,4⟩]}
def witModesDomainsAndResetsAct23 : State := bt (fun b => {b with ready := true, start := [(5, 0x1230)]})
def witModesDomainsAndResetsAct26 : State := { R.setMode 2 with due := [(500, .domainReady 40)] }

theorem witness_ModesDomainsAndResetsAct :
    (∃ (s : State) (m : Master) (x : Ctx) (req : Fin 8) (temp : BitVec 9) (k : Fin 9) (half : Bool) (d : Fin 85) (n : Fin 36) (key : Byte) (w : WakeSource),
      let dr : Nat := s.fld rDroopStat (2 * k.val) 2
      let last : Nat := s.rateLast k
      let down : Nat := if half = true then 2 else 1
      s.enters m true x [rSysMode, basePwr + 4 * (d.val / 32), rSysReset] ∧ x.free = true ∧ 2 ≤ req.val ∧ req.val ≤ 5 ∧
      s.mode ≠ req.val ∧ s.modeAllowed req.val = true ∧ s.shDue = false ∧ s.domOn d.val = true ∧ s.offRefused d.val = false ∧
      key = (90 : Byte) ∧ s.mode ≠ 0 ∧ Int.ofNat (s.fld rTemp 16 8) < temp.toInt ∧ s.shEnabled 0 = true ∧
      (s.mode = 2 ∨ s.mode = 3 ∨ s.mode = 5) ∧ s.flag rTemp 24 = false ∧ s.flag rDroopStat 24 = false ∧ s.shEnabled 1 = true ∧
      last < down ∧ s.rateDue = [] ∧ dr = 0 ∧ last = 0 ∧
      (s.domOn d.val = false ∨ s.domReady d.val = true ∨ s.notYet (Instr.domainReady d) = true) ∧
      s.notYet (Instr.domainReady d) = false ∧ (∀ (e : Nat × Fin 85), e ∈ s.faultDue → e.snd ≠ d) ∧
      (s.domReady n.val = false ∨ (s.core (coreId n.val)).testEnd = none) ∧ s.protPend = false ∧ s.mode ≠ 1 ∧ s.modeNext = some 0 ∧
      s.dormant.mayWake w = true ∧ s.scRestartOver = false) ∧
    (∃ (s : State) (m : Master) (x : Ctx) (req : Fin 8) (k : Fin 9) (half : Bool) (d : Fin 85) (w : WakeSource) (j : Nat) (rate : Nat),
      let dr : Nat := s.fld rDroopStat (2 * k.val) 2
      let last : Nat := s.rateLast k
      let down : Nat := if half = true then 2 else 1
      s.enters m true x [rSysMode, basePwr + 4 * (d.val / 32), rSysReset] ∧ x.free = true ∧ s.mode ≠ modeCode req.val ∧
      s.modeAllowed (modeCode req.val) = false ∧ down ≤ last ∧ s.mode ≠ 0 ∧ 0 < last ∧ rate < 3 ∧ s.rateDue = [(j, k, rate)] ∧
      j ≤ s.now ∧ dr < rate ∧ s.mode = 1 ∧ s.boot.ready = false ∧ s.otpLoaded = false ∧ s.protPend = false ∧
      s.otpLoad.fld rTbCtl 0 2 ≠ 1 ∧ s.modeNext ≠ some 0 ∧ (s.mode ≠ 0 ∨ s.mayWake w = false)) ∧
    (∃ (s : State) (k : Fin 9) (j : Nat) (rate : Nat),
      let dr : Nat := s.fld rDroopStat (2 * k.val) 2
      rate < 3 ∧ s.rateDue = [(j, k, rate)] ∧ j ≤ s.now ∧ rate ≤ dr ∧ rate = 0 ∧ rate < dr) ∧
    (∃ (s : State) (m : Master) (x : Ctx) (d : Fin 85),
      s.enters m true x [rSysMode, basePwr + 4 * (d.val / 32), rSysReset] ∧ x.free = true ∧ s.domOn d.val = false ∧
      s.offDue.getLsbD d.val = true ∧ (s.domOn d.val = false ∨ ∃ e, e ∈ s.faultDue ∧ e.snd = d)) ∧
    (∃ (s : State) (a : Word) (z : List Byte) (e : SlotEntry) (b : List Byte),
      let slot : Bool := s.flag rBootStat 2
      s.scRestartOver = true ∧ s.flUndef = [] ∧ s.flag rBootStat 5 = false ∧
      List.find? (fun e ↦ e.fst == 36) s.boot.start = some (36, a) ∧ s.manifest slot = some z ∧
      List.find? (fun e ↦ e.core == 36) (slotEntries z) = some e ∧ s.slotBytes (slotBase slot + e.off) e.len = some b ∧
      sha256 b = e.digest) ∧
    (∃ (s : State) (d : Fin 85) (i : Fin 4),
      s.domOn d.val = true ∧ s.domReady d.val = false ∧ s.notYet (Instr.domainReady d) = false ∧ d.val = 76 + i.val ∧
      s.flag (rLk i.val 0) 0 = true) ∧
    (∃ (s : State) (w : WakeSource),
      s.mode = 0 ∧ s.modeNext ≠ some 0 ∧ s.mayWake w = true) ∧
    (∃ (s : State) (temp : BitVec 9),
      s.mode ≠ 0 ∧ temp.toInt ≤ Int.ofNat (s.fld rTemp 16 8) ∧ s.flag rDroopStat 24 = true) :=
  ⟨⟨witModesDomainsAndResetsAct5, Master.sc, scCtx, 3, 146, 3, true, 40, 5, 0x5A, .nwake, by unfold State.enters; decide +kernel,
    by decide +kernel⟩,
   ⟨witModesDomainsAndResetsAct0, Master.sc, scCtx, 3, 3, true, 40, .nwake, 0, 2, by unfold State.enters; decide +kernel,
    by decide +kernel⟩,
   ⟨witModesDomainsAndResetsAct1, 3, 0, 0, by decide +kernel⟩,
   ⟨witModesDomainsAndResetsAct3, Master.sc, scCtx, 40, by unfold State.enters; decide +kernel, by decide +kernel⟩,
   ⟨mfS, 0x1230, mfb, ⟨36,0,0x100,0,0x1230,sha256 []⟩, [], by decide +kernel⟩,
   ⟨witModesDomainsAndResetsAct7, 78, 2, by decide +kernel⟩,
   ⟨witInterfacesMoveFramesAndBytes15, .spih, by decide +kernel⟩,
   ⟨witModesDomainsAndResetsAct12, 145, by decide +kernel⟩⟩

theorem witness_ModesDomainsAndResetsAct_2 :
    (∃ (s : State) (c : CoreId) (a : Word),
      s.mode = 1 ∧ s.boot.ready = true ∧ s.boot.start = [(c.val, a)]) ∧
    (∃ (s : State) (m : Master) (x : Ctx) (req : Fin 8) (d : Fin 85) (e : Nat),
      s.enters m true x [rSysMode, basePwr + 4 * (d.val / 32), rSysReset] ∧ x.free = true ∧ modeCode req.val = 0 ∧
      s.modeAllowed 0 = true ∧ s.domOn d.val = true ∧ s.due = [(e, Instr.domainReady d)] ∧ s.now < e ∧
      (∀ (e : Nat × Fin 85), e ∈ s.faultDue → e.snd ≠ d)) ∧
    (∃ (s : State) (n : Fin 36) (e : Nat),
      s.domReady n.val = true ∧ (s.core (coreId n.val)).run = RunState.halted ∧ (s.core (coreId n.val)).testEnd = some e ∧ e ≤ s.now) ∧
    (∃ (s : State),
      s.scRestartOver = true ∧ s.flag rBootStat 5 = true ∧ s.boot.start = [] ∧ s.boot.scOk = true) ∧
    (∃ (s : State) (m : Master) (x : Ctx) (d : Fin 85) (key : Byte),
      s.enters m true x [rSysMode, basePwr + 4 * (d.val / 32), rSysReset] ∧ x.free = true ∧ key ≠ (90 : Byte)) ∧
    (∃ (s : State) (m : Master) (x : Ctx) (d : Fin 85),
      s.enters m true x [rSysMode, basePwr + 4 * (d.val / 32), rSysReset] ∧ x.free = true ∧ s.domOn d.val = false ∧
      s.offDue.getLsbD d.val = false) ∧
    (∃ (s : State) (d : Fin 85),
      s.domOn d.val = true ∧ s.domReady d.val = false ∧ s.notYet (Instr.domainReady d) = false ∧ d.val < 36) ∧
    (∃ (s : State) (m : Master) (x : Ctx) (d : Fin 85),
      s.enters m true x [rSysMode, basePwr + 4 * (d.val / 32), rSysReset] ∧ x.free = true ∧ s.domOn d.val = true ∧
      s.offRefused d.val = true) :=
  ⟨⟨witModesDomainsAndResetsAct23, 5, 0x1230, by decide +kernel⟩,
   ⟨witModesDomainsAndResetsAct26, Master.sc, scCtx, 6, 40, 500, by unfold State.enters; decide +kernel, by decide +kernel⟩,
   ⟨witModesDomainsAndResetsAct4, 5, 0, by decide +kernel⟩,
   ⟨witModesDomainsAndResetsAct6, by decide +kernel⟩,
   ⟨witModesDomainsAndResetsAct11, Master.sc, scCtx, 40, 0, by unfold State.enters; decide +kernel, by decide +kernel⟩,
   ⟨witModesDomainsAndResetsAct18, Master.sc, scCtx, 40, by unfold State.enters; decide +kernel, by decide +kernel⟩,
   ⟨witModesDomainsAndResetsAct20, 5, by decide +kernel⟩,
   ⟨witModesDomainsAndResetsAct21, Master.sc, scCtx, 6, by unfold State.enters; decide +kernel, by decide +kernel⟩⟩

theorem witness_ModesDomainsAndResetsAct_3 :
    (∃ (s : State) (m : Master) (x : Ctx) (d : Fin 85),
      s.enters m true x [rSysMode, basePwr + 4 * (d.val / 32), rSysReset] ∧ x.free = false) ∧
    (∃ (s : State),
      s.protPend = true) ∧
    (∃ (s : State) (n : Fin 36) (f : BootFindings),
      s.mode = 1 ∧ s.boot.ready = false ∧ s.otpLoaded = false ∧ s.protPend = false ∧ s.otpLoad.fld rTbCtl 0 2 ≠ 1 ∧
      f.coreFail.getLsbD n.val = true) :=
  ⟨⟨c5, (Master.core 5), (ctx c5 (.core 5)), 40, by unfold State.enters; decide +kernel, by decide +kernel⟩,
   ⟨witModesDomainsAndResetsAct22, by decide +kernel⟩,
   ⟨R, 5, ({f0 with coreFail := 0x20, checkerFailQ := 1, failing := loc 2 33}), by decide +kernel⟩⟩

def witDebugPortReachesCoresAndPins0 : State := {R with jtag := {R.jtag with stat := 1}}
def witDebugPortReachesCoresAndPins1 : State := (dbgS (lmem (R.setMode 2)))
def witDebugPortReachesCoresAndPins3 : State := (dbgS (lmem (R.setMode 1)))
def witDebugPortReachesCoresAndPins4 : State := {(dbgS (lmem (R.setMode 2))) with prot := 2}
def witDebugPortReachesCoresAndPins5 : State := (dbgS (lmem (R.setMode 3)))
def witDebugPortReachesCoresAndPins6 : State := (wCore 5 id (dbgS (lmem (R.setMode 2))))
def witDebugPortReachesCoresAndPins7 : State := (wCore 5 (fun k => {k with noInt := true}) (dbgS (lmem (R.setMode 2))))
def witDebugPortReachesCoresAndPins8 : State := domOff (dbgS (lmem (R.setMode 2))) 5

theorem witness_DebugPortReachesCoresAndPins :
    (∃ (s : State) (c : CoreId) (a : Word),
      let k : CoreState := s.core c
      let may : Prop := s.debugShut true = false ∧ s.domReady c.val = true ∧ s.role c.val = Role.solo
      let opened : Prop := s.jtag.stat ≠ 1 ∧ s.otpLoaded = true ∧ s.prot ≠ (2 : Fin 3)
      let reach : Prop := s.domReady c.val = true ∧ s.role c.val = Role.solo
      may ∧ k.run = RunState.halted ∧ s.pairStopped c.val = false ∧ opened ∧ reach ∧ a.toNat ≤ 84 ∧ s.mode ≠ 1 ∧ a.toNat % 4 = 0 ∧
      a = (16 : Word)) ∧
    (∃ (s : State) (c : CoreId) (a : Word),
      let opened : Prop := s.jtag.stat ≠ 1 ∧ s.otpLoaded = true ∧ s.prot ≠ (2 : Fin 3)
      let plain : Prop := s.ecc = [] ∧ s.poison = [] ∧ s.collided = none
      let word : Prop := a.toNat % 4 = 0 ∧ isSram a.toNat = true ∧ s.sramBad a.toNat = false
      (s.debugShut true = true ∨ s.domReady c.val = false) ∧ opened ∧ plain ∧ word ∧ s.mode = 1) ∧
    (∃ (s : State) (c : CoreId),
      let k : CoreState := s.core c
      let may : Prop := s.debugShut true = false ∧ s.domReady c.val = true ∧ s.role c.val = Role.solo
      let opened : Prop := s.jtag.stat ≠ 1 ∧ s.otpLoaded = true ∧ s.prot ≠ (2 : Fin 3)
      let reach : Prop := s.domReady c.val = true ∧ s.role c.val = Role.solo
      may ∧ k.run = RunState.running ∧ k.noInt = false ∧ opened ∧ reach ∧ k.run ≠ RunState.halted) ∧
    (∃ (s : State),
      s.jtag.stat = 1) ∧
    (∃ (s : State) (a : Word),
      let opened : Prop := s.jtag.stat ≠ 1 ∧ s.otpLoaded = true ∧ s.prot ≠ (2 : Fin 3)
      let plain : Prop := s.ecc = [] ∧ s.poison = [] ∧ s.collided = none
      let word : Prop := a.toNat % 4 = 0 ∧ isSram a.toNat = true ∧ s.sramBad a.toNat = false
      opened ∧ s.mode ≠ 1 ∧ plain ∧ word) ∧
    (∃ (s : State),
      s.jtag.stat ≠ 1 ∧ s.otpLoaded = true ∧ s.prot = (2 : Fin 3)) ∧
    (∃ (s : State) (a : Word) (sp : DbgSpace),
      let opened : Prop := s.jtag.stat ≠ 1 ∧ s.otpLoaded = true ∧ s.prot ≠ (2 : Fin 3)
      opened ∧ a.toNat % 4 ≠ 0 ∧ sp ≠ DbgSpace.reg) ∧
    (∃ (s : State) (c : CoreId),
      let k : CoreState := s.core c
      let may : Prop := s.debugShut true = false ∧ s.domReady c.val = true ∧ s.role c.val = Role.solo
      may ∧ k.run = RunState.running ∧ k.noInt = true) ∧
    (∃ (s : State) (c : CoreId),
      let opened : Prop := s.jtag.stat ≠ 1 ∧ s.otpLoaded = true ∧ s.prot ≠ (2 : Fin 3)
      opened ∧ s.role c.val = Role.solo ∧ s.domReady c.val = false) ∧
    (∃ (s : State) (c : CoreId) (a : Word) (w : Word),
      let k : CoreState := s.core c
      let opened : Prop := s.jtag.stat ≠ 1 ∧ s.otpLoaded = true ∧ s.prot ≠ (2 : Fin 3)
      let reach : Prop := s.domReady c.val = true ∧ s.role c.val = Role.solo
      s.privRead c k.world true a.toNat = Except.ok w ∧ opened ∧ reach ∧ a.toNat % 4 = 0 ∧ regionOf a.toNat = Region.priv) :=
  ⟨⟨witDebugPortReachesCoresAndPins1, 5, 0x10, by decide +kernel⟩,
   ⟨witDebugPortReachesCoresAndPins3, 5, 0x20000104, by decide +kernel⟩,
   ⟨witDebugPortReachesCoresAndPins6, 5, by decide +kernel⟩,
   ⟨witDebugPortReachesCoresAndPins0, by decide +kernel⟩,
   ⟨witDebugPortReachesCoresAndPins1, 0x20000104, by decide +kernel⟩,
   ⟨witDebugPortReachesCoresAndPins4, by decide +kernel⟩,
   ⟨witDebugPortReachesCoresAndPins5, 0x20000105, .mem, by decide +kernel⟩,
   ⟨witDebugPortReachesCoresAndPins7, 5, by decide +kernel⟩,
   ⟨witDebugPortReachesCoresAndPins8, 5, by decide +kernel⟩,
   ⟨witDebugPortReachesCoresAndPins1, 5, 0xE0002000,
    (match ((dbgS (lmem (R.setMode 2)))).privRead 5 false true 0xE0002000 with | .ok w => w | _ => 0), ok_of (by decide +kernel),
    by decide +kernel⟩⟩

end Sys2Proof.Tests
end

/-! # Comparators (chapter 4): the latches set and clear -/

namespace Sys2Proof.Machine

/-! ## What a latch that sets leaves alone (R107, R153)

A latch that sets lets general timers capture and interrupts become pending: registers of the general timers and of the cores'
interrupt controllers change beside its own two. -/

/-- The register lies on the bus and in no general timer. -/
def outsideCapture (k : Nat) : Prop := k < 0x100000000 ∧ k / 0x10000 ≠ 0x4003

/-- t keeps every register of s that a capture cannot write, and every comparator. -/
def State.captureKeeps (s t : State) : Prop := (∀ k, outsideCapture k → t.rg k = s.rg k) ∧ t.cmps = s.cmps

theorem State.captureKeeps.refl (s : State) : s.captureKeeps s := ⟨fun _ _ => rfl, rfl⟩

theorem State.captureKeeps.trans {s t u : State} (h : s.captureKeeps t) (g : t.captureKeeps u) : s.captureKeeps u :=
  ⟨fun k hk => (g.1 k hk).trans (h.1 k hk), g.2.trans h.2⟩

theorem State.captureKeeps.ite {s t u : State} {c : Prop} [Decidable c] (h : s.captureKeeps t) (g : s.captureKeeps u) :
    s.captureKeeps (if c then t else u) := by
  split
  · exact h
  · exact g

theorem State.captureKeeps.flag {s t : State} (h : s.captureKeeps t) {k : Nat} (hk : outsideCapture k) (i : Nat) :
    t.flag k i = s.flag k i := by simp [State.flag, h.1 k hk]

theorem State.captureKeeps.fld {s t : State} (h : s.captureKeeps t) {k : Nat} (hk : outsideCapture k) (lo len : Nat) :
    t.fld k lo len = s.fld k lo len := by simp [State.fld, h.1 k hk]

theorem State.captureKeeps.cmp {s t : State} (h : s.captureKeeps t) (n : Fin 32) : t.cmp n = s.cmp n := by
  simp [State.cmp, h.2]

/-- A change of one register that a capture may write. -/
theorem State.captureKeeps.of_rg {s t : State} (key : Nat) (hk : ¬ outsideCapture key) (hc : t.cmps = s.cmps)
    (hr : ∀ k, k ≠ key → t.rg k = s.rg k) : s.captureKeeps t :=
  ⟨fun k h => hr k (fun e => hk (e ▸ h)), hc⟩

theorem not_outsideCapture_rGt (n : Fin 32) (off : Nat) (h : off < 0x80) : ¬ outsideCapture (rGt n off) := by
  unfold outsideCapture rGt baseGt
  omega

theorem not_outsideCapture_rIcPend (c m : Nat) : ¬ outsideCapture (rIcPend c m) := by
  unfold outsideCapture rIcPend privKey
  omega

theorem outsideCapture_rCmpStat (n : Fin 32) : outsideCapture (rCmpStat n) := by
  unfold outsideCapture rCmpStat baseCmp
  omega

theorem outsideCapture_rCmpCnt (n : Fin 32) : outsideCapture (rCmpCnt n) := by
  unfold outsideCapture rCmpCnt baseCmp
  omega

theorem State.hwFlag_captureKeeps (s : State) (k i : Nat) (hk : ¬ outsideCapture k) : s.captureKeeps (s.hwFlag k i) :=
  .of_rg k hk rfl (fun j hj => by rw [State.hwFlag_rg, if_neg hj])

theorem State.setFlag_captureKeeps (s : State) (k i : Nat) (b : Bool) (hk : ¬ outsideCapture k) :
    s.captureKeeps (s.setFlag k i b) :=
  .of_rg k hk rfl (fun j hj => by rw [State.setFlag_rg, if_neg hj])

theorem State.setRg_captureKeeps (s : State) (k : Nat) (w : Word) (hk : ¬ outsideCapture k) : s.captureKeeps (s.setRg k w) :=
  .of_rg k hk rfl (fun j hj => by rw [State.setRg_rg, if_neg hj])

theorem State.raiseInt_captureKeeps (s : State) (src : Nat) : s.captureKeeps (s.raiseInt src) := by
  have hset (c : Nat) : s.captureKeeps (s.hwFlag (rIcPend c (src / 32)) (src % 32)) :=
    s.hwFlag_captureKeeps _ _ (not_outsideCapture_rIcPend _ _)
  unfold State.raiseInt
  dsimp only
  split
  · split
    · exact .refl s
    · exact hset _
  · exact .refl s

theorem State.raiseInt_fab (s : State) (src : Nat) : (s.raiseInt src).fab = s.fab := by
  unfold State.raiseInt
  dsimp only
  split
  · split
    · rfl
    · rw [State.hwFlag_fab]
  · rfl

theorem State.fire_captureKeeps (s : State) (src : Nat) : s.captureKeeps (s.fire src) := by
  unfold State.fire
  split
  · exact State.raiseInt_captureKeeps _ src
  · exact .refl s

/-- A live source that activates stands in the feed. -/
theorem State.mem_feed_fire (s : State) (src : Nat) (h : s.sourceLive src = true) : src ∈ (s.fire src).fab.feed := by
  unfold State.fire
  rw [if_pos h, State.raiseInt_fab]
  dsimp only
  split
  · next hc => exact List.contains_iff_mem.mp hc
  · exact List.mem_append_right _ (List.mem_singleton.mpr rfl)

theorem State.gtCaptureVal_captureKeeps (s : State) (n : Fin 32) (i : Fin 4) (v : Nat) :
    s.captureKeeps (s.gtCaptureVal n i v) := by
  have hstat : ¬ outsideCapture (rGtStat n) := not_outsideCapture_rGt n _ (by decide)
  have hccr : ∀ m : Fin 32, ¬ outsideCapture (rGtCcr m i) := fun m => not_outsideCapture_rGt m _ (by omega)
  unfold State.gtCaptureVal
  dsimp only
  refine .trans ?_ (State.fire_captureKeeps _ _)
  have hs3 := (State.captureKeeps.ite (c := s.flag (rGtStat n) i) (s.hwFlag_captureKeeps (rGtStat n) (4 + i) hstat) (.refl s)).trans
    ((State.setFlag_captureKeeps _ _ i true hstat).trans (State.setRg_captureKeeps _ _ (BitVec.ofNat 32 v) (hccr n)))
  exact .ite (hs3.trans (State.setRg_captureKeeps _ _ _ (hccr _))) hs3

theorem State.gtLatchCapture_captureKeeps (s : State) (m : Nat) : s.captureKeeps (s.gtLatchCapture m) := by
  unfold State.gtLatchCapture
  refine List.foldlRecOn (motive := s.captureKeeps) _ _ (.refl s) (fun t ht n _ => ?_)
  refine List.foldlRecOn (motive := s.captureKeeps) _ _ ht (fun u hu i _ => ?_)
  split
  · exact hu.trans (u.gtCaptureVal_captureKeeps n i _)
  · exact hu

/-! ## A latch that is judged (R107, R110) -/

/-- The latch of comparator n stands in t as set by an output o, counted once more than in s, and its source has activated (R107). -/
def State.latchedBy (s t : State) (n : Fin 32) (o : CmpState) : Prop :=
  t.flag (rCmpStat n) 2 = true ∧ t.flag (rCmpStat n) 3 = (o == .below) ∧
    t.fld (rCmpCnt n) 0 16 = min 0xFFFF (s.fld (rCmpCnt n) 0 16 + 1) ∧ 384 + 2 * n.val + b2n (o == .below) ∈ t.fab.feed

/-- What a latch that sets writes of its own: LATCH, SIDE and the count. -/
def State.latchMark (s : State) (n : Fin 32) (side : Bool) : State :=
  ((s.hwFlag (rCmpStat n) 2).setFlag (rCmpStat n) 3 side).count (rCmpCnt n) 0 16 1

theorem State.cmpLatch_eq (s : State) (n : Fin 32) : s.cmpLatch n =
    ((s.latchMark n ((s.cmp n).raw == .below)).gtLatchCapture n).fire (384 + 2 * n + b2n ((s.cmp n).raw == .below)) := rfl

theorem rCmpStat_ne_rCmpCnt (n m : Nat) : rCmpStat n ≠ rCmpCnt m := by unfold rCmpStat rCmpCnt; omega

theorem State.latchMark_stat (s : State) (n : Fin 32) (side : Bool) :
    (s.latchMark n side).rg (rCmpStat n) = setBit (setBit (s.rg (rCmpStat n)) 2 true) 3 side := by
  simp [State.latchMark, State.count_rg, State.setFlag_rg, State.hwFlag_rg, rCmpStat_ne_rCmpCnt]

theorem State.latchMark_count (s : State) (n : Fin 32) (side : Bool) :
    (s.latchMark n side).fld (rCmpCnt n) 0 16 = min 0xFFFF (s.fld (rCmpCnt n) 0 16 + 1) := by
  have hne := (rCmpStat_ne_rCmpCnt n n).symm
  simp only [State.latchMark, State.fld, State.count_rg, State.setFlag_rg, State.hwFlag_rg, if_true, if_neg hne]
  rw [bits_setBits_same _ _ _ _ (by omega)]
  omega

theorem State.latchMark_other (s : State) (n : Fin 32) (side : Bool) (k : Nat) (hs : k ≠ rCmpStat n) (hc : k ≠ rCmpCnt n) :
    (s.latchMark n side).rg k = s.rg k := by
  simp [State.latchMark, State.count_rg, State.setFlag_rg, State.hwFlag_rg, hs, hc]

/-- The sources of comparator n live in its bank (R39). -/
theorem State.sourceLive_cmp (s : State) (n : Fin 32) (side : Bool) :
    s.sourceLive (384 + 2 * n + b2n side) = s.domReady (80 + n / 16) := by
  have hb : b2n side ≤ 1 := by cases side <;> decide
  have hd : (384 + 2 * n.val + b2n side - 384) / 32 = n.val / 16 := by omega
  unfold State.sourceLive
  rw [if_neg (by omega), if_neg (by omega), if_pos (by omega), hd]

/-- A power domain's ready bit stands in no comparator's register and in none that a capture writes. -/
theorem rPwrRdy_free (j : Nat) (hj : j < 4) : outsideCapture (rPwrRdy + 4 * j) ∧
    ∀ n : Fin 32, rPwrRdy + 4 * j ≠ rCmpStat n ∧ rPwrRdy + 4 * j ≠ rCmpCnt n := by
  unfold outsideCapture rPwrRdy basePwr rCmpStat rCmpCnt baseCmp
  exact ⟨by omega, fun n => by omega⟩

/-- What a latch that sets keeps of the state in which LATCH, SIDE and the count have been written. -/
theorem State.cmpLatch_keeps (s : State) (n : Fin 32) : (s.latchMark n ((s.cmp n).raw == .below)).captureKeeps (s.cmpLatch n) := by
  rw [State.cmpLatch_eq]
  exact (State.gtLatchCapture_captureKeeps _ n).trans (State.fire_captureKeeps _ _)

theorem State.cmpLatch_latchedBy (s : State) (n : Fin 32) (hd : s.domReady (80 + n / 16) = true) :
    s.latchedBy (s.cmpLatch n) n (s.cmp n).raw := by
  have hk := s.cmpLatch_keeps n
  refine ⟨?_, ?_, ?_, ?_⟩
  · rw [hk.flag (outsideCapture_rCmpStat n), State.flag, State.latchMark_stat, bit_setBit _ _ _ _ (by omega),
      bit_setBit _ _ _ _ (by omega)]
    rfl
  · rw [hk.flag (outsideCapture_rCmpStat n), State.flag, State.latchMark_stat, bit_setBit _ _ _ _ (by omega), if_pos rfl]
  · rw [hk.fld (outsideCapture_rCmpCnt n), State.latchMark_count]
  · rw [State.cmpLatch_eq]
    refine State.mem_feed_fire _ _ ?_
    obtain ⟨hout, hne⟩ := rPwrRdy_free ((80 + n.val / 16) / 32) (by omega)
    rw [State.sourceLive_cmp, State.domReady, State.bitOf, (State.gtLatchCapture_captureKeeps _ n).flag hout, State.flag,
      State.latchMark_other _ _ _ _ (hne n).1 (hne n).2]
    exact hd

theorem State.cmpLatch_cmp (s : State) (n m : Fin 32) : (s.cmpLatch n).cmp m = s.cmp m := (s.cmpLatch_keeps n).cmp m

theorem State.cmpLatch_elapsed (s : State) (n : Fin 32) : (s.cmpLatch n).cmpElapsed n = s.cmpElapsed n := by
  rw [State.cmpElapsed, (s.cmpLatch_keeps n).fld (outsideCapture_rCmpStat n), State.fld, State.latchMark_stat,
    bits_setBit_other _ _ _ _ _ (by omega) (by omega), bits_setBit_other _ _ _ _ _ (by omega) (by omega)]
  rfl

theorem State.cmpArmed_iff (s : State) (n : Fin 32) : s.cmpArmed n = true ↔ s.cmpOn n = true ∧ s.testing 4 n = false ∧
    (s.cmp n).holdOff = 0 ∧ (s.cmp n).guard = 0 ∧ s.cmpArm n ≤ s.cmpElapsed n := by
  simp [State.cmpArmed, and_assoc]

theorem State.cmpOn_domReady {s : State} {n : Nat} (h : s.cmpOn n = true) : s.domReady (80 + n / 16) = true := by
  simp only [State.cmpOn, Bool.and_eq_true] at h
  exact h.1.2

/-- R121: in DORMANT no latch acts. -/
theorem State.cmpOn_dormant (s : State) (n : Nat) (h : s.mode = 0) : s.cmpOn n = false := by
  simp [State.cmpOn, h]

theorem State.cmpJudge_sets (s : State) (n : Fin 32) (ha : s.cmpArmed n = true) (hc : s.flag (rCmpStat n) 2 = false)
    (ho : (s.cmp n).raw ≠ .inside) : s.latchedBy (s.cmpJudge n) n (s.cmp n).raw := by
  have hj : s.cmpJudge n = s.cmpLatch n := by simp [State.cmpJudge, ha, hc, ho]
  rw [hj]
  exact s.cmpLatch_latchedBy n (State.cmpOn_domReady ((s.cmpArmed_iff n).mp ha).1)

theorem State.cmpJudge_stays (s : State) (n : Fin 32)
    (h : s.cmpArmed n = false ∨ ¬ s.flag (rCmpStat n) 2 = false ∨ (s.cmp n).raw = .inside) : s.cmpJudge n = s := by
  unfold State.cmpJudge
  refine if_neg ?_
  rcases h with h | h | h <;> simp_all

theorem State.cmpJudge_cases (s : State) (n : Fin 32) : s.cmpJudge n = s.cmpLatch n ∨ s.cmpJudge n = s := by
  unfold State.cmpJudge
  split
  · exact .inl rfl
  · exact .inr rfl

@[simp] theorem State.cmpJudge_cmp (s : State) (n m : Fin 32) : (s.cmpJudge n).cmp m = s.cmp m := by
  rcases s.cmpJudge_cases n with h | h <;> rw [h]
  exact s.cmpLatch_cmp n m

@[simp] theorem State.cmpJudge_elapsed (s : State) (n : Fin 32) : (s.cmpJudge n).cmpElapsed n = s.cmpElapsed n := by
  rcases s.cmpJudge_cases n with h | h <;> rw [h]
  exact s.cmpLatch_elapsed n

/-! ## The events of a latch (R107, R110, R113) -/

theorem exec_latchSet (s : State) (n : Fin 32) (out : CmpState) :
    exec (.latchSet n out) s = .next ((s.setCmp n { s.cmp n with raw := out }).cmpJudge n) := rfl

/-- What the comparator stores beside its registers decides neither its enable nor its ELAPSED and arm point. -/
theorem State.setCmp_cmpArmed_iff (s : State) (n : Fin 32) (p : CmpCore) : (s.setCmp n p).cmpArmed n = true ↔
    s.cmpOn n = true ∧ s.testing 4 n = false ∧ p.holdOff = 0 ∧ p.guard = 0 ∧ s.cmpArm n ≤ s.cmpElapsed n := by
  rw [State.cmpArmed_iff, State.setCmp_cmp, if_pos rfl]
  rfl

theorem State.setRaw_cmpArmed (s : State) (n : Fin 32) (out : CmpState) :
    (s.setCmp n { s.cmp n with raw := out }).cmpArmed n = s.cmpArmed n := by
  rw [Bool.eq_iff_iff, State.setCmp_cmpArmed_iff, State.cmpArmed_iff]

theorem State.latchSet_raw (s : State) (n : Fin 32) (out : CmpState) :
    (((s.setCmp n { s.cmp n with raw := out }).cmpJudge n).cmp n).raw = out := by simp

theorem State.latchSet_sets (s : State) (n : Fin 32) (out : CmpState) (ha : s.cmpArmed n = true)
    (hc : s.flag (rCmpStat n) 2 = false) (ho : out ≠ .inside) :
    s.latchedBy ((s.setCmp n { s.cmp n with raw := out }).cmpJudge n) n out := by
  have h := (s.setCmp n { s.cmp n with raw := out }).cmpJudge_sets n (by rw [State.setRaw_cmpArmed, ha]) hc (by simpa using ho)
  rw [State.setCmp_cmp, if_pos rfl] at h
  exact h

theorem State.latchSet_stays (s : State) (n : Fin 32) (out : CmpState)
    (h : s.cmpArmed n = false ∨ ¬ s.flag (rCmpStat n) 2 = false ∨ out = .inside) :
    (s.setCmp n { s.cmp n with raw := out }).cmpJudge n = s.setCmp n { s.cmp n with raw := out } := by
  refine State.cmpJudge_stays _ n ?_
  rw [State.setRaw_cmpArmed, State.setCmp_cmp, if_pos rfl]
  exact h

/-- The state in which ELAPSED has reached the arm point. -/
def State.atArm (s : State) (n : Fin 32) : State :=
  if s.cmpElapsed n < s.cmpArm n then s.setFld (rCmpStat n) 16 12 (s.cmpArm n) else s

theorem exec_armPointReached_on (s : State) (n : Fin 32) (h : s.cmpOn n = true) :
    exec (.armPointReached n) s = .next ((s.atArm n).cmpJudge n) := by
  show execArmPointReached n s = _
  rw [execArmPointReached, if_pos h, State.atArm]

theorem exec_holdOffEnd_on (s : State) (n : Fin 32) (h : s.cmpOn n = true) :
    exec (.holdOffEnd n) s = .next ((s.setCmp n { s.cmp n with holdOff := 0 }).cmpJudge n) := by
  show execHoldOffEnd n s = _
  rw [execHoldOffEnd, if_pos h]

theorem exec_cmpEvents_off (s : State) (n : Fin 32) (h : s.cmpOn n = false) :
    exec (.armPointReached n) s = .next s ∧ exec (.holdOffEnd n) s = .next s := by
  show execArmPointReached n s = _ ∧ execHoldOffEnd n s = _
  simp [execArmPointReached, execHoldOffEnd, h]

theorem State.cmpArm_lt (s : State) (n : Nat) : s.cmpArm n < 4096 := by
  have h : bits (s.cmpCfg n) 16 12 < 4096 := Nat.mod_lt _ (by decide)
  unfold State.cmpArm
  dsimp only
  split
  · omega
  · exact h

theorem State.atArm_rg (s : State) (n : Fin 32) (k : Nat) (hk : k ≠ rCmpStat n) : (s.atArm n).rg k = s.rg k := by
  unfold State.atArm
  split
  · rw [State.setFld_rg, if_neg hk]
  · rfl

theorem State.atArm_latch (s : State) (n : Fin 32) : (s.atArm n).flag (rCmpStat n) 2 = s.flag (rCmpStat n) 2 := by
  unfold State.atArm
  split
  · rw [State.flag, State.setFld_rg, if_pos rfl, bit_setBits_other _ _ _ _ _ (by omega) (by omega)]
    rfl
  · rfl

@[simp] theorem State.atArm_cmp (s : State) (n m : Fin 32) : (s.atArm n).cmp m = s.cmp m := by
  unfold State.atArm
  split <;> rfl

theorem State.atArm_elapsed (s : State) (n : Fin 32) : s.cmpArm n ≤ (s.atArm n).cmpElapsed n := by
  unfold State.atArm
  split
  · rw [State.cmpElapsed, State.fld, State.setFld_rg, if_pos rfl, bits_setBits_same _ _ _ _ (by omega)]
    exact Nat.le_of_eq (Nat.mod_eq_of_lt (s.cmpArm_lt n)).symm
  · next h => exact Nat.le_of_not_lt h

theorem State.atArm_cmpArm (s : State) (n : Fin 32) : (s.atArm n).cmpArm n = s.cmpArm n := by
  unfold State.atArm
  split <;> rfl

theorem State.atArm_testing (s : State) (n : Fin 32) (t i : Nat) : (s.atArm n).testing t i = s.testing t i := by
  unfold State.atArm
  split <;> rfl

theorem State.atArm_cmpOn (s : State) (n : Fin 32) : (s.atArm n).cmpOn n = s.cmpOn n := by
  have hact : (s.atArm n).active = s.active := by unfold State.atArm; split <;> rfl
  have hrdy := s.atArm_rg n (rPwrRdy + 4 * ((80 + n.val / 16) / 32)) ((rPwrRdy_free _ (by omega)).2 n).1
  have hmode := s.atArm_rg n baseSys (by unfold baseSys rCmpStat baseCmp; omega)
  simp [State.cmpOn, State.cmpCfg, State.cmpSet, State.act, hact, State.domReady, State.bitOf, State.flag, hrdy, State.mode,
    State.fld, hmode]

theorem State.atArm_cmpArmed (s : State) (n : Fin 32) (hon : s.cmpOn n = true) (ht : s.testing 4 n = false)
    (hh : (s.cmp n).holdOff = 0) (hg : (s.cmp n).guard = 0) : (s.atArm n).cmpArmed n = true := by
  rw [State.cmpArmed_iff, State.atArm_cmpOn, State.atArm_testing, State.atArm_cmp, State.atArm_cmpArm]
  exact ⟨hon, ht, hh, hg, s.atArm_elapsed n⟩

theorem State.armPoint_elapsed (s : State) (n : Fin 32) : s.cmpArm n ≤ ((s.atArm n).cmpJudge n).cmpElapsed n := by
  rw [State.cmpJudge_elapsed]
  exact s.atArm_elapsed n

theorem State.armPoint_sets (s : State) (n : Fin 32) (ha : (s.atArm n).cmpArmed n = true)
    (hc : s.flag (rCmpStat n) 2 = false) (ho : (s.cmp n).raw ≠ .inside) :
    s.latchedBy ((s.atArm n).cmpJudge n) n (s.cmp n).raw := by
  have h := (s.atArm n).cmpJudge_sets n ha (by rw [State.atArm_latch, hc]) (by rw [State.atArm_cmp]; exact ho)
  rw [State.atArm_cmp] at h
  obtain ⟨hlatch, hside, hcnt, hfeed⟩ := h
  rw [State.fld, State.fld, State.atArm_rg _ _ _ (rCmpStat_ne_rCmpCnt n n).symm] at hcnt
  exact ⟨hlatch, hside, hcnt, hfeed⟩

theorem State.holdOffEnd_ends (s : State) (n : Fin 32) :
    (((s.setCmp n { s.cmp n with holdOff := 0 }).cmpJudge n).cmp n).holdOff = 0 := by simp

theorem State.holdOffEnd_sets (s : State) (n : Fin 32) (hon : s.cmpOn n = true) (ht : s.testing 4 n = false)
    (hg : (s.cmp n).guard = 0) (hc : s.flag (rCmpStat n) 2 = false) (ho : (s.cmp n).raw ≠ .inside)
    (he : s.cmpArm n ≤ s.cmpElapsed n) :
    s.latchedBy ((s.setCmp n { s.cmp n with holdOff := 0 }).cmpJudge n) n (s.cmp n).raw := by
  have ha := (s.setCmp_cmpArmed_iff n { s.cmp n with holdOff := 0 }).mpr ⟨hon, ht, rfl, hg, he⟩
  have h := State.cmpJudge_sets _ n ha hc (by simpa using ho)
  rw [State.setCmp_cmp, if_pos rfl] at h
  exact h

/-! ## One write of a register of the bus by a command (R9, R250) -/

theorem State.enters_solo {s : State} {m : Master} {w : Bool} {x : Ctx} {as : List Nat} (h : s.enters m w x as) (hx : x.id < 36) :
    s.role (coreId x.id) = .solo := by
  obtain ⟨-, -, -, hsolo, -⟩ := h
  exact hsolo hx

theorem State.enters_first {s : State} {m : Master} {w : Bool} {x : Ctx} {as : List Nat} (h : s.enters m w x as) : s.wrote = [] := by
  obtain ⟨-, -, -, -, hfirst, -⟩ := h
  exact hfirst

/-- A write that the bus performs and that leaves the pairs as they are is answered with 0. -/
theorem State.cmdWrite_done {s t : State} {m : Master} {x : Ctx} {as : List Nat} {a : Nat} {v : Word} (h : s.enters m true x as)
    (ha : a ∈ as) (h4 : a % 4 = 0) (hr : isRemote a = false) (hb : s.busWrite x a v 15 = (none, t))
    (hrole : ∀ c, t.role c = s.role c) : s.cmdWrite m a v = t.answer 0 := by
  by_cases hx : x.id < 36
  · have hsolo : t.role (coreId x.id) = .solo := (hrole _).trans (State.enters_solo h hx)
    rw [s.cmdWrite_core m x as a v h hx ha h4 hr, State.storeRes, ← State.enters_core h hx, hb]
    show (t.recStore _ _ 4 v).answer 0 = _
    rw [State.recStore_solo _ _ _ _ _ hsolo]
  · rw [s.cmdWrite_enters m x as a v h (by omega) ha hr, hb]

/-- A write that the bus refuses with cause e changes nothing but the answer. -/
theorem State.cmdWrite_refused {s : State} {m : Master} {x : Ctx} {as : List Nat} {a : Nat} {v : Word} {e : BusCause}
    (h : s.enters m true x as) (ha : a ∈ as) (h4 : a % 4 = 0) (hr : isRemote a = false)
    (hb : s.busWrite x a v 15 = (some e, s)) : s.cmdWrite m a v = s.refuse e := by
  by_cases hx : x.id < 36
  · rw [s.cmdWrite_core m x as a v h hx ha h4 hr, State.storeRes, ← State.enters_core h hx, hb]
    show (if outside a then s.agreePush _ 0 (some e) else s).refuse e = _
    rw [State.agreePush_solo _ _ _ _ (State.enters_solo h hx), ite_self]
  · rw [s.cmdWrite_enters m x as a v h (by omega) ha hr, hb]

section
variable {s t : State} {m : Master} {x : Ctx} {as : List Nat} {b o : Nat} {v : Word}
  (he : s.enters m true x as) (ha : 0x40000000 + 0x10000 * b + o ∈ as) (hb : b < 18) (ho : o < 0x10000) (h4 : o % 4 = 0)
include he ha hb ho h4

/-- A register whose domain is off does not answer (R34). -/
theorem State.cmdWrite_periph_timeout (hoff : s.periphOff b o = true) :
    s.cmdWrite m (0x40000000 + 0x10000 * b + o) v = s.refuse .timeout :=
  State.cmdWrite_refused he ha (by omega) (not_remote_periph b o)
    (by rw [s.busWrite_periph x b o v 15 hb ho h4, if_pos hoff])

theorem State.cmdWrite_periph_refused {e : BusCause} (hon : s.periphOff b o = false) (hw : s.periphWrite x b o v = (some e, s)) :
    s.cmdWrite m (0x40000000 + 0x10000 * b + o) v = s.refuse e := by
  refine State.cmdWrite_refused he ha (by omega) (not_remote_periph b o) ?_
  rw [s.busWrite_periph x b o v 15 hb ho h4, hon, if_neg Bool.false_ne_true, s.periphPut_first x b o v (State.enters_first he), hw]

theorem State.cmdWrite_periph_done (hon : s.periphOff b o = false) (hw : s.periphWrite x b o v = (none, t))
    (hrole : ∀ c, t.role c = s.role c) : s.cmdWrite m (0x40000000 + 0x10000 * b + o) v =
      (t.noteWrite x.id (0x40000000 + 0x10000 * b + o) v (s.putMask x b o)).answer 0 := by
  refine State.cmdWrite_done he ha (by omega) (not_remote_periph b o) ?_ hrole
  rw [s.busWrite_periph x b o v 15 hb ho h4, hon, if_neg Bool.false_ne_true, s.periphPut_first x b o v (State.enters_first he), hw]

end

/-! ## Latches cleared by a write (R108, R122) -/

theorem exec_latchClear (s : State) (m : Master) (n : Fin 32) : exec (.latchClear m n) s = .next (s.cmdWrite m (rCmpStat n) 4) := rfl

theorem exec_latchSumClear (s : State) (m : Master) (v : Word) : exec (.latchSumClear m v) s = .next (s.cmdWrite m rLatchSum v) := rfl

/-- The offset of CMPn_STAT in the comparator block. -/
def cmpStatOff (n : Fin 32) : Nat := 0x20 * n + 0x10

theorem rCmpStat_eq (n : Fin 32) : rCmpStat n = 0x40000000 + 0x10000 * 5 + cmpStatOff n := by
  unfold rCmpStat baseCmp cmpStatOff
  omega

theorem cmpStatOff_fits (n : Fin 32) : cmpStatOff n < 0x400 ∧ cmpStatOff n % 0x20 = 0x10 ∧ cmpStatOff n / 0x20 = n ∧
    cmpStatOff n / 0x200 = n / 16 := by
  unfold cmpStatOff
  omega

/-- CMP_STAT of comparator n answers when the bank of n is powered (Table 95). -/
theorem State.periphOff_cmpStat (s : State) (n : Fin 32) : s.periphOff 5 (cmpStatOff n) = !s.domReady (80 + n / 16) := by
  obtain ⟨hlt, hmod, -, hbank⟩ := cmpStatOff_fits n
  have hdom : periphDom 5 (cmpStatOff n) = some (80 + n.val / 16) := by
    show (if cmpStatOff n < 0x400 ∧ 0x10 ≤ cmpStatOff n % 0x20 then some (80 + cmpStatOff n / 0x200) else none) = _
    rw [if_pos (by omega), hbank]
  rw [State.periphOff, hdom]

theorem State.periphWrite_cmpStat (s : State) (x : Ctx) (n : Fin 32) (v : Word) :
    s.periphWrite x 5 (cmpStatOff n) v = s.byUnit x (84 + n) (s.writeRg false (rCmpStat n) v) := by
  obtain ⟨hlt, hmod, hidx, -⟩ := cmpStatOff_fits n
  have hreg : isHole 5 (cmpStatOff n) = false := by simp [isHole, hlt, hmod]
  have hw : s.cmpWrite n 0x10 v = s.writeRg false (rCmpStat n) v := rfl
  unfold State.periphWrite
  rw [hreg, if_neg Bool.false_ne_true]
  show s.cmpBlockWrite x (cmpStatOff n) v = _
  rw [State.cmpBlockWrite, dif_pos hlt]
  simp only [hmod, hidx, Fin.eta, hw]
  rfl

/-- The comparators whose latches x may clear (R122). -/
def State.latchesOf (s : State) (x : Ctx) : List (Fin 32) := (List.finRange 32).filter (fun n => s.unitMay x (84 + n.val))

/-- Latches cleared one after the other. -/
def State.clearLatches (s : State) (l : List (Fin 32)) : State := l.foldl (fun t n => t.latchClear n) s

/-- The latches that a write of v to LATCH_SUM by x clears (R123). -/
def State.latchSumHits (s : State) (x : Ctx) (v : Word) : List (Fin 32) :=
  (s.latchesOf x).filter (fun n => bit v n.val && s.domReady (80 + n.val / 16))

theorem State.periphWrite_latchSum (s : State) (x : Ctx) (v : Word) :
    s.periphWrite x 5 0x400 v = if (s.latchesOf x).isEmpty then (some .denied, s) else (none, s.clearLatches (s.latchSumHits x v)) := rfl

/-- A write of 1 to LATCH of CMP_STAT clears it where hardware did not set it in the same cycle. -/
theorem descOf_cmpStat_clear (n : Fin 32) (w : Word) : (descOf (rCmpStat n)).write false 0 4 w = w &&& ~~~ 4 := by
  have hbus : descOf (rCmpStat n) = descCmp (cmpStatOff n) := by
    have hlt := (cmpStatOff_fits n).1
    have hblk : rCmpStat n / 0x10000 = 0x4005 := by rw [rCmpStat_eq]; omega
    have hoff : rCmpStat n % 0x10000 = cmpStatOff n := by rw [rCmpStat_eq]; omega
    rw [descOf, if_pos (by rw [rCmpStat_eq]; omega), descBus, hblk, hoff]
    rfl
  obtain ⟨hlt, hmod, -⟩ := cmpStatOff_fits n
  rw [hbus, descCmp, if_pos ⟨hlt, hmod⟩]
  show w &&& ~~~ (4 &&& mask 2 1 &&& ~~~ 0) = _
  rw [show (4 &&& mask 2 1 &&& ~~~ 0 : Word) = 4 by decide]

theorem State.latchClear_rg (s : State) (n : Fin 32) (k : Nat) (hk : k ≠ rCmpStat n) : (s.latchClear n).rg k = s.rg k := by
  rw [State.latchClear, State.writeRg_rg, if_neg hk]

theorem State.latchClear_latch (s : State) (n : Fin 32) (hw : sget 0 s.hwSet (rCmpStat n) = 0) :
    (s.latchClear n).flag (rCmpStat n) 2 = false := by
  rw [State.latchClear, State.flag, State.writeRg_rg, if_pos rfl, hw, descOf_cmpStat_clear]
  simp [bit]

theorem rCmpStat_inj {n i : Fin 32} (h : rCmpStat n = rCmpStat i) : n = i := by
  unfold rCmpStat baseCmp at h
  omega

theorem State.latchClear_regs (s : State) (n : Fin 32) : ∃ r, s.latchClear n = { s with regs := r } := ⟨_, rfl⟩

/-- Of latches cleared one after the other, n clears where it is among them. -/
theorem State.clearLatches_latch (l : List (Fin 32)) (s : State) (n : Fin 32) (hw : sget 0 s.hwSet (rCmpStat n) = 0) :
    (s.clearLatches l).flag (rCmpStat n) 2 = (s.flag (rCmpStat n) 2 && decide (n ∉ l)) := by
  induction l generalizing s with
  | nil => simp [State.clearLatches]
  | cons i l ih =>
    refine (ih (s.latchClear i) hw).trans ?_
    by_cases hn : n = i
    · subst hn
      simp [s.latchClear_latch n hw]
    · have hk : rCmpStat n ≠ rCmpStat i := fun h => hn (rCmpStat_inj h)
      simp [State.flag, s.latchClear_rg i _ hk, hn]

theorem State.clearLatches_rg (l : List (Fin 32)) (s : State) (k : Nat) (hk : ∀ n : Fin 32, k ≠ rCmpStat n) :
    (s.clearLatches l).rg k = s.rg k := by
  induction l generalizing s with
  | nil => rfl
  | cons i l ih => exact (ih (s.latchClear i)).trans (s.latchClear_rg i k (hk i))

theorem State.clearLatches_regs (l : List (Fin 32)) (s : State) : ∃ r, s.clearLatches l = { s with regs := r } := by
  induction l generalizing s with
  | nil => exact ⟨s.regs, rfl⟩
  | cons i l ih => exact ih (s.latchClear i)

/-- Who plays which role in a pair stands in no comparator register. -/
theorem State.role_congr {s t : State} (hp : t.pairs = s.pairs) (hr : ∀ k : Fin 16, t.rg (rRmPair k 0x0C) = s.rg (rRmPair k 0x0C))
    (c : Nat) : t.role c = s.role c := by
  have hmain (k : Fin 16) : t.mainOf k = s.mainOf k := by simp [State.mainOf, State.fld, hr k]
  have hchk (k : Fin 16) : t.checkerOf k = s.checkerOf k := by simp [State.checkerOf, State.fld, hr k]
  have hmode (k : Fin 16) : t.paired k = s.paired k := by rw [State.paired, State.pair, hp]; rfl
  unfold State.role
  simp only [hmain, hchk, hmode]

theorem rRmPair_ne_rCmpStat (k : Fin 16) (n : Fin 32) : rRmPair k 0x0C ≠ rCmpStat n := by
  unfold rRmPair baseRm rCmpStat baseCmp
  omega

theorem State.latchClear_role (s : State) (n : Fin 32) (c : Nat) : (s.latchClear n).role c = s.role c := by
  obtain ⟨r, hr⟩ := s.latchClear_regs n
  exact State.role_congr (by rw [hr]) (fun k => s.latchClear_rg n _ (rRmPair_ne_rCmpStat k n)) c

theorem State.clearLatches_role (s : State) (l : List (Fin 32)) (c : Nat) : (s.clearLatches l).role c = s.role c := by
  obtain ⟨r, hr⟩ := s.clearLatches_regs l
  exact State.role_congr (by rw [hr]) (fun k => s.clearLatches_rg l _ (rRmPair_ne_rCmpStat k)) c

theorem State.mem_latchesOf (s : State) (x : Ctx) (n : Fin 32) : n ∈ s.latchesOf x ↔ s.unitMay x (84 + n) = true := by
  simp [State.latchesOf]

theorem State.latchSumHits_latch (s : State) (x : Ctx) (v : Word) (n : Fin 32) (hd : s.domReady (80 + n / 16) = true)
    (hm : s.unitMay x (84 + n) = true) (hw : sget 0 s.hwSet (rCmpStat n) = 0) :
    (s.clearLatches (s.latchSumHits x v)).flag (rCmpStat n) 2 = (s.flag (rCmpStat n) 2 && !bit v n) := by
  rw [s.clearLatches_latch _ n hw]
  simp [State.latchSumHits, State.mem_latchesOf, hm, hd]

/-- A write that changed registers only, once noted and answered. -/
theorem State.regsOnly_answer {s t : State} (h : ∃ r, t = { s with regs := r }) (i a : Nat) (v w : Word) :
    s.regsOnly ((t.noteWrite i a v w).answer 0) := by
  obtain ⟨r, rfl⟩ := h
  rfl

theorem State.noteWrite_answer_rg (t : State) (i a k : Nat) (v w : Word) :
    ((t.noteWrite i a v w).answer 0).rg k = t.rg k := by
  rw [State.answer_rg]
  rfl

theorem State.noteWrite_answer_flag (t : State) (i a k j : Nat) (v w : Word) :
    ((t.noteWrite i a v w).answer 0).flag k j = t.flag k j := by
  rw [State.flag, State.noteWrite_answer_rg, State.flag]

theorem State.answer_resp (s : State) (w : Word) : (s.answer w).resp = ⟨none, w⟩ := rfl

section
variable {s : State} {m : Master} {x : Ctx} {n : Fin 32} {v : Word} (he : s.enters m true x [rCmpStat n, rLatchSum])
include he

theorem State.latchClear_timeout (hd : s.domReady (80 + n / 16) = false) :
    exec (.latchClear m n) s = .next (s.refuse .timeout) := by
  have hlt := (cmpStatOff_fits n).1
  have ha : 0x40000000 + 0x10000 * 5 + cmpStatOff n ∈ [rCmpStat n, rLatchSum] := by simp [rCmpStat_eq]
  rw [exec_latchClear, rCmpStat_eq, State.cmdWrite_periph_timeout he ha (by omega) (by omega) (by unfold cmpStatOff; omega)
    (by rw [State.periphOff_cmpStat, hd]; rfl)]

theorem State.latchClear_denied (hd : s.domReady (80 + n / 16) = true) (hm : s.unitMay x (84 + n) = false) :
    exec (.latchClear m n) s = .next (s.refuse .denied) := by
  have hlt := (cmpStatOff_fits n).1
  have ha : 0x40000000 + 0x10000 * 5 + cmpStatOff n ∈ [rCmpStat n, rLatchSum] := by simp [rCmpStat_eq]
  rw [exec_latchClear, rCmpStat_eq, State.cmdWrite_periph_refused (e := .denied) he ha (by omega) (by omega) (by unfold cmpStatOff; omega)
    (by rw [State.periphOff_cmpStat, hd]; rfl) (by rw [State.periphWrite_cmpStat, State.byUnit, hm]; rfl)]

theorem State.latchClear_done (hd : s.domReady (80 + n / 16) = true) (hm : s.unitMay x (84 + n) = true) :
    exec (.latchClear m n) s = .next (((s.latchClear n).noteWrite x.id (rCmpStat n) 4 (s.putMask x 5 (cmpStatOff n))).answer 0) := by
  have hlt := (cmpStatOff_fits n).1
  have ha : 0x40000000 + 0x10000 * 5 + cmpStatOff n ∈ [rCmpStat n, rLatchSum] := by simp [rCmpStat_eq]
  rw [exec_latchClear, rCmpStat_eq, State.cmdWrite_periph_done (t := s.latchClear n) he ha (by omega) (by omega)
    (by unfold cmpStatOff; omega) (by rw [State.periphOff_cmpStat, hd]; rfl)
    (by rw [State.periphWrite_cmpStat, State.byUnit, hm]; rfl) (s.latchClear_role n)]

theorem State.latchSumClear_denied (hm : ∀ i : Fin 32, s.unitMay x (84 + i) = false) :
    exec (.latchSumClear m v) s = .next (s.refuse .denied) := by
  have ha : 0x40000000 + 0x10000 * 5 + 0x400 ∈ [rCmpStat n, rLatchSum] := List.mem_cons_of_mem _ List.mem_cons_self
  have hnone : s.latchesOf x = [] := List.filter_eq_nil_iff.mpr (fun i _ => by simp [hm i])
  have h := State.cmdWrite_periph_refused (v := v) (e := .denied) he ha (by omega) (by omega) (by omega) rfl
    (by rw [State.periphWrite_latchSum, hnone]; rfl)
  rw [exec_latchSumClear]
  exact congrArg _ h

theorem State.latchSumClear_done (hm : s.unitMay x (84 + n) = true) :
    exec (.latchSumClear m v) s =
      .next (((s.clearLatches (s.latchSumHits x v)).noteWrite x.id rLatchSum v (s.putMask x 5 0x400)).answer 0) := by
  have ha : 0x40000000 + 0x10000 * 5 + 0x400 ∈ [rCmpStat n, rLatchSum] := List.mem_cons_of_mem _ List.mem_cons_self
  have hsome : (s.latchesOf x).isEmpty = false :=
    List.isEmpty_eq_false_iff.mpr (List.ne_nil_of_mem ((s.mem_latchesOf x n).mpr hm))
  have h := State.cmdWrite_periph_done (v := v) (t := s.clearLatches (s.latchSumHits x v)) he ha (by omega) (by omega) (by omega) rfl
    (by rw [State.periphWrite_latchSum, hsome]; rfl) (s.clearLatches_role _)
  rw [exec_latchSumClear]
  exact congrArg _ h

theorem State.latchClear_does (hd : s.domReady (80 + n / 16) = true) (hm : s.unitMay x (84 + n) = true)
    (hw : sget 0 s.hwSet (rCmpStat n) = 0) : Does (.latchClear m n) s (fun t => t.flag (rCmpStat n) 2 = false ∧
      s.regsBut t [rCmpStat n] ∧ s.regsOnly t ∧ t.resp = ⟨none, 0⟩) := by
  refine ⟨_, State.latchClear_done he hd hm, ?_, fun k hk => ?_, State.regsOnly_answer (s.latchClear_regs n) _ _ _ _,
    State.answer_resp _ 0⟩
  · rw [State.noteWrite_answer_flag, s.latchClear_latch n hw]
  · rw [State.noteWrite_answer_rg, s.latchClear_rg n k (fun h => hk (List.mem_singleton.mpr h))]

theorem State.latchSumClear_does (hd : s.domReady (80 + n / 16) = true) (hm : s.unitMay x (84 + n) = true)
    (hw : sget 0 s.hwSet (rCmpStat n) = 0) : Does (.latchSumClear m v) s (fun t =>
      t.flag (rCmpStat n) 2 = (s.flag (rCmpStat n) 2 && !bit v n) ∧ s.regsOnly t ∧ t.resp = ⟨none, 0⟩) := by
  refine ⟨_, State.latchSumClear_done he hm, ?_, State.regsOnly_answer (s.clearLatches_regs _) _ _ _ _, State.answer_resp _ 0⟩
  rw [State.noteWrite_answer_flag, s.latchSumHits_latch x v n hd hm hw]

end

/-- Settles O37: the latch is judged by `cmpJudge` in all three events; a clear of it is one write of a register of its block. -/
theorem latchesSetAndClear : Obligations.LatchesSetAndClear := by
  unfold Obligations.LatchesSetAndClear
  intro s m x n out v
  dsimp only
  refine ⟨fun ha hc ho => ?_, fun h => ?_, fun hon ht hg => ⟨fun hh => ⟨?_, fun hc ho => ?_⟩, ?_⟩, s.cmpOn_dormant n,
    exec_cmpEvents_off s n, fun he hd hm hw => ⟨State.latchClear_does he hd hm hw, State.latchSumClear_does he hd hm hw⟩,
    fun he hd hm => State.latchClear_denied he hd hm, fun he hm => State.latchSumClear_denied he hm, fun he hd => State.latchClear_timeout he hd⟩
  · exact ⟨_, exec_latchSet s n out, s.latchSet_raw n out, s.latchSet_sets n out ha hc ho⟩
  · refine ⟨_, exec_latchSet s n out, s.latchSet_raw n out, ?_⟩
    rw [s.latchSet_stays n out h]
    exact ⟨fun k _ => rfl, rfl⟩
  · exact ⟨_, exec_armPointReached_on s n hon, s.armPoint_elapsed n⟩
  · exact ⟨_, exec_armPointReached_on s n hon, s.armPoint_sets n (s.atArm_cmpArmed n hon ht hh hg) hc ho⟩
  · exact ⟨_, exec_holdOffEnd_on s n hon, s.holdOffEnd_ends n, s.holdOffEnd_sets n hon ht hg⟩

end Sys2Proof.Machine

/-! # Levels and worlds (R206, R252, R254): SETLVL and GATE -/

namespace Sys2Proof.Machine

/-! ## An instruction that writes ST and holds interrupts off (R206) -/

/-- Core K has the registers that instructions of core c see, its accumulators and its return stack, and takes no interrupt before its
next instruction (R206). -/
def State.heldRegs (s : State) (c : CoreId) (K : CoreState) : Prop :=
  K.gpr = (s.regsOf c).gpr ∧ K.sp = (s.regsOf c).sp ∧ K.acc = (s.core c).acc ∧ K.rstack = (s.core c).rstack ∧ K.noInt = true

theorem State.regsOf_rstack (s : State) (c : CoreId) : (s.regsOf c).rstack = (s.core c).rstack := by
  unfold State.regsOf; rw [CoreState.commitShadow_eq]

/-- Wherever its flow takes the core, an instruction that has written st and retires with interrupts held off leaves the rest. -/
theorem State.heldRegs_retire (s : State) (c : CoreId) (st pc : Word) (len cyc : Nat) (f : Flow) :
    let K := (({ s.regsOf c with st := st } : CoreState).flowTo pc len f).retire cyc true
    s.heldRegs c K ∧ K.st = st := by
  obtain ⟨_, _, _, _, _, hmoved⟩ := ({ s.regsOf c with st := st } : CoreState).flowTo_moved pc len f
  rw [hmoved]
  exact ⟨⟨rfl, rfl, s.regsOf_acc c, s.regsOf_rstack c, rfl⟩, rfl⟩

/-- An operation that writes ST alone and holds interrupts off: nothing outside the core changes, and a call takes it to its target. -/
theorem State.runInstr_writesSt (s : State) (c : CoreId) (e : Enc) (body : CoreState → State → Pass) (h : s.runs c e.len)
    (hl : e.legal = true) (hc : ccHolds (s.core c) e.cc = true) (st : Word) (f : Flow)
    (hb : body (s.core c) (s.setCore c (s.regsOf c)) =
      .done (s.setCore c { s.regsOf c with st := st }) { flow := f, hold := true }) :
    ∃ K, s.runInstr c e body = s.setCore c K ∧ s.heldRegs c K ∧ K.st = st ∧ ∀ a, f = .call a → K.pc = a := by
  obtain ⟨cyc, hrun⟩ := s.runInstr_core c e body h hl hc _ _ hb rfl
    ((s.regsOf_run c).trans h.run) ((s.regsOf_stepping c).trans h.stepping) ((s.regsOf_haltReq c).trans h.halt)
  obtain ⟨hheld, hst⟩ := s.heldRegs_retire c st (s.core c).pc e.len cyc f
  refine ⟨_, hrun, hheld, hst, ?_⟩
  rintro a rfl
  rfl

/-! ## SETLVL (R206, R254) -/

/-- The operation of SETLVL on the registers k0 and the state t (`execSetlvl`). -/
def setlvlOp (c : CoreId) (l : Bool) (im : BitVec 4) (k0 : CoreState) (t : State) : Pass :=
  if !k0.lvl then .fault t (faultIllegal k0.pc)
  else .done (t.setCore c { t.core c with st := setBits (setBit (t.core c).st 12 l) 8 4 im.toNat }) { hold := true }

theorem exec_setlvl (s : State) (c : CoreId) (l : Bool) (im : BitVec 4) :
    exec (.setlvl c l im) s = .next (s.runInstr c { len := 2 } (setlvlOp c l im)) := rfl

theorem setlvlOp_user (c : CoreId) (l : Bool) (im : BitVec 4) (k0 : CoreState) (t : State) (hu : k0.lvl = false) :
    setlvlOp c l im k0 t = .fault t (faultIllegal k0.pc) := by
  simp [setlvlOp, hu]

theorem setlvlOp_supervisor (s : State) (c : CoreId) (l : Bool) (im : BitVec 4) (hsup : (s.core c).lvl = true) :
    setlvlOp c l im (s.core c) (s.setCore c (s.regsOf c)) =
      .done (s.setCore c { s.regsOf c with st := setBits (setBit (s.core c).st 12 l) 8 4 im.toNat }) { hold := true } := by
  simp [setlvlOp, hsup, s.regsOf_st c]

theorem State.setlvl_supervisor {s : State} {c : CoreId} (h : s.runs c 2) (l : Bool) (im : BitVec 4)
    (hsup : (s.core c).lvl = true) :
    OnlyCore (.setlvl c l im) s c (fun K =>
      s.heldRegs c K ∧ K.st = setBits (setBit (s.core c).st 12 l) 8 4 im.toNat) := by
  obtain ⟨K, hrun, hheld, hst, -⟩ := s.runInstr_writesSt c { len := 2 } (setlvlOp c l im) h rfl rfl _ .seq
    (setlvlOp_supervisor s c l im hsup)
  exact ⟨K, by rw [exec_setlvl, hrun], hheld, hst⟩

theorem State.setlvl_user {s : State} {c : CoreId} (h : s.runs c 2) (l : Bool) (im : BitVec 4) (hu : (s.core c).lvl = false) :
    ∃ cyc, exec (.setlvl c l im) s = .next ((s.setCore c (s.regsOf c)).instrFault c cyc (faultIllegal (s.core c).pc)) := by
  obtain ⟨cyc, hrun⟩ := s.runInstr_fault c { len := 2 } (setlvlOp c l im) h rfl rfl _ _ 0 (setlvlOp_user c l im _ _ hu)
  exact ⟨cyc, by rw [exec_setlvl, hrun]⟩

/-! ## GATE (R252) -/

/-- The word of gate n of the world that core c is not in. -/
def State.gateWord (s : State) (c : CoreId) (n : Fin 16) : Word := s.rg (rWc c (!(s.core c).world) (0x040 + 4 * n))

/-- The operation of GATE on the registers k0 and the state t (`execGate`). -/
def gateOp (c : CoreId) (n : Fin 16) (k0 : CoreState) (t : State) : Pass :=
  let g := t.rg (rWc c (!k0.world) (0x040 + 4 * n))
  if c = 36 ∨ !bit g 31 then .fault t (faultBus .denied (BitVec.ofNat 32 n))
  else .done (t.setCore c { t.core c with st := setBit (setBit (t.core c).st 13 (!k0.world)) 12 (bit g 30) })
    { flow := .call (BitVec.ofNat 32 (bits g 0 18)), hold := true }

theorem exec_gate (s : State) (c : CoreId) (n : Fin 16) :
    exec (.gate c n) s = .next (s.runInstr c { len := 2 } (gateOp c n)) := rfl

theorem gateOp_denied (s : State) (c : CoreId) (n : Fin 16) (K : CoreState) (hd : c = 36 ∨ bit (s.gateWord c n) 31 = false) :
    gateOp c n (s.core c) (s.setCore c K) = .fault (s.setCore c K) (faultBus .denied (BitVec.ofNat 32 n)) := by
  have hguard : c = 36 ∨ (!bit (s.gateWord c n) 31) = true := hd.imp_right (by simp)
  exact if_pos hguard

theorem gateOp_enabled (s : State) (c : CoreId) (n : Fin 16) (hsc : c ≠ 36) (hen : bit (s.gateWord c n) 31 = true) :
    gateOp c n (s.core c) (s.setCore c (s.regsOf c)) =
      .done (s.setCore c { s.regsOf c with
          st := setBit (setBit (s.core c).st 13 (!(s.core c).world)) 12 (bit (s.gateWord c n) 30) })
        { flow := .call (BitVec.ofNat 32 (bits (s.gateWord c n) 0 18)), hold := true } := by
  have hguard : ¬ (c = 36 ∨ (!bit (s.gateWord c n) 31) = true) := by simp [hsc, hen]
  refine (if_neg hguard).trans ?_
  simp [s.regsOf_st c, State.gateWord]

theorem State.gate_enabled {s : State} {c : CoreId} (h : s.runs c 2) (n : Fin 16) (hsc : c ≠ 36)
    (hen : bit (s.gateWord c n) 31 = true) :
    OnlyCore (.gate c n) s c (fun K => s.heldRegs c K ∧
      K.st = setBit (setBit (s.core c).st 13 (!(s.core c).world)) 12 (bit (s.gateWord c n) 30) ∧
      K.pc = BitVec.ofNat 32 (bits (s.gateWord c n) 0 18)) := by
  obtain ⟨K, hrun, hheld, hst, hpc⟩ := s.runInstr_writesSt c { len := 2 } (gateOp c n) h rfl rfl _ _ (gateOp_enabled s c n hsc hen)
  exact ⟨K, by rw [exec_gate, hrun], hheld, hst, hpc _ rfl⟩

theorem State.gate_denied {s : State} {c : CoreId} (h : s.runs c 2) (n : Fin 16) (hd : c = 36 ∨ bit (s.gateWord c n) 31 = false) :
    ∃ cyc, exec (.gate c n) s =
      .next ((s.setCore c (s.regsOf c)).instrFault c cyc (faultBus .denied (BitVec.ofNat 32 n))) := by
  obtain ⟨cyc, hrun⟩ := s.runInstr_fault c { len := 2 } (gateOp c n) h rfl rfl _ _ 0 (gateOp_denied s c n _ hd)
  exact ⟨cyc, by rw [exec_gate, hrun]⟩

/-- Settles O20: each instruction either faults or writes ST alone, from a guard on the level or on the gate's enable bit. -/
theorem levelsAndWorldsChangeByTheirInstructions : Obligations.LevelsAndWorldsChangeByTheirInstructions := by
  unfold Obligations.LevelsAndWorldsChangeByTheirInstructions
  intro s c l im n h
  exact ⟨State.setlvl_supervisor h l im, State.setlvl_user h l im, State.gate_enabled h n, State.gate_denied h n⟩

end Sys2Proof.Machine

/-! # Pin-engine groups (chapter 14): a write of the program store -/

namespace Sys2Proof.Machine

/-! ## Where a store lies in the pin-engine block (R390) -/

/-- The offset of store word i of group g in the pin-engine block. -/
def storeOff (g : Fin 8) (i : Fin 48) : Nat := 0x400 * g + 4 * i

theorem rPg_store (g : Fin 8) (i : Fin 48) : rPg g (4 * i) = 0x40000000 + 0x10000 * 7 + storeOff g i := by
  unfold rPg basePe storeOff
  omega

theorem storeOff_fits (g : Fin 8) (i : Fin 48) : storeOff g i < 0x2000 ∧ storeOff g i % 4 = 0 ∧ storeOff g i / 0x400 = g ∧
    storeOff g i % 0x400 = 4 * i := by
  unfold storeOff
  omega

theorem rPg_store_mem (g : Fin 8) (i : Fin 48) : rPg g (4 * i) ∈ pgRegs g :=
  List.mem_append_left _ (List.mem_map.mpr ⟨i, List.mem_range.mpr (by omega), rfl⟩)

/-- A register of the group answers when the group's domain is on (Table 95). -/
theorem State.periphOff_store (s : State) (g : Fin 8) (i : Fin 48) :
    s.periphOff 7 (storeOff g i) = !s.domReady (68 + g) := by
  obtain ⟨hlt, -, hgrp, -⟩ := storeOff_fits g i
  have hdom : periphDom 7 (storeOff g i) = some (68 + g.val) := by
    show (if storeOff g i < 0x2000 then some (68 + storeOff g i / 0x400) else none) = _
    rw [if_pos hlt, hgrp]
  rw [State.periphOff, hdom]

/-! ## What a write of the store does (R389) -/

theorem exec_programStoreWrite_store (s : State) (m : Master) (g : Fin 8) (i : Fin 48) (v : Word) :
    exec (.programStoreWrite m g (.store i) v) s = .next (s.cmdWrite m (rPg g (4 * i)) v) := rfl

theorem State.pgWrite_store (s : State) (id : Nat) (g : Fin 8) (i : Fin 48) (v : Word) (hstop : s.pgRuns g = false) :
    s.pgWrite id g (4 * i) v = .ok (s.writeRg false (rPg g (4 * i)) v) := by
  have hpc : ¬ (0x200 ≤ 4 * i.val ∧ 4 * i.val % 0x40 = 4) := by omega
  have hcfg : ¬ (0x200 ≤ 4 * i.val ∧ 4 * i.val % 0x40 = 0) := by omega
  have hguard (f : State → State) : s.pgGuarded g f = .ok (f s) := by simp [State.pgGuarded, hstop]
  rw [State.pgWrite, if_pos (by omega), State.peConfig, hguard, if_neg hpc, if_neg hcfg]

theorem State.periphWrite_store (s : State) (x : Ctx) (g : Fin 8) (i : Fin 48) (v : Word) (hm : s.unitMay x (48 + g) = true)
    (hstop : s.pgRuns g = false) :
    s.periphWrite x 7 (storeOff g i) v = (none, s.writeRg false (rPg g (4 * i)) v) := by
  obtain ⟨hlt, -, hgrp, hoff⟩ := storeOff_fits g i
  have hreg : isHole 7 (storeOff g i) = false := by
    have hlow : storeOff g i % 0x400 < 0xC0 := by omega
    simp [isHole, hlt, hlow]
  unfold State.periphWrite
  rw [hreg, if_neg Bool.false_ne_true]
  show s.peWrite x (storeOff g i) v = _
  rw [State.peWrite, dif_pos hlt]
  simp only [hgrp, hoff, Fin.eta, hm, if_true, s.pgWrite_store x.id g i v hstop]

theorem State.storeWrite_role (s : State) (g : Fin 8) (i : Fin 48) (v : Word) (c : Nat) :
    (s.writeRg false (rPg g (4 * i)) v).role c = s.role c := by
  refine State.role_congr (s := s) (t := s.writeRg false (rPg g (4 * i)) v) rfl (fun k => ?_) c
  rw [State.writeRg_rg, if_neg (by unfold rRmPair baseRm rPg basePe; omega)]

/-- An accepted write of the store, of a group that is stopped, writes its register by the register's own fields. -/
theorem State.storeWrite_done {s : State} {m : Master} {x : Ctx} {g : Fin 8} (he : s.enters m true x (pgRegs g))
    (hd : s.domReady (68 + g) = true) (hm : s.unitMay x (48 + g) = true) (hstop : s.pgRuns g = false) (i : Fin 48) (v : Word) :
    exec (.programStoreWrite m g (.store i) v) s = .next (((s.writeRg false (rPg g (4 * i)) v).noteWrite x.id (rPg g (4 * i)) v
      (s.putMask x 7 (storeOff g i))).answer 0) := by
  obtain ⟨hlt, h4, -, -⟩ := storeOff_fits g i
  have ha := rPg_store_mem g i
  rw [rPg_store] at ha
  have hw := State.cmdWrite_periph_done he ha (by omega) (by omega) h4 (by rw [s.periphOff_store, hd]; rfl)
    (s.periphWrite_store x g i v hm hstop) (s.storeWrite_role g i v)
  rw [← rPg_store] at hw
  rw [exec_programStoreWrite_store, hw]

/-! ## What the store then holds (R8, R390) -/

/-- INSTR is the one writable field of a store word: its bits 31:16 are reserved, and a write leaves them as they are. -/
theorem descOf_store (g : Fin 8) (i : Fin 48) : descOf (rPg g (4 * i)) = ⟨0, [⟨0, 16, .rw, .any⟩]⟩ := by
  obtain ⟨hlt, -, -, hoff⟩ := storeOff_fits g i
  have hblk : rPg g (4 * i) / 0x10000 = 0x4007 := by rw [rPg_store]; omega
  have hlow : rPg g (4 * i) % 0x10000 = storeOff g i := by rw [rPg_store]; omega
  rw [descOf, if_pos (by rw [rPg_store]; omega), descBus, hblk, hlow]
  show descPe (storeOff g i) = _
  rw [descPe, if_pos hlt, hoff, if_pos (by omega)]

theorem State.storeWrite_rg (s : State) (g : Fin 8) (i : Fin 48) (v : Word) :
    (s.writeRg false (rPg g (4 * i)) v).rg (rPg g (4 * i)) = setBits (s.rg (rPg g (4 * i))) 0 16 (bits v 0 16) := by
  rw [State.writeRg_rg, if_pos rfl, descOf_store]
  rfl

theorem bit_and_low16 (v : Word) (j : Nat) (hj : j < 32) : bit (v &&& 0xFFFF) j = (decide (j < 16) && bit v j) := by
  have hmask := bit_mask 0 16 j hj
  rw [show mask 0 16 = (0xFFFF : Word) by decide] at hmask
  unfold bit
  rw [BitVec.getLsbD_and, hmask]
  simp [Bool.and_comm]

/-- A word whose low half has been written holds that half alone exactly where its high half was 0. -/
theorem setBits_low16_eq_iff (w v : Word) : setBits w 0 16 (bits v 0 16) = v &&& 0xFFFF ↔ ∀ j, 16 ≤ j → j < 32 → bit w j = false := by
  have hnew (j : Nat) (hj : j < 32) : bit (setBits w 0 16 (bits v 0 16)) j = if j < 16 then bit v j else bit w j := by
    rw [bit_setBits _ _ _ _ _ hj]
    by_cases h : j < 16 <;> simp [h, testBit_bits]
  constructor
  · intro h j hlo hj
    have hb := hnew j hj
    rw [h, bit_and_low16 v j hj, if_neg (by omega)] at hb
    simpa [Nat.not_lt.mpr hlo] using hb.symm
  · intro h
    refine word_ext _ _ (fun j hj => ?_)
    rw [hnew j hj, bit_and_low16 v j hj]
    by_cases hlo : j < 16
    · simp [hlo]
    · simp [hlo, h j (by omega) hj]

/-- The store register reads the 16 bits written and zeros above them exactly where its reserved bits were 0 before the write. -/
theorem State.storeWrite_reads_iff {s : State} {m : Master} {x : Ctx} {g : Fin 8} (he : s.enters m true x (pgRegs g))
    (hd : s.domReady (68 + g) = true) (hm : s.unitMay x (48 + g) = true) (hstop : s.pgRuns g = false) (i : Fin 48) (v : Word) :
    Does (.programStoreWrite m g (.store i) v) s (fun t => t.rg (rPg g (4 * i)) = v &&& 0xFFFF) ↔
      ∀ j, 16 ≤ j → j < 32 → s.flag (rPg g (4 * i)) j = false := by
  have hexec := State.storeWrite_done he hd hm hstop i v
  have hdoes : Does (.programStoreWrite m g (.store i) v) s (fun t => t.rg (rPg g (4 * i)) = v &&& 0xFFFF) ↔
      setBits (s.rg (rPg g (4 * i))) 0 16 (bits v 0 16) = v &&& 0xFFFF := by
    rw [← State.storeWrite_rg, ← State.noteWrite_answer_rg _ x.id (rPg g (4 * i)) _ v (s.putMask x 7 (storeOff g i))]
    refine ⟨fun ⟨t, ht, hrg⟩ => ?_, fun hrg => ⟨_, hexec, hrg⟩⟩
    rw [hexec] at ht
    injection ht with ht
    rw [ht]
    exact hrg
  rw [hdoes, setBits_low16_eq_iff]
  rfl

/-! ## A state whose store has a reserved bit set -/

/-- COMMISSION, with the domain of group 0 on and all its engines stopped; bit 31 of PG0_STORE0, which R390 reserves, is 1. A write of
the register does not set that bit, but no hypothesis of the obligation excludes it. -/
def strayStore : State :=
  (({ State.reset with otpLoaded := true }.setFld rSysMode 0 3 2).putBit rPwrRdy 68 true).setRg (rPg 0 0) 0x80000000

/-- The debug port reaches the registers of group 0 there. -/
theorem strayStore_enters : strayStore.enters .debug true debugCtx (pgRegs 0) :=
  ⟨rfl, by decide, fun _ => by decide, fun h => absurd h (by decide), rfl, fun _ _ => rfl⟩

/-- Refutes O49: in `strayStore` the debug port's write of 0 to PG0_STORE0 is accepted, and the register then holds 0x80000000, not
`0 &&& 0xFFFF`, since a write keeps the reserved bits (`State.storeWrite_reads_iff`) and the obligation speaks of every state. -/
theorem not_engineGroupsObeyTheirControls : ¬ Obligations.EngineGroupsObeyTheirControls := by
  unfold Obligations.EngineGroupsObeyTheirControls
  intro h
  have hready : strayStore.domReady (68 + (0 : Fin 8)) = true := by decide
  have hmay : strayStore.unitMay debugCtx (48 + (0 : Fin 8)) = true := rfl
  have hstop : strayStore.pgRuns 0 = false := by decide
  obtain ⟨hwrites, -⟩ := h strayStore .debug debugCtx 0 0 0 0 0 0 0 false
  obtain ⟨-, -, -, hconfig, -⟩ := hwrites strayStore_enters hready hmay
  obtain ⟨⟨t, hexec, hrg, -⟩, -⟩ := hconfig hstop
  have hclean := (State.storeWrite_reads_iff strayStore_enters hready hmay hstop 0 0).mp ⟨t, hexec, hrg⟩
  exact absurd (hclean 31 (by decide) (by decide)) (by decide)

end Sys2Proof.Machine
